-- ==== Sys2Proof/Word.lean ====
section
/-! DEFINITION. Bytes, sets held as bit masks, and tables of a fixed length: the plain data every other file is written in. -/

namespace Sys2Proof

/-- One byte of a frame (R169, R183). -/
abbrev Byte := BitVec 8

/-- A set of groups, as R181 writes it: bit g-1 set for group g. -/
abbrev GroupSet := BitVec 32

/-- A set of stages, or of steps of a plan, as R181 writes it: bit s-1 set for stage s. -/
abbrev StageSet := BitVec 16

/-- Membership of the thing with zero-based index `i` in a mask. -/
def mem {n : Nat} (m : BitVec n) (i : Nat) : Bool := m.getLsbD i

/-- The mask with the thing of zero-based index `i` put in. -/
def ins {n : Nat} (m : BitVec n) (i : Nat) : BitVec n := m ||| BitVec.twoPow n i

/-- The mask with the thing of zero-based index `i` taken out. -/
def del {n : Nat} (m : BitVec n) (i : Nat) : BitVec n := m &&& ~~~(BitVec.twoPow n i)

/-- A table of length `n` given entry by entry. -/
def tab {α : Type} {n : Nat} (f : Fin n → α) : Vector α n :=
  ⟨⟨(List.finRange n).map f⟩, by simp⟩

/-- A table with entry `i` replaced. -/
def put {α : Type} {n : Nat} (t : Vector α n) (i : Fin n) (x : α) : Vector α n :=
  t.set i.val x i.isLt

/-- A table with entry `i` rewritten by `f`. -/
def upd {α : Type} {n : Nat} (t : Vector α n) (i : Fin n) (f : α → α) : Vector α n :=
  put t i (f t[i])

/-- All indices of a table of length `n`, ascending. -/
abbrev idx (n : Nat) : List (Fin n) := List.finRange n

/-- The zero-based index of a thing numbered from 1, when the number is in range (section 3.3). -/
def ofNum (n k : Nat) : Option (Fin n) :=
  if h : 0 < k ∧ k ≤ n then some ⟨k - 1, by omega⟩ else none

/-- The number, from 1, of the thing with zero-based index `i` (section 3.3). -/
def num {n : Nat} (i : Fin n) : Nat := i.val + 1

end Sys2Proof
end

