-- ==== Sys2Proof/Config.lean ====
section
/-! DEFINITION. Config: the values the manual leaves open. Each is opaque: nothing in Lean evaluates it, so a theorem holds whatever it is. -/

namespace Sys2Proof

/-- The size in bytes of one entry of the table with the given id. R184 says each table has one entry size but lays out
only the circuit, conflict, plan and fault record entries, and R42 with R181 gives the stage table's; for every other table the size is this
free value
(DESIGN CHOICE, safe; log entry 5). It is used by the length check of TABLE_READ (R176) alone. -/
opaque Config.entrySize : Nat → Nat

/-- Whether a SENSE frame whose applied-tap byte is neither 0 nor 1 counts as DIM. R112 does not refuse such a byte and R183 gives it no
meaning: a free value (DESIGN CHOICE, safe; log entry 45). -/
opaque Config.strayTapDim : Nat → Bool

/-- What an enumerated field is written as while it holds no value (the reason of no departure, the class of no test), where its rule gives
"none" beside its list and not in it. R181 codes no such value: a free value (DESIGN CHOICE, safe; log entry 66). -/
opaque Config.absentCode : Nat

/-- The code of SUPPLY_OOR in a last measurement. R125 says that it is no verdict and gives it no place in a list: a free value (DESIGN CHOICE,
safe; log entry 66). -/
opaque Config.supplyOorCode : Nat

/-- The codes of the states EMPTY, WAITING, LISTENING and ANSWERED (0 to 3 here) of the pass-through slot in READ_STATUS (R178). R118 and R119
name the states and list them nowhere: free values (DESIGN CHOICE, safe; log entry 66). -/
opaque Config.passSlotCode : Nat → Nat

end Sys2Proof
end

