-- ==== Sys2Proof/Syntax.lean ====
section
/-! DEFINITION. Syntax: the names of the manual (aspects, targets, modes, kinds and so on), the entries carried by table requests, the frames
a unit sends, and the commands of the part, one constructor of `Instr` for each row of spec/opcode_table.json. -/

namespace Sys2Proof

/-! ## Names (R181 gives each its code: its place in the list, from 0) -/

/-- Group types (R1). -/
inductive GroupType where
  | unused | vehicle | pedestrian
deriving DecidableEq, Repr

/-- Circuit roles (R3). -/
inductive Role where
  | red | amber | green
deriving DecidableEq, Repr

/-- Load classes (R3). -/
inductive LoadClass where
  | incandescent | ledLinear | ledCp
deriving DecidableEq, Repr

/-- Terminal report orders (R6). -/
inductive ReportOrder where
  | direct | pairSwapped | reversed
deriving DecidableEq, Repr

/-- Input kinds (R48). -/
inductive InputKind where
  | detector | pushButton | panelHold
deriving DecidableEq, Repr

/-- Aspects of both group types (R8). -/
inductive Aspect where
  | dark | red | redAmber | green | amber | flashAmber | greenFlash
deriving DecidableEq, Repr

/-- Targets (R20). -/
inductive Target where
  | go | stop | flash | dark
deriving DecidableEq, Repr

/-- Junction modes (R74). -/
inductive Mode where
  | dark | startFlash | startRed | plan | directDrive | flash
deriving DecidableEq, Repr

/-- Reasons of a mode (R74). -/
inductive Reason where
  | reset | restart | config | controller | schedule | fault | noPlan | mains
deriving DecidableEq, Repr

/-- Destinations of an orderly departure (R74, R82). -/
inductive Dest where
  | flash | dark | startRed
deriving DecidableEq, Repr

/-- The mode class named by the schedule (R74, R103). -/
inductive SchedMode where
  | plan | flash | dark
deriving DecidableEq, Repr

/-- Dim states and dim taps (R105, R115). -/
inductive Tap where
  | bright | dim
deriving DecidableEq, Repr

/-- Clock sources (R98). -/
inductive Source where
  | mains | crystal
deriving DecidableEq, Repr

/-- Reactions, least severe first (R160). -/
inductive Reaction where
  | record | alarm | inhibit | flash | dark
deriving DecidableEq, Repr

/-- The 21 fault kinds in their numbered order (R160). -/
inductive Kind where
  | lampOut | lampPartial | lampLow | lampHigh | redLost | unexpectedGreen | crossFeed | cableOpen | cableShort
  | overcurrent | earthLeakage | fiuLost | fiuMismatch | fiuOvertemp | mainsFrequency | mainsInterruption
  | detectorStuck | planInvalid | startProvingTimeout | controllerSilent | dimUnlearned
deriving DecidableEq, Repr

/-- Threshold modes of the observed-lit judgement (R145). -/
inductive ThresholdMode where
  | fixed | ratio | both
deriving DecidableEq, Repr

/-- The demanded mode of the fault collector (R166). -/
inductive Demanded where
  | none | flash | dark
deriving DecidableEq, Repr

/-- Modes of the controller hold (R68). -/
inductive HoldMode where
  | stage | cycle
deriving DecidableEq, Repr

/-- Result codes in the order of section 10.2.1 (R181). -/
inductive Result where
  | done | clamped | busy | malformed | badIndex | badValue | inUse | badState | invalid | conflict | filtered
  | blankIdentity | noSlot
deriving DecidableEq, Repr

/-! ## Entries carried by table requests. A field is the number the wire carries; the owning rule judges it. -/

/-- A FIU table entry (R6). -/
structure FiuEntry where
  present : Nat
  typeCode : Nat
  order : Nat
deriving DecidableEq, Repr

/-- A group table entry (R1). -/
structure GroupEntry where
  type : Nat
  amber : Nat
  redAmber : Nat
  clearance : Nat
  pattern : Nat
  safetyMin : Nat
  minRed : Nat
  redSets : Nat
deriving DecidableEq, Repr

/-- A circuit table entry (R3), in the byte order of R184. -/
structure CircuitEntry where
  group : Nat
  fiu : Nat
  terminal : Nat
  role : Nat
  redSet : Nat
  loadClass : Nat
  k : Nat
  proving : Nat
  cableTest : Nat
  bleed : Nat
deriving DecidableEq, Repr

/-- An input map entry (R48). -/
structure InputEntry where
  fiu : Nat
  input : Nat
  kind : Nat
  demand : StageSet
  extend : StageSet
  debounce : Nat
  stuckLimit : Nat
deriving DecidableEq, Repr

/-- One slot of a flash pattern: a level, an on/off field (1 is ON, 0 is OFF; DEDUCED, unsafe; log entry 13), and a duration (R91). -/
structure PatternSlot where
  level : Nat
  duration : Nat
deriving DecidableEq, Repr

/-- A pattern table entry (R91). -/
structure PatternEntry where
  steps : Nat
  slots : Vector PatternSlot 8
deriving DecidableEq, Repr

/-- The start-up record (R76); `mains` is 0 for 50 Hz and 1 for 60 Hz. -/
structure StartUp where
  mains : Nat
  startFlash : Nat
  startRed : Nat
  provingLimit : Nat
  restart : Nat
  silence : Nat
  pattern : Nat
  fallback : Nat
deriving DecidableEq, Repr

/-- The fields of a schedule entry (R102); `action` is 0 PLAN, 1 FLASH, 2 DARK, 3 DIM_ON, 4 DIM_OFF. The day set is its byte (R181), whose
bit 7 names no weekday: it is stored and read back as written and takes part in nothing (DESIGN CHOICE, unsafe; log entry 42). -/
structure SchedEntry where
  days : BitVec 8
  hours : Nat
  minutes : Nat
  action : Nat
  plan : Nat
deriving DecidableEq, Repr

/-- What a TABLE_WRITE of the schedule carries for one index: the header's default plan for index 0, an entry for indices 1 to 48 (R102, R174). -/
inductive SchedRaw where
  | header (defaultPlan : Nat)
  | entry (e : SchedEntry)
deriving DecidableEq, Repr

/-- The proving parameters record (R124). -/
structure ProvingParams where
  tLo : Nat
  tHi : Nat
  failConfirm : Nat
  recoverConfirm : Nat
  presence : Nat
  spread : Nat
deriving DecidableEq, Repr

/-- The cable parameters record (R145); `mode` is the threshold mode's code. -/
structure CableParams where
  openThreshold : Nat
  lowThreshold : Nat
  testInterval : Nat
  testConfirm : Nat
  vFix : Nat
  ratio : Nat
  mode : Nat
  offCurrent : Nat
  crossConfirm : Nat
  retryDelay : Nat
  maxRetries : Nat
  tripClear : Nat
  leakThreshold : Nat
  leakConfirm : Nat
  leakClear : Nat
  greenConfirm : Nat
  missLimit : Nat
deriving DecidableEq, Repr

/-- One part of a reference table entry (R129); `held` is 0 for no reference and 1 for a reference. -/
structure RefPart where
  held : Nat
  iref : Nat
  vref : Nat
deriving DecidableEq, Repr

/-- A reference table entry (R129). -/
structure RefEntry where
  bright : RefPart
  dim : RefPart
deriving DecidableEq, Repr

/-- The table form of a request (R174): start index, count and stride code. -/
structure TableArgs where
  start : Nat
  count : Nat
  stride : Nat
deriving DecidableEq, Repr

/-- The target of a STEP request (R71). -/
inductive StepTarget where
  | next
  | stage (n : Nat)
deriving DecidableEq, Repr

/-- The circuits named by LEARN and LEARN_CANCEL (R137, R140). -/
inductive CircuitList where
  | all
  | list (cs : List Nat)
deriving DecidableEq, Repr

/-- What ACK_FAULT names (R164); `neither` is a payload that holds neither the ALL code nor a kind and a subject. -/
inductive AckArg where
  | all
  | one (kind subject : Nat)
  | neither
deriving DecidableEq, Repr

/-! ## Frames from a unit (R110, R183). A frame's fields stand by position, as received. -/

/-- One per-terminal sample of a SENSE frame (R123, R183); `spare` is bits 3 to 7 of its flags byte, which a sense report carries as
received (R182). -/
structure Sample where
  isum : Nat
  vterm : Nat
  residual : Nat
  driven : Bool
  ovc : Bool
  tested : Bool
  spare : BitVec 5
deriving DecidableEq, Repr

/-- A SENSE frame as received (R112, R183): the unit number of its address byte, whether its CRC and its size are those of a
SENSE frame, the per-unit bytes, and the samples and input bits by position. The applied tap stands as its byte, and `spare` is bits 1 to 7
of the unit flags byte, since a sense report carries both as received (R182). -/
structure SenseFrame where
  unit : Nat
  crcGood : Bool
  sizeGood : Bool
  window : Nat
  vsup : Nat
  tapByte : Byte
  leakage : Nat
  inputs : BitVec 8
  overtemp : Bool
  spare : BitVec 7
  samples : Vector Sample 8
deriving DecidableEq, Repr

/-- An IDENT frame as received (R111, R183). -/
structure IdentFrame where
  unit : Nat
  good : Bool
  typeCode : Nat
  serial : Nat
deriving DecidableEq, Repr

/-- A unit's answer to PASS as received (R119, R183). -/
structure PassFrame where
  unit : Nat
  good : Bool
  kind : Byte
  payload : List Byte
deriving DecidableEq, Repr

/-- Why a C-link frame is corrupt (R169). -/
inductive Corruption where
  | badLength | badCrc
deriving DecidableEq, Repr

/-- Which flash run a step change belongs to (R92). -/
inductive RunName where
  | junction
  | clearance (g : Fin 32)
deriving DecidableEq, Repr

/-! ## Commands -/

/-- The commands of the part: one constructor for each row of spec/opcode_table.json, in its order. A request carries the tag of its
frame and the fields of its payload. An event carries what came from outside (a measured period, a frame) or
which group, circuit, unit, entry or run it concerns, by zero-based index. -/
inductive Instr where
  | powerOnReset
  | configOpen (tag : Byte)
  | tableWriteFiu (tag : Byte) (args : TableArgs) (es : List FiuEntry)
  | tableWriteGroup (tag : Byte) (args : TableArgs) (es : List GroupEntry)
  | tableWriteCircuit (tag : Byte) (args : TableArgs) (es : List CircuitEntry)
  | tableWriteConflictMatrix (tag : Byte) (args : TableArgs) (es : List Nat)
  | tableWriteStage (tag : Byte) (args : TableArgs) (es : List GroupSet)
  | tableWriteInputMap (tag : Byte) (args : TableArgs) (es : List InputEntry)
  | tableWritePattern (tag : Byte) (args : TableArgs) (es : List PatternEntry)
  | tableWriteStartUpRecord (tag : Byte) (args : TableArgs) (es : List StartUp)
  /-- `plan` is the plan number, 1 to 8 for table ids H'11 to H'18; each entry is its 11 bytes (R184). -/
  | tableWritePlan (tag : Byte) (plan : Nat) (args : TableArgs) (es : List (List Byte))
  | tableWriteSchedule (tag : Byte) (args : TableArgs) (es : List SchedRaw)
  | tableWriteReaction (tag : Byte) (args : TableArgs) (es : List Nat)
  | tableWriteProvingParameters (tag : Byte) (args : TableArgs) (es : List ProvingParams)
  | tableWriteCableParameters (tag : Byte) (args : TableArgs) (es : List CableParams)
  | tableWriteReference (tag : Byte) (args : TableArgs) (es : List RefEntry)
  /-- A TABLE_WRITE whose table id is that of no writable table; `entries` is how many whole entries its payload holds. -/
  | tableWriteLive (tag : Byte) (id : Nat) (args : TableArgs) (entries : Nat)
  | tableRead (tag : Byte) (id : Nat) (args : TableArgs)
  | validatePlan (tag : Byte) (plan : Nat)
  | start (tag : Byte)
  | programIdentity (tag : Byte) (bytes : List Byte)
  | readIdentity (tag : Byte)
  | selectPlan (tag : Byte) (plan : Nat)
  | releasePlan (tag : Byte)
  | hold (tag : Byte) (mode : Nat)
  | releaseHold (tag : Byte)
  | step (tag : Byte) (target : StepTarget)
  | demand (tag : Byte) (stages : List Nat)
  | setDim (tag : Byte) (state : Nat)
  | releaseDim (tag : Byte)
  | flash (tag : Byte) (option : Nat)
  | dark (tag : Byte) (option : Nat)
  | resume (tag : Byte)
  | directEnter (tag : Byte)
  | directTarget (tag : Byte) (entries : List (Nat × Nat))
  | directExit (tag : Byte)
  | syncPatterns (tag : Byte)
  | learn (tag : Byte) (circuits : CircuitList) (tap nMin nMax : Nat)
  | learnCancel (tag : Byte) (circuits : CircuitList)
  | ackFault (tag : Byte) (arg : AckArg)
  | clearLatch (tag : Byte) (circuit : Nat)
  | readStatus (tag : Byte)
  | forwardSet (tag : Byte) (units : List Nat)
  | pass (tag : Byte) (unit : Nat) (kind : Byte) (payload : List Byte)
  | setTime (tag : Byte) (weekday ms : Nat)
  | trim (tag : Byte) (t : Int) (source : Nat)
  | engineRestart (tag : Byte)
  | malformedRequest (kind tag : Byte)
  | busyRequest (kind tag : Byte)
  | corruptFrame (why : Corruption)
  | framePauseTimeout
  | frameSent
  /-- `period` is the interval since the previous edge in microseconds; for the first edge after POR, since the end of POR. -/
  | mainsEdge (period : Nat)
  | mainsFrequencyRaise
  | mainsFrequencyClear
  | mainsGapBegin
  | mainsInterruptionRaise
  | mainsInterruptionClear
  | substituteWindowStart
  | senseReceived (f : SenseFrame)
  | senseMiss (u : Fin 12)
  | fiuLost (u : Fin 12)
  | rollCallRound
  | identReceived (f : IdentFrame)
  | identTimeout (u : Fin 12)
  | passReplyReceived (f : PassFrame)
  | unexpectedGreenRaise (g : Fin 32)
  | unexpectedGreenClear (g : Fin 32)
  | decisecondPulse
  | clearanceStart (g : Fin 32)
  | amberEnd (g : Fin 32)
  | clearanceEnd (g : Fin 32)
  | redAmberEnd (g : Fin 32)
  | patternStep (run : RunName)
  | startFlashEnd
  | startRedEnd
  | startProvingTimeout
  | controllerSilent
  | minimumGreenEnd
  | gapOut
  | maxOut
  | forceOff
  | minuteBoundary
  | midnightRollover
  | inputChange (e : Fin 64)
  | detectorStuck (e : Fin 64)
  | verdictConfirm (c : Fin 96)
  | learnConverge (c : Fin 96)
  | learnUnstable (c : Fin 96)
  | cableFaultConfirm (c : Fin 96)
  | crossFeedRaise (c : Fin 96)
  | crossFeedClear (c : Fin 96)
  | retryRelease (c : Fin 96)
  | tripCountClear (c : Fin 96)
  | earthLeakageRaise (u : Fin 12)
  | earthLeakageClear (u : Fin 12)
  | fiuOvertempRaise (u : Fin 12)
  | fiuOvertempClear (u : Fin 12)
  /-- A byte on the controller link while the receiver may be HUNTING. -/
  | frameBegins (b : Byte)
  | crystalMillisecond
deriving DecidableEq, Repr

end Sys2Proof
end

