-- ==== Sys2Proof/Decode.lean ====
section
/-! DEFINITION. Decode: the command a word of the table's bits spells. -/

namespace Sys2Proof

/-- The command a word spells by the bits of spec/opcode_table.json. No row of the table has bits (the rows are steps of the part, not
words), so no word spells a command. -/
def decodeTableWord (_nbits _w : Nat) : Option Instr := none

end Sys2Proof
end

