-- ==== Sys2Proof/Machine/State.lean ====
section
/-! DEFINITION. State: every piece of state the manual gives the part, as plain data, its reset value, and the reasons a step can stop. -/

namespace Sys2Proof.Machine

open Sys2Proof

/-! ## Why a step can stop -/

/-- The faults of the machine. The manual gives every command an effect in every state (a request that is not taken is
answered with a result code), so no command stops the part: there is no fault. -/
inductive Fault where
deriving DecidableEq, Repr

/-- The refusals of the machine. -/
inductive Refusal where
  /-- Raised by `exec` for a row of the table that has no meaning yet. Safe: nothing is claimed of such a command. -/
  | notModelled (mnemonic : String)
deriving DecidableEq, Repr

/-! ## Chapters 1 to 5: configuration -/

/-- A step of a plan as stored (R43). -/
structure PlanStep where
  stage : Nat
  minGreen : Nat
  maxGreen : Nat
  unitExt : Nat
  demandDep : Bool
  recalled : Bool
  holdFlag : Bool
  forceOff : Nat
deriving DecidableEq, Repr

/-- States of a plan (R44). -/
inductive PlanState where
  | empty | loaded | valid | invalid
deriving DecidableEq, Repr

/-- Kinds of plan validation error, in the order of R46. -/
inductive PlanError where
  | emptySequence | cycleRange | offsetRange | badStage | repeatStage | minGtMax | minBelowFloor | forceOrder | noHold
  | twoHold | cycleTooShort
deriving DecidableEq, Repr

/-- One plan of the plan store: header, 16 step entries, state and error list (R43 to R45). The in-use flag of R44 is not
stored apart from the engine's running and pending plans. -/
structure Plan where
  cycle : Nat
  offset : Nat
  steps : Nat
  entries : Vector PlanStep 16
  state : PlanState
  errors : List (PlanError × Nat)
deriving DecidableEq, Repr

/-- The tables the controller writes (R1, R3, R6, R18, R42, R43, R48, R76, R91, R102, R124, R129, R145, R160). -/
structure Tables where
  fiu : Vector FiuEntry 12
  group : Vector GroupEntry 32
  circuit : Vector CircuitEntry 96
  /-- Row i, column j: IG(i,j), none for NONE (R18). -/
  matrix : Vector (Vector (Option Nat) 32) 32
  stage : Vector GroupSet 16
  input : Vector InputEntry 64
  pattern : Vector PatternEntry 4
  startUp : StartUp
  plan : Vector Plan 8
  /-- The schedule header's default plan, 0 for none (R102). -/
  schedDefault : Nat
  sched : Vector SchedEntry 48
  reaction : Vector Reaction 21
  proving : ProvingParams
  cable : CableParams
  reference : Vector RefEntry 96
deriving DecidableEq, Repr

/-- The circuits of one group by role, and its red sets (R15). -/
structure GroupCircuits where
  red : List (Fin 96)
  amber : List (Fin 96)
  green : List (Fin 96)
  redSets : Vector (List (Fin 96)) 4
deriving DecidableEq, Repr

/-- The circuit map (R15): for each unit and terminal its circuit, and for each group its circuit lists. -/
structure CircuitMap where
  terminal : Vector (Vector (Option (Fin 96)) 8) 12
  groups : Vector GroupCircuits 32
deriving DecidableEq, Repr

/-! ## Chapter 2: the conflict monitor -/

/-- The monitor's record of one group (R20), with the fresh marks of its two timers (R21) and its seen mark (R36). -/
structure GroupRec where
  aspect : Aspect
  target : Target
  inAspect : Nat
  inAspectFresh : Bool
  sinceGreen : Nat
  sinceGreenFresh : Bool
  inhibited : Bool
  greenRun : Nat
  quiet : Nat
  seen : Bool
  raised : Bool
deriving DecidableEq, Repr

/-! ## Chapters 3 and 4: the plan engine, the mode machine and the flash runs -/

/-- A flash run (R92): its pattern, its current step (zero-based), its time in step and its fresh mark. -/
structure Run where
  pattern : Nat
  step : Nat
  time : Nat
  fresh : Bool
deriving DecidableEq, Repr

/-- Sub-states of the engine (R54). -/
inductive Sub where
  | idle | interstage | min | extend | rest | hold | dwell
deriving DecidableEq, Repr

/-- What a STEP asks for (R54, R71). -/
inductive StepReq where
  | next
  | stage (s : Fin 16)
deriving DecidableEq, Repr

/-- The engine record (R54). The last group of fields is the engine's own bookkeeping that R58, R64, R66 and R68 imply. -/
structure Engine where
  running : Option (Fin 8)
  pendingPlan : Option (Fin 8)
  governing : Fin 8
  cur : Fin 16
  sub : Sub
  served : GroupSet
  gaining : GroupSet
  minElapsed : Nat
  ext : Nat
  maxElapsed : Option Nat
  passed : StageSet
  lastReading : Nat
  dwell : Bool
  resync : Bool
  hold : Option HoldMode
  cycleReached : Bool
  stepReq : Option StepReq
  orderly : Bool
  /-- Groups given STOP by the interstage in progress (R58). -/
  losing : GroupSet
  /-- A gaining group of the interstage in progress has entered GREEN (R58). -/
  gained : Bool
  /-- The current step's stage has started and the step has not ended (R59). -/
  stageOn : Bool
  /-- The engine has returned to step 1 and no stage has started since (R68). -/
  returned : Bool
  /-- A SET_TIME step of more than 20 ds was reported since the last reading (R64). -/
  bigStep : Bool
  /-- A backward SET_TIME step of 20 ds or less was reported since the last reading (R64). -/
  backStep : Bool
  /-- A midnight rollover was reported since the last reading (R64). -/
  rollover : Bool
  /-- The engine holds PLAN_INVALID raised for the plan (R66). -/
  invalidRaised : BitVec 8
deriving DecidableEq, Repr

/-- The input evaluation's record of one input map entry (R49, R50). -/
structure InputRec where
  active : Bool
  disagree : Nat
  activeTime : Nat
  stuck : Bool
deriving DecidableEq, Repr

/-- A departure waiting for every group to reach RED (R74, R82). -/
structure Departure where
  dest : Dest
  reason : Reason
deriving DecidableEq, Repr

/-- The mode record (R74). -/
structure ModeRec where
  mode : Mode
  reason : Reason
  started : Bool
  departure : Option Departure
  timer : Nat
  timerFresh : Bool
  provingTimeout : Bool
  schedMode : SchedMode
  silence : Nat
  silenceFresh : Bool
  silent : Bool
deriving DecidableEq, Repr

/-! ## Chapter 5: clock, mains supervisor and schedule -/

/-- States of the window timebase (R95). -/
inductive Timebase where
  | locked | substitute
deriving DecidableEq, Repr

/-- The mains supervisor (R94 to R97). The two times are microseconds of the crystal since the end of POR. -/
structure Mains where
  outOfBand : Nat
  inBand : Nat
  freqRaised : Bool
  interRaised : Bool
  gap : Bool
  timebase : Timebase
  subPhase : Nat
  windowCount : Nat
  /-- Window starts counted since the end of the last gap (R96), none when no count runs. -/
  sinceGap : Option Nat
  lastEdge : Nat
  lastWindow : Option Nat
deriving DecidableEq, Repr

/-- The junction clock (R98, R99). -/
structure Clock where
  weekday : Nat
  ms : Nat
  day : Nat
  unset : Bool
  preferred : Source
  trim : Int
  acc : Int
  phase60 : Nat
deriving DecidableEq, Repr

/-- The results of schedule evaluation, the overrides and the values last handed on (R103 to R105). -/
structure SchedRec where
  mode : SchedMode
  plan : Fin 8
  dim : Tap
  planOverride : Option (Fin 8)
  dimOverride : Option Tap
  effPlan : Fin 8
  effDim : Tap
deriving DecidableEq, Repr

/-! ## Chapter 6: the field bus -/

/-- Admission states of a unit (R107). -/
inductive UnitState where
  | unused | expected | admitted | mismatch | lost
deriving DecidableEq, Repr

/-- A window record of a unit's composition log (R114), by terminal. -/
structure WinRec where
  window : Nat
  tap : Tap
  on : BitVec 8
  test : BitVec 8
  bleed : BitVec 8
  called : BitVec 8
  sent : Bool
deriving DecidableEq, Repr

/-- The field bus controller's record of one unit (R107). -/
structure UnitRec where
  state : UnitState
  typeCode : Option Nat
  serial : Option Nat
  miss : Nat
  hotRun : Nat
  hotQuiet : Nat
  dim : Tap
  lostRaised : Bool
  mismatchRaised : Bool
  hotRaised : Bool
  dimRaised : Bool
  log : List WinRec
deriving DecidableEq, Repr

/-- A maintenance message held in the pass-through slot (R118). -/
structure PassMsg where
  unit : Fin 12
  kind : Byte
  payload : List Byte
  tag : Byte
deriving DecidableEq, Repr

/-- Statuses of a PASS_REPLY (R119, R182). -/
inductive PassStatus where
  | replied | timeout | abandoned
deriving DecidableEq, Repr

/-- The pass-through slot (R119). A WAITING message is due once a round has begun after it was taken. -/
inductive PassSlot where
  | empty
  | waiting (m : PassMsg) (due : Bool)
  | listening (m : PassMsg)
  | answered (m : PassMsg) (status : PassStatus) (reply : List Byte)
deriving DecidableEq, Repr

/-- What a report's annotation says of one position (R120): the terminal, and the verdict and q of its circuit. -/
inductive Verdict where
  | unknown | ok | low | partialOf (n : Nat) | high | out | present | absent | forced
deriving DecidableEq, Repr

/-- One position of an annotation (R120). -/
structure Note where
  terminal : Nat
  verdict : Option Verdict
  q : Option Nat
deriving DecidableEq, Repr

/-- A clock stamp (R98). -/
structure Stamp where
  day : Nat
  ms : Nat
deriving DecidableEq, Repr

/-- A sense report (R120). -/
structure Report where
  dropped : Nat
  frame : SenseFrame
  stamp : Stamp
  notes : Vector Note 8
deriving DecidableEq, Repr

/-- Frames the part sends on the field bus (R183), by terminal order resolved to positions. -/
inductive BusFrame where
  | drive (u : Fin 12) (window : Nat) (tap : Tap) (on test bleed : BitVec 8)
  | rollCall (u : Fin 12)
  | pass (u : Fin 12) (kind : Byte) (payload : List Byte)
deriving DecidableEq, Repr

/-- The poll round in progress (R109): units still to be exchanged with, the unit whose SENSE is awaited, whether this
is a roll-call round, units still to be called, the unit whose IDENT is awaited, and whether the
exchanges of the round are over. -/
structure Round where
  active : Bool
  poll : List (Fin 12)
  awaiting : Option (Fin 12)
  isRoll : Bool
  roll : List (Fin 12)
  called : Option (Fin 12)
  finished : Bool
deriving DecidableEq, Repr

/-- The field bus controller (R107 to R122). -/
structure Bus where
  units : Vector UnitRec 12
  seq : Nat
  /-- Rounds since the last roll-call round; a roll-call round is due when it reaches a second's windows (R109). -/
  sinceRoll : Nat
  round : Round
  slot : PassSlot
  forward : BitVec 12
  queue : List Report
  dropped : Nat
  /-- The present window began while a mains gap was in progress (R116). -/
  windowInGap : Bool
  /-- The window before the present one is a gap window (R116). -/
  lastInGap : Bool
  /-- Frames sent in the present round, in order. -/
  sent : List BusFrame
deriving DecidableEq, Repr

/-! ## Chapter 7: lamp proving -/

/-- The last measurement of a circuit (R125); `none` for the window verdict is SUPPLY_OOR. -/
structure Meas where
  window : Nat
  tap : Tap
  isum : Nat
  vsup : Nat
  verdict : Option Verdict
  q : Option Nat
deriving DecidableEq, Repr

/-- Lamp faults a circuit can hold raised (R125). -/
inductive LampFault where
  | out | part | low | high
deriving DecidableEq, Repr

/-- The proving record of one circuit (R125). The candidate is one of the window verdicts. -/
structure ProvRec where
  verdict : Verdict
  cand : Option Verdict
  run : Nat
  onRun : Nat
  last : Option Meas
  fault : Option LampFault
deriving DecidableEq, Repr

/-- States of a learn record (R138). -/
inductive LearnState where
  | idle | learning | done | failed
deriving DecidableEq, Repr

/-- Failure reasons of learning (R138). -/
inductive LearnFail where
  | noLoad | noSupply | unstable
deriving DecidableEq, Repr

/-- The result of a convergence test (R138). -/
structure LearnResult where
  mean : Nat
  spread : Nat
  vmean : Nat
deriving DecidableEq, Repr

/-- The learn record of one circuit (R138). -/
structure LearnRec where
  state : LearnState
  fail : Option LearnFail
  tap : Tap
  nMin : Nat
  nMax : Nat
  count : Nat
  ring : List (Nat × Nat)
  result : Option LearnResult
deriving DecidableEq, Repr

/-- Red status of a group (R143). -/
inductive RedStatus where
  | proven | degraded | unknown | lost
deriving DecidableEq, Repr

/-- Status of a red set (R142). -/
inductive SetStatus where
  | gives | lost | unknown
deriving DecidableEq, Repr

/-- The lamp proving unit (R125, R126, R138, R143). -/
structure Proving where
  circuits : Vector ProvRec 96
  learn : Vector LearnRec 96
  /-- Each unit's last window taken in, with the tap it reported (R126). -/
  lastWin : Vector (Option (Nat × Tap)) 12
  red : Vector RedStatus 32
deriving DecidableEq, Repr

/-! ## Chapter 8: cable supervision -/

/-- Classes of a presample test (R149). -/
inductive TestClass where
  | isOpen | low | high
deriving DecidableEq, Repr

/-- Mismatch candidates (R149). -/
inductive Mismatch where
  | isOpen | short
deriving DecidableEq, Repr

/-- Retry states (R152). -/
inductive Retry where
  | normal | retryWait | latched
deriving DecidableEq, Repr

/-- The cable record of one circuit (R146). -/
structure CableRec where
  sinceTest : Nat
  inFlight : Option Nat
  lastTest : Option (Nat × TestClass)
  cand : Option Mismatch
  mrun : Nat
  litRun : Nat
  quiet : Nat
  retry : Retry
  retryTimer : Nat
  retryFresh : Bool
  trips : Nat
  cleanOn : Nat
  openRaised : Bool
  shortRaised : Bool
  crossRaised : Bool
  ovcRaised : Bool
deriving DecidableEq, Repr

/-- The leakage record of one unit (R146); the suspects are in ascending circuit order. -/
structure LeakRec where
  run : Nat
  quiet : Nat
  suspects : List (Fin 96)
  raised : Bool
deriving DecidableEq, Repr

/-- The cable supervision unit (R146). -/
structure Cable where
  circuits : Vector CableRec 96
  leak : Vector LeakRec 12
deriving DecidableEq, Repr

/-! ## Chapter 9: the fault collector -/

/-- States of a fault record (R159). -/
inductive FaultState where
  | activeUnack | activeAck | clearedUnack
deriving DecidableEq, Repr

/-- Details of a fault record (R159, R184). -/
inductive Detail where
  | absent
  | lampCount (n : Nat)
  | testClass (c : TestClass)
  | suspects (cs : List (Fin 96))
  | errIndex (n : Nat)
deriving DecidableEq, Repr

/-- A fault record (R159). The subject is the number of the thing, 0 for none. -/
structure FaultRec where
  kind : Kind
  subject : Nat
  state : FaultState
  first : Stamp
  last : Stamp
  count : Nat
  reaction : Reaction
  detail : Detail
deriving DecidableEq, Repr

/-- The fault collector (R159, R162, R166, R167), with the outputs it has handed on. `demandStands` is the model's own: the
inhibit demand stands as CONFIG_OPEN left it (R41), none of the changes of R161 to R166 having been made since (log entry 33). -/
structure Collector where
  slots : Vector (Option FaultRec) 64
  overflow : Option Reaction
  inhibitDemand : GroupSet
  demandStands : Bool
  demanded : Demanded
  alarm : Bool
deriving DecidableEq, Repr

/-! ## Chapter 10: the controller link port -/

/-- The receiver's state (R169). -/
inductive Receiver where
  | hunting | receiving
deriving DecidableEq, Repr

/-- The applied-dim summary (R115). -/
inductive DimSummary where
  | allBright | allDim | mixed
deriving DecidableEq, Repr

/-- The junction summary (R171). -/
structure Summary where
  mode : Mode
  reason : Reason
  running : Option (Fin 8)
  stage : Option Nat
  interstage : Bool
  unack : Nat
  alarm : Bool
  overflow : Bool
  direct : Bool
  dim : DimSummary
  learning : Bool
  source : Source
  unset : Bool
deriving DecidableEq, Repr

/-- An entry of the list an INVALID or START reply carries (R182): plan number (0 for a structural entry), kind, index. -/
structure ErrEntry where
  plan : Nat
  kind : Nat
  index : Nat
deriving DecidableEq, Repr

/-- An entry as TABLE_READ returns it, by table (R174, R176). -/
inductive TableEntry where
  | fiu (e : FiuEntry)
  | group (e : GroupEntry)
  | circuit (e : CircuitEntry)
  | conflict (ig : Option Nat)
  | stage (gs : GroupSet)
  | input (e : InputEntry)
  | pattern (e : PatternEntry)
  | startUp (e : StartUp)
  | planHeader (cycle offset steps : Nat)
  | planStep (e : PlanStep)
  | schedHeader (defaultPlan : Nat)
  | sched (e : SchedEntry)
  | reaction (r : Reaction)
  | proving (p : ProvingParams)
  | cable (p : CableParams)
  | reference (e : RefEntry)
  | circuitLive (p : ProvRec) (c : CableRec)
  | groupLive (g : GroupRec) (red : RedStatus) (sets : List SetStatus)
  | fiuLive (u : UnitRec) (l : LeakRec)
  | fault (r : Option FaultRec)
  | engine (e : Engine) (m : ModeRec) (latched : StageSet)
  | clock (c : Clock) (m : Mains) (r : SchedRec) (d : Demanded)
  | runs (j : Run) (cs : Vector (Option Run) 32)
  | planStatus (st : PlanState) (inUse : Bool) (errors : List (PlanError × Nat))
  | learn (l : LearnRec)
deriving DecidableEq, Repr

/-- The extended status of READ_STATUS (R178). -/
structure Status where
  configOpen : Bool
  started : Bool
  departure : Option Departure
  demanded : Demanded
  overflow : Option Reaction
  weekday : Nat
  ms : Nat
  day : Nat
  effPlan : Fin 8
  effDim : Tap
  reports : Nat
  dropped : Nat
  slot : PassSlot
  effSlot : Nat
deriving DecidableEq, Repr

/-- The data a reply returns (R170). -/
inductive ReplyData where
  | none
  | entries (es : List TableEntry)
  | errors (es : List ErrEntry)
  | conflictGroup (g : Nat)
  | slot (n : Nat)
  | identity (slots : Vector (Option (List Byte)) 3) (effective : Nat)
  | status (st : Status)
deriving DecidableEq, Repr

/-- A reply or a BUSY answer (R170). -/
structure Reply where
  kind : Byte
  tag : Byte
  result : Result
  summary : Summary
  data : ReplyData
  /-- This is the answer of the BUSY slot, not the reply of the request in service. -/
  busy : Bool
deriving DecidableEq, Repr

/-- The content of an ALERT (R172): a summary, the number of the effective slot (0 for none) and the identity. -/
structure Alert where
  summary : Summary
  slot : Nat
  identity : List Byte
deriving DecidableEq, Repr

/-- Frames the part sends on the controller link (R173, R182). -/
inductive TxFrame where
  | reply (r : Reply)
  | alert (a : Alert)
  | passReply (m : PassMsg) (status : PassStatus) (payload : List Byte)
  | report (r : Report)
deriving DecidableEq, Repr

/-- The controller link port (R169 to R173, R177, R180). -/
structure Port where
  receiver : Receiver
  /-- Kind and tag of the request in service. -/
  inService : Option (Byte × Byte)
  /-- Replies and BUSY answers ready to be sent, the one made ready earlier first. -/
  replies : List Reply
  /-- The BUSY slot holds an answer not yet sent. -/
  busy : Bool
  alert : Option Alert
  /-- The frame being sent. -/
  tx : Option TxFrame
  configOpen : Bool
  identity : Vector (Option (List Byte)) 3
  summary : Summary
deriving DecidableEq, Repr

/-! ## The state -/

/-- What a frame has done to the circuits of its unit: those whose window was judged (R134), those it was a learning window of (R138), those whose
test it brought a result of (R148), and those judged for observed lit (R150) (the model's own; log entry 2). -/
structure FrameWork where
  judged : List (Fin 96)
  learned : List (Fin 96)
  tested : List (Fin 96)
  lit : List (Fin 96)
deriving DecidableEq, Repr

/-- The event that still stands: the last one taken that can make a moment fall due, with nothing taken since that could. A command that names a
moment of a pulse, of a window start or of a frame is part of that event (the model's own; log entry 2). -/
inductive Moment where
  /-- None: something has been taken since that could change what falls due. -/
  | between
  /-- A decisecond pulse (R97). -/
  | pulse
  /-- A window start, with or without a pulse (R95, R97). -/
  | window (pulsed : Bool)
  /-- The frame of a unit, taken through the stages of intake, with its work (R112, R116). A frame discarded at the gap test does not stand. -/
  | frame (unit : Fin 12) (work : FrameWork)
deriving DecidableEq, Repr

/-- The state of the part. -/
structure State where
  tables : Tables
  map : Option CircuitMap
  groups : Vector GroupRec 32
  /-- The groups of type VEHICLE or PEDESTRIAN at the last accepted START: a type written while configuration is open acts on the monitor from the
  next one (R41). -/
  acting : GroupSet
  junctionRun : Run
  clearRuns : Vector (Option Run) 32
  eng : Engine
  inputs : Vector InputRec 64
  latched : StageSet
  jm : ModeRec
  mains : Mains
  clock : Clock
  sched : SchedRec
  bus : Bus
  prov : Proving
  cable : Cable
  coll : Collector
  port : Port
  /-- A decisecond pulse is being taken: a timer set now is not marked fresh (R21). -/
  inPulse : Bool
  /-- The event that still stands (the model's own; log entry 2). -/
  moment : Moment
  /-- Commands waiting, first in first out. -/
  pending : List Instr
deriving DecidableEq, Repr

/-! ## Reset values -/

/-- The group record of POR (R20). -/
def GroupRec.por : GroupRec :=
  { aspect := .dark, target := .dark, inAspect := 0, inAspectFresh := false, sinceGreen := 65535, sinceGreenFresh := false,
    inhibited := false, greenRun := 0, quiet := 0, seen := false, raised := false }

/-- The FIU entry of POR (R16). -/
def fiuPor : FiuEntry := { present := 0, typeCode := 0, order := 0 }

/-- The group entry of POR (R16). -/
def groupPor : GroupEntry :=
  { type := 0, amber := 30, redAmber := 0, clearance := 30, pattern := 1, safetyMin := 40, minRed := 0, redSets := 1 }

/-- The circuit entry of POR (R16). -/
def circuitPor : CircuitEntry :=
  { group := 0, fiu := 1, terminal := 1, role := 0, redSet := 1, loadClass := 0, k := 1, proving := 1, cableTest := 1,
    bleed := 0 }

/-- The input map entry of POR (R48). -/
def inputPor : InputEntry :=
  { fiu := 0, input := 1, kind := 0, demand := 0, extend := 0, debounce := 1, stuckLimit := 0 }

/-- A default pattern: step 1 ON and step 2 OFF for `d` ds each, slots 3 to 8 ON for 1 ds (R91). -/
def patternPor (d : Nat) : PatternEntry :=
  { steps := 2
    slots := tab fun i => if i.val = 0 then ⟨1, d⟩ else if i.val = 1 then ⟨0, d⟩ else ⟨1, 1⟩ }

/-- The start-up record of POR (R76). -/
def startUpPor : StartUp :=
  { mains := 0, startFlash := 50, startRed := 60, provingLimit := 100, restart := 10, silence := 100, pattern := 0,
    fallback := 1 }

/-- The plan step of POR (R44). -/
def planStepPor : PlanStep :=
  { stage := 1, minGreen := 40, maxGreen := 40, unitExt := 0, demandDep := false, recalled := false, holdFlag := false,
    forceOff := 0 }

/-- The plan of POR (R44). -/
def planPor : Plan :=
  { cycle := 0, offset := 0, steps := 0, entries := Vector.replicate 16 planStepPor, state := .empty, errors := [] }

/-- The schedule entry of POR (R102): an empty day set, 00:00, DIM_OFF. -/
def schedPor : SchedEntry := { days := 0, hours := 0, minutes := 0, action := 4, plan := 0 }

/-- The default reactions (R160). -/
def reactionPor : Vector Reaction 21 :=
  #v[.alarm, .alarm, .record, .alarm, .flash, .dark, .flash, .alarm, .alarm, .alarm, .alarm, .flash, .flash, .inhibit,
    .alarm, .record, .alarm, .alarm, .flash, .alarm, .alarm]

/-- The proving parameters of POR (R124). -/
def provingPor : ProvingParams :=
  { tLo := 150, tHi := 200, failConfirm := 10, recoverConfirm := 25, presence := 32, spread := 40 }

/-- The cable parameters of POR (R145). -/
def cableParamsPor : CableParams :=
  { openThreshold := 200, lowThreshold := 20, testInterval := 600, testConfirm := 3, vFix := 40, ratio := 250, mode := 2,
    offCurrent := 16, crossConfirm := 3, retryDelay := 20, maxRetries := 3, tripClear := 50, leakThreshold := 100,
    leakConfirm := 10, leakClear := 50, greenConfirm := 2, missLimit := 3 }

/-- The reference part of POR: no reference (R129). -/
def refPor : RefPart := { held := 0, iref := 0, vref := 0 }

/-- The tables of POR. -/
def tablesPor : Tables :=
  { fiu := Vector.replicate 12 fiuPor
    group := Vector.replicate 32 groupPor
    circuit := Vector.replicate 96 circuitPor
    matrix := Vector.replicate 32 (Vector.replicate 32 none)
    stage := Vector.replicate 16 0
    input := Vector.replicate 64 inputPor
    pattern := #v[patternPor 5, patternPor 4, patternPor 3, patternPor 3]
    startUp := startUpPor
    plan := Vector.replicate 8 planPor
    schedDefault := 0
    sched := Vector.replicate 48 schedPor
    reaction := reactionPor
    proving := provingPor
    cable := cableParamsPor
    reference := Vector.replicate 96 ⟨refPor, refPor⟩ }

/-- The junction flash run of POR (R92): pattern 0 of the default start-up record, at step 1 with time 0. POR is no pulse, so the run starts between
pulses and is marked fresh (DEDUCED, unsafe; log entry 4). -/
def runPor : Run := { pattern := 0, step := 0, time := 0, fresh := true }

/-- The engine record as entering IDLE leaves it (R72), with governing plan 1 (R73). -/
def enginePor : Engine :=
  { running := none, pendingPlan := none, governing := 0, cur := 0, sub := .idle, served := 0, gaining := 0,
    minElapsed := 0, ext := 0, maxElapsed := none, passed := 0, lastReading := 0, dwell := false, resync := false,
    hold := none, cycleReached := false, stepReq := none, orderly := false, losing := 0, gained := false,
    stageOn := false, returned := false, bigStep := false, backStep := false, rollover := false, invalidRaised := 0 }

/-- The input record of POR (R49, R50). -/
def inputRecPor : InputRec := { active := false, disagree := 0, activeTime := 0, stuck := false }

/-- The mode record of POR (R74). -/
def modePor : ModeRec :=
  { mode := .dark, reason := .reset, started := false, departure := none, timer := 0, timerFresh := false,
    provingTimeout := false, schedMode := .plan, silence := 0, silenceFresh := false, silent := false }

/-- The mains supervisor of POR (R106): a gap in progress, begun at the end of POR. -/
def mainsPor : Mains :=
  { outOfBand := 0, inBand := 0, freqRaised := false, interRaised := false, gap := true, timebase := .substitute,
    subPhase := 0, windowCount := 0, sinceGap := none, lastEdge := 0, lastWindow := none }

/-- The clock of POR (R106). -/
def clockPor : Clock :=
  { weekday := 0, ms := 0, day := 0, unset := true, preferred := .mains, trim := 0, acc := 0, phase60 := 0 }

/-- The schedule results of POR (R106). -/
def schedRecPor : SchedRec :=
  { mode := .plan, plan := 0, dim := .bright, planOverride := none, dimOverride := none, effPlan := 0, effDim := .bright }

/-- The unit record of POR (R107). -/
def unitPor : UnitRec :=
  { state := .unused, typeCode := none, serial := none, miss := 0, hotRun := 0, hotQuiet := 0, dim := .bright,
    lostRaised := false, mismatchRaised := false, hotRaised := false, dimRaised := false, log := [] }

/-- No round in progress. -/
def roundNone : Round :=
  { active := false, poll := [], awaiting := none, isRoll := false, roll := [], called := none, finished := true }

/-- The field bus controller of POR (R108, R122). -/
def busPor : Bus :=
  { units := Vector.replicate 12 unitPor, seq := 0, sinceRoll := 0, round := roundNone, slot := .empty, forward := 0,
    queue := [], dropped := 0, windowInGap := true, lastInGap := true, sent := [] }

/-- The proving record of POR (R125). -/
def provPor : ProvRec := { verdict := .unknown, cand := none, run := 0, onRun := 0, last := none, fault := none }

/-- The learn record of POR. R138 gives tap state BRIGHT, N_min 8 and N_max 8 at POR; R140 also counts POR among the aborts, which keep the
three. The model follows R138 (DEDUCED, unsafe; log entry 43). -/
def learnPor : LearnRec :=
  { state := .idle, fail := none, tap := .bright, nMin := 8, nMax := 8, count := 0, ring := [], result := none }

/-- The lamp proving unit of POR (R144). -/
def provingUnitPor : Proving :=
  { circuits := Vector.replicate 96 provPor, learn := Vector.replicate 96 learnPor, lastWin := Vector.replicate 12 none,
    red := Vector.replicate 32 .unknown }

/-- The cable record of POR (R146). -/
def cableRecPor : CableRec :=
  { sinceTest := 65535, inFlight := none, lastTest := none, cand := none, mrun := 0, litRun := 0, quiet := 0,
    retry := .normal, retryTimer := 0, retryFresh := false, trips := 0, cleanOn := 0, openRaised := false,
    shortRaised := false, crossRaised := false, ovcRaised := false }

/-- The leakage record of POR (R146). -/
def leakPor : LeakRec := { run := 0, quiet := 0, suspects := [], raised := false }

/-- The cable supervision unit of POR (R158). -/
def cablePor : Cable := { circuits := Vector.replicate 96 cableRecPor, leak := Vector.replicate 12 leakPor }

/-- The fault collector of POR (R168). -/
def collPor : Collector :=
  { slots := Vector.replicate 64 none, overflow := none, inhibitDemand := 0, demandStands := false, demanded := .none, alarm := false }

/-- The junction summary of POR (R171). -/
def summaryPor : Summary :=
  { mode := .dark, reason := .reset, running := none, stage := none, interstage := false, unack := 0, alarm := false,
    overflow := false, direct := false, dim := .allBright, learning := false, source := .crystal, unset := true }

/-- The port of POR with blank identity slots (R169 to R173, R177, R180): the ALERT of the end of POR (R172) has been taken by the free
transmitter (R173), so it is being sent and the slot is EMPTY. -/
def portPor : Port :=
  { receiver := .hunting, inService := none, replies := [], busy := false,
    alert := none, tx := some (.alert ⟨summaryPor, 0, List.replicate 8 0⟩), configOpen := true,
    identity := Vector.replicate 3 none, summary := summaryPor }

/-- The state after power-on reset of a part whose identity slots are blank and to which no command waits. -/
def State.reset : State :=
  { tables := tablesPor, map := none, groups := Vector.replicate 32 GroupRec.por, acting := 0,
    junctionRun := runPor, clearRuns := Vector.replicate 32 none, eng := enginePor,
    inputs := Vector.replicate 64 inputRecPor, latched := 0, jm := modePor, mains := mainsPor, clock := clockPor,
    sched := schedRecPor, bus := busPor, prov := provingUnitPor, cable := cablePor, coll := collPor, port := portPor,
    inPulse := false, moment := .between, pending := [] }

end Sys2Proof.Machine
end

