-- ==== Sys2Proof/Machine/Ops.lean ====
section
/-! DEFINITION. Ops: reading the tables by name and number, the codes of R181, the report orders of R7, and the record updates that the blocks share. -/

namespace Sys2Proof

/-! ## Arithmetic (section 3.1) -/

/-- Round half up of `a` divided by `b` (section 3.1). -/
def roundDiv (a b : Nat) : Nat := (a + b / 2) / b

/-- A count advanced by 1 that stays at `cap` (section 3.1). -/
def bump (cap n : Nat) : Nat := min cap (n + 1)

/-- The value set to the nearer end of `lo` to `hi`. -/
def clampTo (lo hi n : Nat) : Nat := max lo (min hi n)

/-- The value lies in `lo` to `hi`. -/
def within (lo hi n : Nat) : Bool := decide (lo ≤ n) && decide (n ≤ hi)

/-! ## Codes (R181) -/

/-- Group type of a code (R1). -/
def GroupType.ofCode : Nat → Option GroupType
  | 0 => some .unused
  | 1 => some .vehicle
  | 2 => some .pedestrian
  | _ => none

/-- Role of a code (R3). -/
def Role.ofCode : Nat → Option Role
  | 0 => some .red
  | 1 => some .amber
  | 2 => some .green
  | _ => none

/-- Load class of a code (R3). -/
def LoadClass.ofCode : Nat → Option LoadClass
  | 0 => some .incandescent
  | 1 => some .ledLinear
  | 2 => some .ledCp
  | _ => none

/-- Report order of a code (R6). -/
def ReportOrder.ofCode : Nat → Option ReportOrder
  | 0 => some .direct
  | 1 => some .pairSwapped
  | 2 => some .reversed
  | _ => none

/-- Input kind of a code (R48). -/
def InputKind.ofCode : Nat → Option InputKind
  | 0 => some .detector
  | 1 => some .pushButton
  | 2 => some .panelHold
  | _ => none

/-- Target of a code (R20). -/
def Target.ofCode : Nat → Option Target
  | 0 => some .go
  | 1 => some .stop
  | 2 => some .flash
  | 3 => some .dark
  | _ => none

/-- Reaction of a code (R160). -/
def Reaction.ofCode : Nat → Option Reaction
  | 0 => some .record
  | 1 => some .alarm
  | 2 => some .inhibit
  | 3 => some .flash
  | 4 => some .dark
  | _ => none

/-- Dim state of a code (R105, R183). -/
def Tap.ofCode : Nat → Option Tap
  | 0 => some .bright
  | 1 => some .dim
  | _ => none

/-- Clock source of a code (R98). -/
def Source.ofCode : Nat → Option Source
  | 0 => some .mains
  | 1 => some .crystal
  | _ => none

/-- Hold mode of a code (R68). -/
def HoldMode.ofCode : Nat → Option HoldMode
  | 0 => some .stage
  | 1 => some .cycle
  | _ => none

/-- Threshold mode of a code (R145). -/
def ThresholdMode.ofCode : Nat → Option ThresholdMode
  | 0 => some .fixed
  | 1 => some .ratio
  | 2 => some .both
  | _ => none

/-- Severity of a reaction (R160). -/
def Reaction.severity : Reaction → Nat
  | .record => 0
  | .alarm => 1
  | .inhibit => 2
  | .flash => 3
  | .dark => 4

/-- All fault kinds in their numbered order (R160). -/
def Kind.all : List Kind :=
  [.lampOut, .lampPartial, .lampLow, .lampHigh, .redLost, .unexpectedGreen, .crossFeed, .cableOpen, .cableShort,
    .overcurrent, .earthLeakage, .fiuLost, .fiuMismatch, .fiuOvertemp, .mainsFrequency, .mainsInterruption,
    .detectorStuck, .planInvalid, .startProvingTimeout, .controllerSilent, .dimUnlearned]

/-- Index of a kind, its number less 1 (R160). -/
def Kind.index : Kind → Fin 21
  | .lampOut => 0
  | .lampPartial => 1
  | .lampLow => 2
  | .lampHigh => 3
  | .redLost => 4
  | .unexpectedGreen => 5
  | .crossFeed => 6
  | .cableOpen => 7
  | .cableShort => 8
  | .overcurrent => 9
  | .earthLeakage => 10
  | .fiuLost => 11
  | .fiuMismatch => 12
  | .fiuOvertemp => 13
  | .mainsFrequency => 14
  | .mainsInterruption => 15
  | .detectorStuck => 16
  | .planInvalid => 17
  | .startProvingTimeout => 18
  | .controllerSilent => 19
  | .dimUnlearned => 20

/-- The kind of a number 1 to 21 (R160). -/
def Kind.ofNumber (n : Nat) : Option Kind := if n = 0 then none else Kind.all[n - 1]?

/-- What the subject of a kind is (R160). -/
inductive SubjectType where
  | circuit | group | unit | input | plan | nothing
deriving DecidableEq, Repr

/-- Subject type of a kind (R160). -/
def Kind.subjectType : Kind → SubjectType
  | .lampOut | .lampPartial | .lampLow | .lampHigh | .crossFeed | .cableOpen | .cableShort | .overcurrent => .circuit
  | .redLost | .unexpectedGreen => .group
  | .earthLeakage | .fiuLost | .fiuMismatch | .fiuOvertemp | .dimUnlearned => .unit
  | .detectorStuck => .input
  | .planInvalid => .plan
  | .mainsFrequency | .mainsInterruption | .startProvingTimeout | .controllerSilent => .nothing

/-- Whether the kind is latching (R160). -/
def Kind.latching : Kind → Bool
  | .unexpectedGreen | .crossFeed | .overcurrent | .startProvingTimeout => true
  | .lampOut | .lampPartial | .lampLow | .lampHigh | .redLost | .cableOpen | .cableShort | .earthLeakage | .fiuLost
  | .fiuMismatch | .fiuOvertemp | .mainsFrequency | .mainsInterruption | .detectorStuck | .planInvalid
  | .controllerSilent | .dimUnlearned => false

/-- Floor of a kind's reaction (R160). -/
def Kind.floor : Kind → Reaction
  | .unexpectedGreen => .dark
  | .redLost | .crossFeed | .overcurrent | .fiuOvertemp | .startProvingTimeout => .alarm
  | .fiuLost | .fiuMismatch => .inhibit
  | .lampOut | .lampPartial | .lampLow | .lampHigh | .cableOpen | .cableShort | .earthLeakage | .mainsFrequency
  | .mainsInterruption | .detectorStuck | .planInvalid | .controllerSilent | .dimUnlearned => .record

/-- The subject lies in the range of the kind's subject type (R159, R164). -/
def subjectOk (k : Kind) (n : Nat) : Bool :=
  match k.subjectType with
  | .circuit => within 1 96 n
  | .group => within 1 32 n
  | .unit => within 1 12 n
  | .input => within 1 64 n
  | .plan => within 1 8 n
  | .nothing => decide (n = 0)

/-- Severity of a junction mode: DARK most, FLASH next, the others equal (R74). -/
def Mode.severity : Mode → Nat
  | .dark => 2
  | .flash => 1
  | .startFlash | .startRed | .plan | .directDrive => 0

/-- Severity of a demanded mode on the same scale (R88). -/
def Demanded.severity : Demanded → Nat
  | .dark => 2
  | .flash => 1
  | .none => 0

/-! ## Fields of received frames and entries (R102, R181, R183) -/

/-- The tap state a SENSE frame reports (R183); for a byte that is no tap's code it is the free value of Config (log entry 45). -/
def SenseFrame.tap (f : SenseFrame) : Tap :=
  if f.tapByte = 0 then .bright else if f.tapByte = 1 then .dim
  else if Config.strayTapDim f.tapByte.toNat then .dim else .bright

/-- The weekdays of a schedule entry's day set (R102, R181). -/
def SchedEntry.weekdays (e : SchedEntry) : BitVec 7 := e.days.setWidth 7

/-! ## Report order (R7) -/

/-- The terminal carried at position `p`, and equally the position of terminal `p`: each order undoes itself (R7). -/
def ReportOrder.pos (o : ReportOrder) (p : Fin 8) : Fin 8 :=
  match o with
  | .direct => p
  | .pairSwapped => ⟨if p.val % 2 = 0 then p.val + 1 else p.val - 1, by split <;> omega⟩
  | .reversed => ⟨7 - p.val, by omega⟩

/-- A mask by terminal put into positions, or the other way (R7). -/
def permute (o : ReportOrder) (m : BitVec 8) : BitVec 8 :=
  (idx 8).foldl (fun acc p => if mem m (o.pos p) then ins acc p else acc) 0

end Sys2Proof

namespace Sys2Proof.Machine

open Sys2Proof

/-! ## Reading the tables -/

/-- Type of a group (R1). -/
def groupType (s : State) (g : Fin 32) : GroupType :=
  (GroupType.ofCode s.tables.group[g].type).getD .unused

/-- The group is of type VEHICLE or PEDESTRIAN. -/
def live (s : State) (g : Fin 32) : Bool := groupType s g != .unused

/-- The groups of type VEHICLE or PEDESTRIAN as a set. -/
def liveSet (s : State) : GroupSet :=
  (idx 32).foldl (fun (acc : GroupSet) (g : Fin 32) => if live s g then ins acc g else acc) 0

/-- The group's type acts on the monitor, for the inhibit set and the observed-green counts (R20, R32, R37). A type written while configuration is
open acts from the next START (R41), so until then the types of the last START count. -/
def monitored (s : State) (g : Fin 32) : Bool := if s.port.configOpen then mem s.acting g else live s g

/-- IG(i,j), none for NONE (R18). -/
def ig (s : State) (i j : Fin 32) : Option Nat := s.tables.matrix[i][j]

/-- Groups i and j conflict (R18). -/
def conflicts (s : State) (i j : Fin 32) : Bool :=
  decide (i ≠ j) && live s i && live s j && (ig s i j).isSome

/-- The red-amber time that counts for a group: 0 unless it is a vehicle group (R29). -/
def redAmberTime (s : State) (g : Fin 32) : Nat :=
  if groupType s g = .vehicle then s.tables.group[g].redAmber else 0

/-- Report order of a unit (R7). -/
def reportOrder (s : State) (u : Fin 12) : ReportOrder :=
  (ReportOrder.ofCode s.tables.fiu[u].order).getD .direct

/-- The unit is marked present in the FIU table (R6): 1 is yes (R181; DEDUCED, unsafe; log entry 13). -/
def present (s : State) (u : Fin 12) : Bool := decide (s.tables.fiu[u].present = 1)

/-- The group a circuit entry names, if it names one (R3). -/
def groupOf (s : State) (c : Fin 96) : Option (Fin 32) := ofNum 32 s.tables.circuit[c].group

/-- The unit a circuit entry names (R3). -/
def unitOf (s : State) (c : Fin 96) : Option (Fin 12) := ofNum 12 s.tables.circuit[c].fiu

/-- The terminal a circuit entry names (R3). -/
def terminalOf (s : State) (c : Fin 96) : Option (Fin 8) := ofNum 8 s.tables.circuit[c].terminal

/-- The role of a circuit (R3). -/
def roleOf (s : State) (c : Fin 96) : Option Role := Role.ofCode s.tables.circuit[c].role

/-- The load class of a circuit (R3). -/
def loadClassOf (s : State) (c : Fin 96) : LoadClass := (LoadClass.ofCode s.tables.circuit[c].loadClass).getD .incandescent

/-- The circuit on a terminal in the circuit map, none for a spare terminal or with no map (R15). -/
def circuitAt (s : State) (u : Fin 12) (t : Fin 8) : Option (Fin 96) :=
  match s.map with
  | some m => m.terminal[u][t]
  | none => none

/-- The circuits of a unit with their terminals, in terminal order (R15). -/
def circuitsOf (s : State) (u : Fin 12) : List (Fin 8 × Fin 96) :=
  (idx 8).filterMap fun t => (circuitAt s u t).map fun c => (t, c)

/-- The circuit is in the circuit map (R15). -/
def inMap (s : State) (c : Fin 96) : Bool :=
  match unitOf s c, terminalOf s c with
  | some u, some t => decide (circuitAt s u t = some c)
  | _, _ => false

/-- The circuits in the map, ascending. -/
def mapped (s : State) : List (Fin 96) := if s.map.isSome then (idx 96).filter (inMap s) else []

/-- The groups of type VEHICLE or PEDESTRIAN, ascending. -/
def liveGroups (s : State) : List (Fin 32) := (idx 32).filter (live s)

/-- The groups with a circuit on unit `u` in the circuit map (R32, R165). -/
def groupsOnUnit (s : State) (u : Fin 12) : GroupSet :=
  (circuitsOf s u).foldl (fun acc tc => match groupOf s tc.2 with | some g => ins acc g | none => acc) 0

/-- The fallback plan of the start-up record (R76). -/
def fallback (s : State) : Fin 8 := (ofNum 8 s.tables.startUp.fallback).getD 0

/-- Mains nominal is 60 Hz (R76). -/
def sixty (s : State) : Bool := decide (s.tables.startUp.mains = 1)

/-- The clock stamp of the moment (R98). -/
def stamp (s : State) : Stamp := ⟨s.clock.day, s.clock.ms⟩

/-- The effective source of the clock (R98). -/
def effSource (s : State) : Source :=
  if s.clock.preferred = .crystal ∨ s.mains.timebase = .substitute then .crystal else .mains

/-! ## The window sequence (R108) -/

/-- The number of the window after window `v`. -/
def nextWin (v : Nat) : Nat := (v + 1) % 255

/-- The number of the window before window `v`; H'FF has no neighbour. -/
def prevWin (v : Nat) : Option Nat := if v = 255 then none else some ((v + 254) % 255)

/-! ## Record updates -/

/-- Rewrites the record of a group. -/
def setGroup (s : State) (g : Fin 32) (f : GroupRec → GroupRec) : State := { s with groups := upd s.groups g f }

/-- Rewrites the record of a unit. -/
def setUnit (s : State) (u : Fin 12) (f : UnitRec → UnitRec) : State :=
  { s with bus := { s.bus with units := upd s.bus.units u f } }

/-- Rewrites the proving record of a circuit. -/
def setProv (s : State) (c : Fin 96) (f : ProvRec → ProvRec) : State :=
  { s with prov := { s.prov with circuits := upd s.prov.circuits c f } }

/-- Rewrites the learn record of a circuit. -/
def setLearn (s : State) (c : Fin 96) (f : LearnRec → LearnRec) : State :=
  { s with prov := { s.prov with learn := upd s.prov.learn c f } }

/-- Rewrites the cable record of a circuit. -/
def setCable (s : State) (c : Fin 96) (f : CableRec → CableRec) : State :=
  { s with cable := { s.cable with circuits := upd s.cable.circuits c f } }

/-- Rewrites the leakage record of a unit. -/
def setLeak (s : State) (u : Fin 12) (f : LeakRec → LeakRec) : State :=
  { s with cable := { s.cable with leak := upd s.cable.leak u f } }

/-- Rewrites the record of an input map entry. -/
def setInput (s : State) (e : Fin 64) (f : InputRec → InputRec) : State := { s with inputs := upd s.inputs e f }

/-- Rewrites the engine record. -/
def setEng (s : State) (f : Engine → Engine) : State := { s with eng := f s.eng }

/-- Rewrites the mode record. -/
def setMode (s : State) (f : ModeRec → ModeRec) : State := { s with jm := f s.jm }

/-- Rewrites the mains supervisor. -/
def setMains (s : State) (f : Mains → Mains) : State := { s with mains := f s.mains }

/-- Rewrites the field bus controller. -/
def setBus (s : State) (f : Bus → Bus) : State := { s with bus := f s.bus }

/-- Rewrites the fault collector. -/
def setColl (s : State) (f : Collector → Collector) : State := { s with coll := f s.coll }

/-- Rewrites the port. -/
def setPort (s : State) (f : Port → Port) : State := { s with port := f s.port }

/-- Rewrites the tables. -/
def setTables (s : State) (f : Tables → Tables) : State := { s with tables := f s.tables }

/-- Rewrites the clock. -/
def setClock (s : State) (f : Clock → Clock) : State := { s with clock := f s.clock }

/-! ## The event that stands (log entry 2) -/

/-- Something is taken that can change what falls due: no event stands any more. -/
def between (s : State) : State := { s with moment := .between }

/-- A decisecond pulse stands. -/
def pulseStands (s : State) : Bool :=
  match s.moment with
  | .pulse => true
  | .window pulsed => pulsed
  | .between | .frame _ _ => false

/-- A window start stands. -/
def windowStands (s : State) : Bool :=
  match s.moment with
  | .window _ => true
  | .between | .pulse | .frame _ _ => false

/-- The frame of a unit stands. -/
def frameStands (s : State) (u : Option (Fin 12)) : Bool :=
  match s.moment with
  | .frame v _ => decide (u = some v)
  | .between | .pulse | .window _ => false

/-- A frame stands that has done a work on the circuit. -/
def frameWorked (s : State) (work : FrameWork → List (Fin 96)) (c : Fin 96) : Bool :=
  match s.moment with
  | .frame _ w => (work w).contains c
  | .between | .pulse | .window _ => false

/-- The forced-off set of cable supervision: RETRY_WAIT and LATCHED (R146). -/
def forcedOff (s : State) (c : Fin 96) : Bool := decide (s.cable.circuits[c].retry ≠ .normal)

/-- A circuit has an active cable record: CABLE_OPEN, CABLE_SHORT or OVERCURRENT held raised (R141). -/
def cableActive (s : State) (c : Fin 96) : Bool :=
  let r := s.cable.circuits[c]
  r.openRaised || r.shortRaised || r.ovcRaised

/-- The composition log record of unit `u` for window `v`, if the log holds one (R114). -/
def logOf (s : State) (u : Fin 12) (v : Nat) : Option WinRec :=
  s.bus.units[u].log.find? fun r => decide (r.window = v)

/-- The field bus runs (R108). -/
def busRuns (s : State) : Bool := s.jm.started

end Sys2Proof.Machine
end

