-- ==== Sys2Proof/Machine/Flags.lean ====
section
/-! DEFINITION. Flags: values formed from the rest of the state: reactions in force, the demanded mode, the inhibit demand, the ALARM line and
the junction summary (R165 to R167, R171). -/

namespace Sys2Proof.Machine

open Sys2Proof

/-- The record is ACTIVE (R159). -/
def FaultRec.isActive (r : FaultRec) : Bool := decide (r.state ≠ .clearedUnack)

/-- The record is unacknowledged (R159). -/
def FaultRec.isUnack (r : FaultRec) : Bool := decide (r.state ≠ .activeAck)

/-- The record's reaction is in force (R165). -/
def FaultRec.inForce (r : FaultRec) : Bool := r.isActive || r.kind.latching

/-- The records held, in slot order. -/
def records (s : State) : List FaultRec := s.coll.slots.toList.filterMap id

/-- The reaction a record of kind `k` carries (R165): an INHIBIT whose subject names no group is applied as ALARM. -/
def reactionFor (s : State) (k : Kind) : Reaction :=
  let r := s.tables.reaction[k.index]
  if r = .inhibit ∧ (k.subjectType = .nothing ∨ k.subjectType = .input ∨ k.subjectType = .plan) then .alarm else r

/-- The demanded mode as the table and the overflow latch give it (R166). -/
def demandedNow (s : State) : Demanded :=
  if (records s).any (fun r => r.inForce && decide (r.reaction = .dark)) || decide (s.coll.overflow = some .dark) then .dark
  else if (records s).any (fun r => r.inForce && decide (r.reaction = .flash)) || decide (s.coll.overflow = some .flash)
    then .flash
  else .none

/-- The groups an INHIBIT in force applies to, by the record's subject (R165). Without a circuit map a record of a circuit or a unit applies to
no group. -/
def inhibitedBy (s : State) (r : FaultRec) : GroupSet :=
  match r.kind.subjectType with
  | .circuit =>
    match ofNum 96 r.subject with
    | some c => if inMap s c then (match groupOf s c with | some g => ins 0 g | none => 0) else 0
    | none => 0
  | .unit => match ofNum 12 r.subject with | some u => groupsOnUnit s u | none => 0
  | .group => match ofNum 32 r.subject with | some g => ins 0 g | none => 0
  | .input | .plan | .nothing => 0

/-- The inhibit demand (R166): the groups to which the INHIBIT reactions in force apply (R165). -/
def inhibitDemandNow (s : State) : GroupSet :=
  ((records s).filter fun r => r.inForce && decide (r.reaction = .inhibit)).foldl (fun acc r => acc ||| inhibitedBy s r) 0

/-- The count of unacknowledged records (R167). -/
def unackCount (s : State) : Nat := (records s).countP FaultRec.isUnack

/-- The ALARM line (R167). -/
def alarmNow (s : State) : Bool :=
  (records s).any (fun r => decide (1 ≤ r.reaction.severity)) ||
  (match s.coll.overflow with | some r => decide (1 ≤ r.severity) | none => false)

/-- Group `j` is in the green-inhibit set (R32). -/
def inhibitedNow (s : State) (j : Fin 32) : Bool :=
  monitored s j &&
  (mem s.coll.inhibitDemand j ||
    ((decide (s.jm.mode = .plan) || decide (s.jm.mode = .directDrive)) &&
      (idx 32).any fun i =>
        live s i && (decide (s.prov.red[i] = .lost) || decide (s.prov.red[i] = .unknown)) && conflicts s i j))

/-- The applied-dim summary over the ADMITTED units (R115, R171), ALL_BRIGHT with none ADMITTED (DEDUCED, unsafe; log entry 71). -/
def dimSummary (s : State) : DimSummary :=
  let us := s.bus.units.toList.filter fun u => decide (u.state = .admitted)
  if us.all fun u => decide (u.dim = .bright) then .allBright
  else if us.all fun u => decide (u.dim = .dim) then .allDim
  else .mixed

/-- One or more learn records are LEARNING (R137). -/
def learningNow (s : State) : Bool := s.prov.learn.toList.any fun l => decide (l.state = .learning)

/-- The step entry of the running plan with zero-based index `k`. -/
def stepOf (s : State) (p : Fin 8) (k : Fin 16) : PlanStep := s.tables.plan[p].entries[k]

/-- The junction summary (R171). -/
def summaryNow (s : State) : Summary :=
  { mode := s.jm.mode
    reason := s.jm.reason
    running := s.eng.running
    stage := s.eng.running.map fun p => (stepOf s p s.eng.cur).stage
    interstage := decide (s.eng.sub = .interstage)
    unack := unackCount s
    alarm := s.coll.alarm
    overflow := s.coll.overflow.isSome
    direct := decide (s.jm.mode = .directDrive)
    dim := dimSummary s
    learning := learningNow s
    source := effSource s
    unset := s.clock.unset }

/-- The number of the effective identity slot, 0 when every slot is blank (R180). -/
def effSlot (s : State) : Nat :=
  if s.port.identity[2].isSome then 3 else if s.port.identity[1].isSome then 2
  else if s.port.identity[0].isSome then 1 else 0

/-- The effective identity, eight zero bytes when blank (R180, R182). -/
def effIdentity (s : State) : List Byte :=
  match s.port.identity[2], s.port.identity[1], s.port.identity[0] with
  | some i, _, _ => i
  | none, some i, _ => i
  | none, none, some i => i
  | none, none, none => List.replicate 8 0

end Sys2Proof.Machine
end

