-- ==== Sys2Proof/Machine/Collector.lean ====
section
/-! DEFINITION. Collector: what a raise, a clear and an acknowledgement do to the fault table (R161 to R164). The hand-overs of R167 are made
in Machine/Settle.lean. -/

namespace Sys2Proof.Machine

open Sys2Proof

/-- The slot holding the record of a kind and subject (R159). -/
def findSlot (s : State) (k : Kind) (n : Nat) : Option (Fin 64) :=
  (idx 64).find? fun i =>
    match s.coll.slots[i] with
    | some r => decide (r.kind = k) && decide (r.subject = n)
    | none => false

/-- The lowest-numbered empty slot (R159). -/
def emptySlot (s : State) : Option (Fin 64) := (idx 64).find? fun i => s.coll.slots[i].isNone

/-- The stamp `a` is older than the stamp `b`: day counter first, ms of day second (R162). -/
def Stamp.older (a b : Stamp) : Bool := decide (a.day < b.day) || (decide (a.day = b.day) && decide (a.ms < b.ms))

/-- The slot of the record to evict (R162): of the CLEARED_UNACK records of auto-recovering kinds the one with the oldest
last-change stamp, and of two equal stamps the lower-numbered slot. -/
def evictSlot (s : State) : Option (Fin 64) :=
  ((idx 64).foldl (init := (none : Option (Fin 64 × Stamp))) fun best i =>
    match s.coll.slots[i] with
    | some r =>
      if decide (r.state = .clearedUnack) && !r.kind.latching then
        match best with
        | none => some (i, r.last)
        | some b => if r.last.older b.2 then some (i, r.last) else best
      else best
    | none => best).map Prod.fst

/-- Writes a slot of the fault table. With the table changed, the inhibit demand no longer stands as CONFIG_OPEN left it (R167). -/
def setSlot (s : State) (i : Fin 64) (r : Option FaultRec) : State :=
  setColl s fun c => { c with slots := put c.slots i r, demandStands := false }

/-- The record a raise creates (R161). -/
def newRecord (s : State) (k : Kind) (n : Nat) (d : Detail) : FaultRec :=
  { kind := k, subject := n, state := .activeUnack, first := stamp s, last := stamp s, count := 1,
    reaction := reactionFor s k, detail := d }

/-- The more severe of the overflow latch and a reaction (R162). -/
def raiseLatch (o : Option Reaction) (r : Reaction) : Option Reaction :=
  match o with
  | none => some r
  | some a => if a.severity < r.severity then some r else some a

/-- A raise taken by the collector (R161, R162), before the hand-overs. They are made once, after an eviction and the new record, and not between
the two (DESIGN CHOICE, unsafe; log entry 48). A raise that is not recorded ends the standing inhibit demand also where it leaves the overflow latch
as it was (DESIGN CHOICE, unsafe; log entry 33). -/
def takeRaise (s : State) (k : Kind) (n : Nat) (d : Detail) : State :=
  match findSlot s k n with
  | some i =>
    match s.coll.slots[i] with
    | some r =>
      if r.state = .clearedUnack then
        setSlot s i (some { r with state := .activeUnack, count := bump 255 r.count, last := stamp s, detail := d })
      else setSlot s i (some { r with last := stamp s })
    | none => s
  | none =>
    match emptySlot s with
    | some i => setSlot s i (some (newRecord s k n d))
    | none =>
      match evictSlot s with
      | some i => setSlot s i (some (newRecord s k n d))
      | none => setColl s fun c => { c with overflow := raiseLatch c.overflow (reactionFor s k), demandStands := false }

/-- A clear taken by the collector (R163), before the hand-overs. -/
def takeClear (s : State) (k : Kind) (n : Nat) : State :=
  match findSlot s k n with
  | some i =>
    match s.coll.slots[i] with
    | some r =>
      match r.state with
      | .activeUnack => setSlot s i (some { r with state := .clearedUnack, last := stamp s })
      | .activeAck => setSlot s i none
      | .clearedUnack => s
    | none => s
  | none => s

/-- An acknowledgement of the record in a slot (R164). -/
def ackSlot (s : State) (i : Fin 64) : State :=
  match s.coll.slots[i] with
  | some r =>
    match r.state with
    | .activeUnack => setSlot s i (some { r with state := .activeAck, last := stamp s })
    | .clearedUnack => setSlot s i none
    | .activeAck => s
  | none => s

/-- The reactions applied formed again for every record of the kinds written (R165). -/
def reformReactions (s : State) (written : List (Fin 21)) : State :=
  setColl s fun c =>
    { c with
      slots := tab fun i =>
        c.slots[i].map fun r => if written.contains r.kind.index then { r with reaction := reactionFor s r.kind } else r
      demandStands := false }

end Sys2Proof.Machine
end

