-- ==== Sys2Proof/Machine/Monitor.lean ====
section
/-! DEFINITION. Monitor: flash runs (R91, R92), changes of aspect, targets, timed ends, releases and the observed-green counts (R20 to R41). -/

namespace Sys2Proof.Machine

open Sys2Proof

/-! ## Flash runs (R91, R92) -/

/-- A run of pattern `p` started now at step 1: marked fresh unless a pulse is being taken (R92). -/
def newRun (s : State) (p : Nat) : Run := { pattern := p, step := 0, time := 0, fresh := !s.inPulse }

/-- The pattern table entry of pattern `p` (R91). -/
def patternAt (s : State) (p : Nat) : PatternEntry := (s.tables.pattern.toList[p]?).getD (patternPor 5)

/-- The slot of a run's current step (R91). -/
def runSlot (s : State) (r : Run) : PatternSlot := ((patternAt s r.pattern).slots.toList[r.step]?).getD ⟨1, 1⟩

/-- The run is in an ON step (R9): a level of 1 is ON (R91, R181; DEDUCED, unsafe; log entry 13). -/
def runOn (s : State) (r : Run) : Bool := decide ((runSlot s r).level = 1)

/-- The run's time in step has reached the duration of its step (R92). -/
def stepDue (s : State) (r : Run) : Bool := decide ((runSlot s r).duration ≤ r.time)

/-- The run at its next step, from the last step to step 1 (R92). -/
def nextStep (s : State) (r : Run) : Run :=
  { r with step := if r.step + 1 < (patternAt s r.pattern).steps then r.step + 1 else 0, time := 0 }

/-- What a pulse does to a run (R92): a fresh run loses its mark, another advances and steps when its step has run. -/
def advanceRun (s : State) (r : Run) : Run :=
  if r.fresh then { r with fresh := false }
  else
    let r' := { r with time := bump 50 r.time }
    if stepDue s r' then nextStep s r' else r'

/-- Every run advanced by one pulse (R92). -/
def advanceRuns (s : State) : State :=
  { s with
    junctionRun := advanceRun s s.junctionRun
    clearRuns := tab fun g => s.clearRuns[g].map (advanceRun s) }

/-- The junction flash run restarted at step 1 in the junction flash pattern (R92). -/
def restartJunctionRun (s : State) : State := { s with junctionRun := newRun s s.tables.startUp.pattern }

/-! ## Changes of aspect (R21, R31) -/

/-- The group enters an aspect (R21, R26, R31). In the aspect already, it stays and its time goes on counting. A group that leaves GREEN
restarts its time since GREEN ended; a group that enters GREEN holds it at 0. The clearance run starts with
GREEN_FLASH and ends with it. -/
def setAspect (s : State) (g : Fin 32) (a : Aspect) : State :=
  let r := s.groups[g]
  if r.aspect = a then s
  else
    let r' : GroupRec :=
      { r with
        aspect := a, inAspect := 0, inAspectFresh := !s.inPulse
        sinceGreen := if r.aspect = .green ∨ a = .green then 0 else r.sinceGreen
        sinceGreenFresh := if r.aspect = .green then !s.inPulse else if a = .green then false else r.sinceGreenFresh }
    { s with
      groups := put s.groups g r'
      clearRuns :=
        if a = .greenFlash then put s.clearRuns g (some (newRun s s.tables.group[g].pattern))
        else if r.aspect = .greenFlash then put s.clearRuns g none
        else s.clearRuns }

/-- The aspect a group given FLASH enters (R26). -/
def flashAspect (s : State) (g : Fin 32) : Aspect :=
  if groupType s g = .vehicle then .flashAmber else .dark

/-- The clearance aspect of a group (R27). -/
def clearanceAspect (s : State) (g : Fin 32) : Aspect :=
  if groupType s g = .vehicle then .amber else .greenFlash

/-- A target reaches the monitor for a group (R23 to R26). -/
def handTarget (s : State) (g : Fin 32) (t : Target) : State :=
  if live s g then
    let s1 := setGroup s g fun r => { r with target := t }
    match t with
    | .go | .stop =>
      match s.groups[g].aspect with
      | .flashAmber | .dark => setAspect s1 g .red
      | .red | .redAmber | .green | .amber | .greenFlash => s1
    | .flash => setAspect s1 g (flashAspect s g)
    | .dark => setAspect s1 g .dark
  else s

/-- The same target handed to each group of a list, in its order (R23). -/
def handTargets (s : State) (gs : List (Fin 32)) (t : Target) : State := gs.foldl (fun s g => handTarget s g t) s

/-- The same target handed to every group of type VEHICLE or PEDESTRIAN, ascending (R75). -/
def handAll (s : State) (t : Target) : State := handTargets s (liveGroups s) t

/-! ## Timed ends (R22, R27, R28) -/

/-- A GREEN group whose target is STOP has run its safety minimum green (R27). -/
def clearanceStartDue (s : State) (g : Fin 32) : Bool :=
  live s g && decide (s.groups[g].aspect = .green) && decide (s.groups[g].target = .stop) &&
    decide (s.tables.group[g].safetyMin ≤ s.groups[g].inAspect)

/-- An AMBER group has run its amber time (R27). -/
def amberEndDue (s : State) (g : Fin 32) : Bool :=
  live s g && decide (s.groups[g].aspect = .amber) && decide (s.tables.group[g].amber ≤ s.groups[g].inAspect)

/-- A GREEN_FLASH group has run its clearance time (R27). -/
def clearanceEndDue (s : State) (g : Fin 32) : Bool :=
  live s g && decide (s.groups[g].aspect = .greenFlash) && decide (s.tables.group[g].clearance ≤ s.groups[g].inAspect)

/-- A RED_AMBER group has run its red-amber time (R28). -/
def redAmberEndDue (s : State) (g : Fin 32) : Bool :=
  live s g && decide (s.groups[g].aspect = .redAmber) && decide (s.tables.group[g].redAmber ≤ s.groups[g].inAspect)

/-- Takes the end of a held GREEN when it is due (R27). -/
def takeClearanceStart (s : State) (g : Fin 32) : State :=
  if clearanceStartDue s g then setAspect s g (clearanceAspect s g) else s

/-- Takes the end of AMBER when it is due (R27). -/
def takeAmberEnd (s : State) (g : Fin 32) : State := if amberEndDue s g then setAspect s g .red else s

/-- Takes the end of GREEN_FLASH when it is due (R27). -/
def takeClearanceEnd (s : State) (g : Fin 32) : State := if clearanceEndDue s g then setAspect s g .red else s

/-- Takes the end of RED_AMBER when it is due: GREEN, or RED in the inhibit set (R28). -/
def takeRedAmberEnd (s : State) (g : Fin 32) : State :=
  if redAmberEndDue s g then setAspect s g (if s.groups[g].inhibited then .red else .green) else s

/-- Takes the timed end of one group that has fallen due (R22). A group has one aspect, so at most one of the four is due. -/
def takeTimedEnd (s : State) (g : Fin 32) : State :=
  match s.groups[g].aspect with
  | .green => takeClearanceStart s g
  | .amber => takeAmberEnd s g
  | .greenFlash => takeClearanceEnd s g
  | .redAmber => takeRedAmberEnd s g
  | .dark | .red | .flashAmber => s

/-- Takes every timed end that has fallen due (R22). -/
def takeTimedEnds (s : State) : State := (idx 32).foldl takeTimedEnd s

/-! ## Timers (R21) -/

/-- What a pulse does to a group's timers (R21). -/
def advanceGroup (r : GroupRec) : GroupRec :=
  { r with
    inAspect := if r.inAspectFresh then r.inAspect else bump 65535 r.inAspect
    inAspectFresh := false
    sinceGreen := if r.aspect = .green then 0 else if r.sinceGreenFresh then r.sinceGreen else bump 65535 r.sinceGreen
    sinceGreenFresh := false }

/-- The timers of every group advanced by one pulse (R21, R22). -/
def advanceGroups (s : State) : State := { s with groups := tab fun g => advanceGroup s.groups[g] }

/-! ## Releases (R29, R30) -/

/-- GO is pending: the target is GO and the aspect RED, AMBER or GREEN_FLASH (R20). -/
def goPending (r : GroupRec) : Bool :=
  decide (r.target = .go) && (decide (r.aspect = .red) || decide (r.aspect = .amber) || decide (r.aspect = .greenFlash))

/-- The group is GREEN or RED_AMBER. -/
def going (r : GroupRec) : Bool := decide (r.aspect = .green) || decide (r.aspect = .redAmber)

/-- Group `i` does not hold group `j` back: it does not conflict, or it is neither GREEN nor RED_AMBER and its intergreen to
`j`, less `j`'s red-amber time, has run (R29). -/
def clearOf (s : State) (i j : Fin 32) : Bool :=
  !conflicts s i j ||
  (!going s.groups[i] &&
    match ig s i j with
    | some t => decide (t ≤ s.groups[i].sinceGreen + redAmberTime s j)
    | none => true)

/-- The release conditions of group `j` (R29). -/
def releasable (s : State) (j : Fin 32) : Bool :=
  live s j && decide (s.groups[j].target = .go) && decide (s.groups[j].aspect = .red) &&
    decide (s.tables.group[j].minRed ≤ s.groups[j].inAspect) && !s.groups[j].inhibited &&
    (idx 32).all fun i => clearOf s i j

/-- Judges one group for release: to RED_AMBER, or to GREEN where no red-amber time counts (R29). -/
def judgeRelease (s : State) (j : Fin 32) : State :=
  if releasable s j then setAspect s j (if redAmberTime s j = 0 then .green else .redAmber) else s

/-- Judges every group for release, ascending, a release taking effect before the next is judged (R30). -/
def judgeReleases (s : State) : State := (idx 32).foldl judgeRelease s

/-! ## Direct-drive conflict check (R34) -/

/-- Whether each group has a GO pending, as the conflict check carries it from entry to entry (R34). -/
def pendingSet (s : State) : GroupSet :=
  (idx 32).foldl (fun (acc : GroupSet) (g : Fin 32) => if goPending s.groups[g] then ins acc g else acc) 0

/-- The first GO entry refused by the conflict check, if any (R34). -/
def directConflict (s : State) : GroupSet → List (Fin 32 × Target) → Option (Fin 32)
  | _, [] => none
  | pend, (g, t) :: rest =>
    match t with
    | .go =>
      if (idx 32).any fun i => conflicts s i g && (going s.groups[i] || mem pend i) then some g
      else directConflict s (ins pend g) rest
    | .stop | .flash | .dark => directConflict s (del pend g) rest

/-! ## Observed green (R36 to R38) -/

/-- Takes up the seen mark of a group at a window start (R37, R38), before the raise and the clear are judged. -/
def countGreen (r : GroupRec) : GroupRec :=
  if r.seen then { r with greenRun := bump 255 r.greenRun, quiet := 0, seen := false }
  else { r with greenRun := 0, quiet := if r.raised then min 25 (r.quiet + 1) else r.quiet }

/-- UNEXPECTED_GREEN is to be raised for the group (R37). -/
def greenRaiseDue (s : State) (g : Fin 32) : Bool :=
  monitored s g && decide (s.tables.cable.greenConfirm ≤ s.groups[g].greenRun) && !s.groups[g].raised

/-- UNEXPECTED_GREEN is to be cleared for the group (R38). -/
def greenClearDue (s : State) (g : Fin 32) : Bool :=
  monitored s g && s.groups[g].raised && decide (25 ≤ s.groups[g].quiet)

/-- Marks an unexpected green observation for a group (R36). -/
def markSeen (s : State) (g : Fin 32) : State := setGroup s g fun r => { r with seen := true }

/-! ## Calling circuits (R8, R9) -/

/-- The aspect calls for the role (R8). -/
def aspectCalls (a : Aspect) (r : Role) : Bool :=
  match a, r with
  | .red, .red | .redAmber, .red | .redAmber, .amber | .green, .green | .amber, .amber | .flashAmber, .amber
  | .greenFlash, .green => true
  | _, _ => false

/-- The circuit is called for by its group's granted aspect (R8). -/
def called (s : State) (c : Fin 96) : Bool :=
  match groupOf s c, roleOf s c with
  | some g, some r => live s g && aspectCalls s.groups[g].aspect r
  | _, _ => false

/-- The gating run of the circuit's group is in an ON step; a steady aspect has none (R8, R9). -/
def gateOn (s : State) (c : Fin 96) : Bool :=
  match groupOf s c with
  | some g =>
    match s.groups[g].aspect with
    | .flashAmber => runOn s s.junctionRun
    | .greenFlash => (match s.clearRuns[g] with | some r => runOn s r | none => false)
    | .dark | .red | .redAmber | .green | .amber => true
  | none => false

/-- The circuit is composed lit (R9). -/
def composedLit (s : State) (c : Fin 96) : Bool := called s c && gateOn s c

end Sys2Proof.Machine
end

