-- ==== Sys2Proof/Machine/Structure.lean ====
section
/-! DEFINITION. Structure: structural validation at START (R10 to R14), the circuit map (R15), and plan validation (R45 to R47). -/

namespace Sys2Proof.Machine

open Sys2Proof

/-! ## Circuit checks (R11) -/

/-- The circuit entry is used: it names a group (R3). -/
def usedCircuit (s : State) (c : Fin 96) : Bool := (groupOf s c).isSome

/-- CIRCUIT_DUPLICATE_TERMINAL fails at the circuit (R11). -/
def dupTerminal (s : State) (c : Fin 96) : Bool :=
  usedCircuit s c && (idx 96).any fun d =>
    decide (d < c) && usedCircuit s d && decide (s.tables.circuit[d].fiu = s.tables.circuit[c].fiu) &&
      decide (s.tables.circuit[d].terminal = s.tables.circuit[c].terminal)

/-- CIRCUIT_BAD_ROLE fails at the circuit (R11). -/
def badRole (s : State) (c : Fin 96) : Bool :=
  match groupOf s c with
  | some g =>
    !live s g || (decide (roleOf s c = some .amber) && decide (groupType s g = .pedestrian)) ||
      (decide (roleOf s c = some .red) && decide (s.tables.group[g].redSets < s.tables.circuit[c].redSet))
  | none => false

/-- FIU_UNDEFINED fails at the circuit (R11). -/
def fiuUndefined (s : State) (c : Fin 96) : Bool :=
  usedCircuit s c && (match unitOf s c with | some u => !present s u | none => true)

/-! ## Group checks (R12) -/

/-- The circuits of a group in a role that pass CIRCUIT_BAD_ROLE, ascending (R12). -/
def roleCircuits (s : State) (g : Fin 32) (r : Role) : List (Fin 96) :=
  (idx 96).filter fun c => decide (groupOf s c = some g) && !badRole s c && decide (roleOf s c = some r)

/-- NO_GROUPS fails (R12). -/
def noGroups (s : State) : Bool := (liveGroups s).isEmpty

/-- GROUP_MISSING_ROLE fails at the group (R12). -/
def missingRole (s : State) (g : Fin 32) : Bool :=
  live s g &&
    ((roleCircuits s g .red).isEmpty || (roleCircuits s g .green).isEmpty ||
      (decide (groupType s g = .vehicle) && (roleCircuits s g .amber).isEmpty))

/-- ROLE_OVERFULL fails at the group (R12). -/
def roleOverfull (s : State) (g : Fin 32) : Bool :=
  live s g && [Role.red, .amber, .green].any fun r => decide (8 < (roleCircuits s g r).length)

/-- The circuits of one red set of a group, ascending (R5, R15); `k` is the set's zero-based number. -/
def redSetCircuits (s : State) (g : Fin 32) (k : Nat) : List (Fin 96) :=
  (roleCircuits s g .red).filter fun c => decide (s.tables.circuit[c].redSet = k + 1)

/-- RED_SET_EMPTY fails at the group (R12). -/
def redSetEmpty (s : State) (g : Fin 32) : Bool :=
  live s g && (List.range s.tables.group[g].redSets).any fun k => (redSetCircuits s g k).isEmpty

/-! ## Matrix checks (R13) -/

/-- The clearance of a group: amber time or clearance time (R13). -/
def clearanceTime (s : State) (g : Fin 32) : Nat :=
  if groupType s g = .vehicle then s.tables.group[g].amber else s.tables.group[g].clearance

/-- The pairs of groups of type VEHICLE or PEDESTRIAN, in ascending matrix index (R13). -/
def livePairs (s : State) : List (Fin 32 × Fin 32) := (liveGroups s).flatMap fun i => (liveGroups s).map fun j => (i, j)

/-- CONFLICT_SELF fails at the group (R13). -/
def conflictSelf (s : State) (g : Fin 32) : Bool := live s g && (ig s g g).isSome

/-- CONFLICT_ASYMMETRIC fails at the entry (R13). -/
def asymmetric (s : State) (p : Fin 32 × Fin 32) : Bool :=
  (ig s p.1 p.2).isSome != (ig s p.2 p.1).isSome

/-- IG_BELOW_CLEARANCE fails at the entry (R13). -/
def igBelow (s : State) (p : Fin 32 × Fin 32) : Bool :=
  decide (p.1 ≠ p.2) &&
    (match ig s p.1 p.2 with | some t => decide (t < clearanceTime s p.1) | none => false)

/-- The largest intergreen among the entries checked, 0 when there is none (R13). -/
def largestIg (s : State) : Nat := (livePairs s).foldl (fun m p => max m ((ig s p.1 p.2).getD 0)) 0

/-- START_RED_SHORT fails (R13). -/
def startRedShort (s : State) : Bool := decide (s.tables.startUp.startRed < largestIg s)

/-- Matrix index of a pair (R18). -/
def matrixIndex (p : Fin 32 × Fin 32) : Nat := 32 * p.1.val + p.2.val

/-! ## Stage and input checks (R14) -/

/-- STAGE_CONFLICT fails at the stage (R14). -/
def stageConflict (s : State) (k : Fin 16) : Bool :=
  (livePairs s).any fun p =>
    decide (p.1 ≠ p.2) && mem s.tables.stage[k] p.1 && mem s.tables.stage[k] p.2 && (ig s p.1 p.2).isSome

/-- The set names a stage whose green set is empty (R14). -/
def namesUndefined (s : State) (m : StageSet) : Bool :=
  (idx 16).any fun k => mem m k && decide (s.tables.stage[k] = 0)

/-- The unit of an input map entry in use, none for an entry not in use (R48). -/
def inputUnit (s : State) (e : Fin 64) : Option (Fin 12) := ofNum 12 s.tables.input[e].fiu

/-- INPUT_BAD_TARGET fails at the entry (R14). -/
def inputBadTarget (s : State) (e : Fin 64) : Bool :=
  match inputUnit s e with
  | some u => !present s u || namesUndefined s s.tables.input[e].demand || namesUndefined s s.tables.input[e].extend
  | none => false

/-! ## The structural error list (R10) -/

/-- The list entry of one check: its kind's number in the order of R10 and the index of the first failure. -/
def errAt (kind : Nat) (found : Option Nat) : List ErrEntry :=
  match found with
  | some i => [⟨0, kind, i⟩]
  | none => []

/-- The structural error list (R10). -/
def structuralErrors (s : State) : List ErrEntry :=
  errAt 1 (if noGroups s then some 0 else none) ++
  errAt 2 (((idx 96).find? (dupTerminal s)).map num) ++
  errAt 3 (((idx 96).find? (badRole s)).map num) ++
  errAt 4 (((idx 32).find? (missingRole s)).map num) ++
  errAt 5 (((idx 32).find? (roleOverfull s)).map num) ++
  errAt 6 (((idx 32).find? (redSetEmpty s)).map num) ++
  errAt 7 (((idx 96).find? (fiuUndefined s)).map num) ++
  errAt 8 (((idx 32).find? (conflictSelf s)).map num) ++
  errAt 9 (((livePairs s).find? (asymmetric s)).map matrixIndex) ++
  errAt 10 (((livePairs s).find? (igBelow s)).map matrixIndex) ++
  errAt 11 (((idx 16).find? (stageConflict s)).map num) ++
  errAt 12 (((idx 64).find? (inputBadTarget s)).map num) ++
  errAt 13 (if startRedShort s then some 0 else none)

/-! ## The circuit map (R15) -/

/-- The circuit map built from the circuit table (R15). -/
def buildMap (s : State) : CircuitMap :=
  { terminal := tab fun u => tab fun t =>
      (idx 96).find? fun c =>
        usedCircuit s c && decide (unitOf s c = some u) && decide (terminalOf s c = some t)
    groups := tab fun g =>
      { red := roleCircuits s g .red
        amber := roleCircuits s g .amber
        green := roleCircuits s g .green
        redSets := tab fun k => redSetCircuits s g k } }

/-! ## Plan validation (R45 to R47) -/

/-- The green set of a stage number; a number outside 1 to 16 has none (R42). -/
def greenSet (s : State) (st : Nat) : GroupSet :=
  match ofNum 16 st with
  | some k => s.tables.stage[k]
  | none => 0

/-- The groups of a stage of type VEHICLE or PEDESTRIAN, ascending (R42). -/
def stageGroups (s : State) (st : Nat) : List (Fin 32) := (idx 32).filter fun g => live s g && mem (greenSet s st) g

/-- The interstage time from stage `a` to stage `b` (R47). -/
def interstageTime (s : State) (a b : Nat) : Nat :=
  (livePairs s).foldl (init := 0) fun m p =>
    if mem (greenSet s a) p.1 && !mem (greenSet s b) p.1 && mem (greenSet s b) p.2 && !mem (greenSet s a) p.2 &&
      conflicts s p.1 p.2 then max m ((ig s p.1 p.2).getD 0) else m

/-- The steps of a plan, 1 up to its number of steps (R43). -/
def planSteps (p : Plan) : List PlanStep := p.entries.toList.take p.steps

/-- Each step with the step before it, the last before the first (R46). -/
def withPrev (l : List PlanStep) : List (PlanStep × PlanStep) :=
  (l.zip (l.getLast?.toList ++ l))

/-- Each step with the step after it, the first after the last (R47). -/
def withNext (l : List PlanStep) : List (PlanStep × PlanStep) :=
  (l.zip (l.tail ++ l.take 1))

/-- The step number, from 1, at which a check first fails. -/
def firstStep {α : Type} (l : List α) (f : α → Bool) : Option Nat := (l.findIdx? f).map (· + 1)

/-- The cycle time is in the range of a coordinated plan (R46). -/
def cycleInRange (c : Nat) : Bool := within 300 2400 c

/-- The sum of CYCLE_TOO_SHORT (R47). -/
def shortestCycle (s : State) (p : Plan) : Nat :=
  (withNext (planSteps p)).foldl (fun m ab => m + ab.1.minGreen + interstageTime s ab.1.stage ab.2.stage) 0

/-- The list entry of one plan check. -/
def planErrAt (e : PlanError) (found : Option Nat) : List (PlanError × Nat) :=
  match found with
  | some i => [(e, i)]
  | none => []

/-- The step names an undefined stage (R46). -/
def badStage (s : State) (st : PlanStep) : Bool := decide (greenSet s st.stage = 0)

/-- The step number of the second step carrying the hold flag, if there is one (R46). -/
def secondHold (l : List PlanStep) : Option Nat :=
  match (l.zipIdx.filter fun x => x.1.holdFlag) with
  | _ :: x :: _ => some (x.2 + 1)
  | _ => none

/-- The error list of a plan (R46). -/
def planErrors (s : State) (p : Plan) : List (PlanError × Nat) :=
  let l := planSteps p
  let coord := decide (0 < p.cycle)
  planErrAt .emptySequence (if p.steps = 0 then some 0 else none) ++
  planErrAt .cycleRange (if p.cycle ≠ 0 ∧ !cycleInRange p.cycle then some 0 else none) ++
  planErrAt .offsetRange (if coord ∧ p.cycle ≤ p.offset then some 0 else none) ++
  planErrAt .badStage (firstStep l (badStage s)) ++
  planErrAt .repeatStage
    (if 2 ≤ p.steps then firstStep (withPrev l) fun x => decide (x.1.stage = x.2.stage) else none) ++
  planErrAt .minGtMax (firstStep l fun x => decide (x.maxGreen < x.minGreen)) ++
  planErrAt .minBelowFloor
    (firstStep l fun x =>
      !badStage s x && (stageGroups s x.stage).any fun g => decide (x.minGreen < s.tables.group[g].safetyMin)) ++
  planErrAt .forceOrder
    (if coord then
      (((withPrev l).zipIdx.find? fun x =>
        (decide (1 ≤ x.2) && decide (x.1.1.forceOff ≤ x.1.2.forceOff)) || decide (p.cycle ≤ x.1.1.forceOff)).map
          fun x => x.2 + 1)
     else none) ++
  planErrAt .noHold (if coord ∧ !(l.any PlanStep.holdFlag) then some 0 else none) ++
  planErrAt .twoHold (if coord then secondHold l else none) ++
  planErrAt .cycleTooShort
    (if cycleInRange p.cycle ∧ !(l.any (badStage s)) ∧ p.cycle < shortestCycle s p then some 0 else none)

/-- Number of a plan error kind in the order of R46 (R182). -/
def PlanError.number : PlanError → Nat
  | .emptySequence => 1
  | .cycleRange => 2
  | .offsetRange => 3
  | .badStage => 4
  | .repeatStage => 5
  | .minGtMax => 6
  | .minBelowFloor => 7
  | .forceOrder => 8
  | .noHold => 9
  | .twoHold => 10
  | .cycleTooShort => 11

/-- A plan validated: VALID or INVALID with its list (R45). -/
def validated (s : State) (p : Plan) : Plan :=
  let es := planErrors s p
  { p with state := if es.isEmpty then .valid else .invalid, errors := es }

/-- Rewrites a plan. -/
def setPlan (s : State) (p : Fin 8) (f : Plan → Plan) : State := setTables s fun t => { t with plan := upd t.plan p f }

/-- The plan is VALID (R44). -/
def planValid (s : State) (p : Fin 8) : Bool := decide (s.tables.plan[p].state = .valid)

/-- The plan's in-use flag: it is the running or the pending plan (R44). -/
def inUse (s : State) (p : Fin 8) : Bool := decide (s.eng.running = some p) || decide (s.eng.pendingPlan = some p)

/-- Every plan that is not EMPTY validated, as START does (R45, R77). -/
def validateAll (s : State) : State :=
  setTables s fun t =>
    { t with plan := tab fun p => if t.plan[p].state = .empty then t.plan[p] else validated s t.plan[p] }

/-- The plan entries of START's reply: for each INVALID plan its first error, ascending (R77). -/
def planEntries (s : State) : List ErrEntry :=
  (idx 8).filterMap fun p =>
    let pl := s.tables.plan[p]
    if pl.state = .invalid then
      match pl.errors with
      | e :: _ => some ⟨num p, e.1.number, e.2⟩
      | [] => none
    else none

end Sys2Proof.Machine
end

