-- ==== Sys2Proof/Machine/Engine.lean ====
section
/-! DEFINITION. Engine: the inputs and demands (R48 to R53), and the plan engine: interstages, step timing, coordination, plan change, hold
and step (R54 to R73). -/

namespace Sys2Proof.Machine

open Sys2Proof

/-! ## The green-inhibit set (R32, R33) -/

/-- Brings the inhibit set up to date (R32). -/
def refreshInhibit (s : State) : State :=
  { s with groups := tab fun g => { s.groups[g] with inhibited := inhibitedNow s g } }

/-! ## Inputs and demands (R48 to R53) -/

/-- The entry is in use and of the kind (R48). -/
def inputIs (s : State) (e : Fin 64) (k : InputKind) : Bool :=
  (inputUnit s e).isSome && decide (InputKind.ofCode s.tables.input[e].kind = some k)

/-- The stage with zero-based index `st` has level demand (R53). -/
def levelDemand (s : State) (st : Fin 16) : Bool :=
  (idx 64).any fun e =>
    mem s.tables.input[e].demand st &&
      ((inputIs s e .detector && s.inputs[e].active) ||
        ((inputIs s e .detector || inputIs s e .pushButton) && s.inputs[e].stuck))

/-- The stage has demand (R53). -/
def hasDemand (s : State) (st : Fin 16) : Bool := mem s.latched st || levelDemand s st

/-- The stage is extended (R53). -/
def extended (s : State) (st : Fin 16) : Bool :=
  (idx 64).any fun e => inputIs s e .detector && s.inputs[e].active && mem s.tables.input[e].extend st

/-- A panel hold stands (R68). -/
def panelHold (s : State) : Bool := (idx 64).any fun e => inputIs s e .panelHold && s.inputs[e].active

/-- Some hold stands that applies to a current step (R68). -/
def holdStands (s : State) : Bool :=
  panelHold s || decide (s.eng.hold = some .stage) || (decide (s.eng.hold = some .cycle) && s.eng.cycleReached)

/-- A hold applies to the current step: it does so from the step's stage start (R68), so none applies in an INTERSTAGE, not even after a STEP
(R71; DESIGN CHOICE, unsafe; log entry 36). -/
def holdApplies (s : State) : Bool :=
  decide (s.eng.sub ≠ .idle) && decide (s.eng.sub ≠ .interstage) && holdStands s

/-- A running plan is coordinated: its cycle time is above 0 (section 3.2.1). -/
def coordinated (s : State) (p : Fin 8) : Bool := decide (0 < s.tables.plan[p].cycle)

/-- The engine runs a coordinated plan. -/
def runsCoordinated (s : State) : Bool := match s.eng.running with | some p => coordinated s p | none => false

/-- Sets resync when a hold that applied to the current step in `s` no longer applies in `s'` (R65, R69). A hold released during the INTERSTAGE
that follows a STEP applied to no step there and sets none (R68, R71; DESIGN CHOICE, unsafe; log entry 36). -/
def resyncIfReleased (s s' : State) : State :=
  if holdApplies s && !holdApplies s' && runsCoordinated s' then setEng s' fun e => { e with resync := true } else s'

/-- An input entry goes ACTIVE (R49, R51). -/
def inputOn (s : State) (e : Fin 64) : State :=
  let s1 := setInput s e fun r => { r with active := true, disagree := 0 }
  if inputIs s e .pushButton then { s1 with latched := s1.latched ||| s.tables.input[e].demand } else s1

/-- An input entry goes INACTIVE (R49, R50): its active time is cleared and a stuck entry stops being stuck. -/
def inputOff (s : State) (e : Fin 64) : State :=
  let s1 := setInput s e fun _ => inputRecPor
  let s2 := if s.inputs[e].stuck then takeClear s1 .detectorStuck (num e) else s1
  resyncIfReleased s s2

/-- The entry's disagreement count has reached its debounce (R49). -/
def inputChangeDue (s : State) (e : Fin 64) : Bool :=
  (inputUnit s e).isSome && decide (s.tables.input[e].debounce ≤ s.inputs[e].disagree)

/-- Takes a change of debounced state when it is due (R49). -/
def takeInputChange (s : State) (e : Fin 64) : State :=
  if inputChangeDue s e then (if s.inputs[e].active then inputOff s e else inputOn s e) else s

/-- A reading of an entry's input (R49). -/
def readInput (s : State) (e : Fin 64) (reading : Bool) : State :=
  if reading = s.inputs[e].active then setInput s e fun r => { r with disagree := 0 }
  else takeInputChange (setInput s e fun r => { r with disagree := bump 15 r.disagree }) e

/-- The entry is one whose active time is kept: in use, not a PANEL_HOLD, with a stuck-on limit (R50). -/
def timedInput (s : State) (e : Fin 64) : Bool :=
  (inputIs s e .detector || inputIs s e .pushButton) && decide (s.tables.input[e].stuckLimit ≠ 0)

/-- The active times advanced by one pulse (R50). -/
def advanceInputs (s : State) : State :=
  { s with inputs := tab fun e =>
      if timedInput s e && s.inputs[e].active then
        { s.inputs[e] with activeTime := bump 36000 s.inputs[e].activeTime }
      else s.inputs[e] }

/-- The entry becomes stuck (R50). -/
def stuckDue (s : State) (e : Fin 64) : Bool :=
  timedInput s e && s.inputs[e].active && !s.inputs[e].stuck &&
    decide (10 * s.tables.input[e].stuckLimit ≤ s.inputs[e].activeTime)

/-! ## Wanted steps and the search (R53) -/

/-- The number of steps of the plan. -/
def nSteps (s : State) (p : Fin 8) : Nat := s.tables.plan[p].steps

/-- The hold step of a coordinated plan (R46, R64). -/
def holdStep (s : State) (p : Fin 8) : Option (Fin 16) :=
  (idx 16).find? fun k => decide (k.val < nSteps s p) && (stepOf s p k).holdFlag

/-- The step is the hold step of a coordinated plan. -/
def isHoldStep (s : State) (p : Fin 8) (k : Fin 16) : Bool := coordinated s p && decide (holdStep s p = some k)

/-- The stage index of a step. -/
def stageIx (s : State) (p : Fin 8) (k : Fin 16) : Option (Fin 16) := ofNum 16 (stepOf s p k).stage

/-- The step of the plan is wanted (R53). -/
def wanted (s : State) (p : Fin 8) (k : Fin 16) : Bool :=
  let st := stepOf s p k
  isHoldStep s p k ||
    ((st.recalled || !st.demandDep || (match stageIx s p k with | some x => hasDemand s x | none => false)) &&
      (stageGroups s st.stage).any fun g => !s.groups[g].inhibited)

/-- The steps in search order after step `k`, ending with `k` itself (R53). -/
def rotation (s : State) (p : Fin 8) (k : Fin 16) : List (Fin 16) :=
  ((idx 16).filter fun j => decide (k < j) && decide (j.val < nSteps s p)) ++
  ((idx 16).filter fun j => decide (j ≤ k) && decide (j.val < nSteps s p))

/-- The first step of a search order that passes a test, and whether the search reached step 1 (R53). -/
def searchIn (l : List (Fin 16)) (f : Fin 16 → Bool) : Option (Fin 16) × Bool :=
  match l.findIdx? f with
  | some i => (l[i]?, (l.take (i + 1)).contains 0)
  | none => (none, l.contains 0)

/-- The next wanted step after step `k`, and whether the search reached step 1 (R53). -/
def searchNext (s : State) (p : Fin 8) (k : Fin 16) : Option (Fin 16) × Bool := searchIn (rotation s p k) (wanted s p)

/-- The first wanted step from step 1, step 1 included (R55, R67). -/
def firstWanted (s : State) (p : Fin 8) : Option (Fin 16) :=
  (idx 16).find? fun k => decide (k.val < nSteps s p) && wanted s p k

/-- Another wanted step exists (R53). -/
def anotherWanted (s : State) (p : Fin 8) : Bool :=
  (idx 16).any fun k => decide (k.val < nSteps s p) && decide (k ≠ s.eng.cur) && wanted s p k

/-! ## The cycle counter (R64) -/

/-- The cycle counter of a plan (R64). An isolated plan has none; 0 stands for it, and so in the last reading at its start or takeover (R55, R67)
(DESIGN CHOICE, unsafe; log entry 60). -/
def counter (s : State) (p : Fin 8) : Nat :=
  let c := s.tables.plan[p].cycle
  if c = 0 then 0 else (s.clock.ms / 100 + c - s.tables.plan[p].offset % c) % c

/-- The steps whose force-off point is reached at a reading (R64). -/
def reached (s : State) (p : Fin 8) (reading : Nat) : StageSet :=
  let c := s.tables.plan[p].cycle
  let dist := (reading + c - s.eng.lastReading % c) % c
  let every := s.eng.bigStep || (s.eng.rollover && decide (20 < dist))
  if !every && s.eng.backStep then 0
  else (idx 16).foldl (init := 0) fun acc k =>
    let f := ((stepOf s p k).forceOff + c - s.eng.lastReading % c) % c
    if decide (k.val < nSteps s p) && (every || (decide (1 ≤ f) && decide (f ≤ dist))) then ins acc k else acc

/-- The counter read and compared with the last reading (R64). Only a coordinated plan is read. -/
def readCounter (s : State) : State :=
  match s.eng.running with
  | some p =>
    if coordinated s p then
      let r := counter s p
      let hit := reached s p r
      setEng s fun e =>
        { e with passed := e.passed ||| hit, lastReading := r, bigStep := false, backStep := false, rollover := false }
    else setEng s fun e => { e with bigStep := false, backStep := false, rollover := false }
  | none => s

/-! ## PLAN_INVALID (R66) -/

/-- The detail of PLAN_INVALID for a plan: the index of its first error, 0 when LOADED or EMPTY (R66). -/
def invalidDetail (s : State) (p : Fin 8) : Nat :=
  match s.tables.plan[p].state, s.tables.plan[p].errors with
  | .invalid, e :: _ => e.2
  | _, _ => 0

/-- Raises PLAN_INVALID for a plan (R66). -/
def raiseInvalid (s : State) (p : Fin 8) : State :=
  setEng (takeRaise s .planInvalid (num p) (.errIndex (invalidDetail s p)))
    fun e => { e with invalidRaised := ins e.invalidRaised p }

/-- PLAN_INVALID of the plan may stand: the plan is not VALID, and it is the governing plan or the fallback plan in use for
it (R66). -/
def invalidStands (s : State) (p : Fin 8) : Bool :=
  !planValid s p && (decide (p = s.eng.governing) || (decide (p = fallback s) && !planValid s s.eng.governing))

/-- Clears PLAN_INVALID of the plans for which it no longer stands (R66), in ascending plan number (DESIGN CHOICE, unsafe; log entry 68). -/
def refreshInvalid (s : State) : State :=
  (idx 8).foldl (fun (s : State) (p : Fin 8) =>
    if mem s.eng.invalidRaised p && !invalidStands s p then
      setEng (takeClear s .planInvalid (num p)) fun e => { e with invalidRaised := del e.invalidRaised p }
    else s) s

/-! ## Interstage (R56 to R59) -/

/-- What the interstage does with one group (R56): `was` is the served set of the step ended, `now` the groups of the new
step's stage. -/
def changeGroup (was : GroupSet) (now : List (Fin 32)) (s : State) (g : Fin 32) : State :=
  if mem was g then
    if now.contains g then s
    else setEng (handTarget s g .stop) fun e => { e with served := del e.served g, losing := ins e.losing g }
  else if now.contains g && !s.groups[g].inhibited then
    setEng (handTarget s g .go) fun e => { e with served := ins e.served g, gaining := ins e.gaining g }
  else s

/-- The interstage to step `b` of plan `p` begins (R56). -/
def beginInterstage (s : State) (p : Fin 8) (b : Fin 16) : State :=
  let s1 := setEng s fun e =>
    { e with sub := .interstage, cur := b, gaining := 0, losing := 0, gained := false, stageOn := false }
  (idx 32).foldl (changeGroup s.eng.served (stageGroups s (stepOf s p b).stage)) s1

/-- STOP handed to every group of the served set, ascending, and the set emptied: nothing is served any more (R67, R72). -/
def stopServed (s : State) : State :=
  let gs : List (Fin 32) := (idx 32).filter fun (g : Fin 32) => mem s.eng.served g
  setEng (handTargets s gs .stop) fun e =>
    { e with served := 0, gaining := 0, losing := 0, sub := .rest, stageOn := false }

/-- A plan takes over from the running plan (R67, R71). Maximum elapsed is not started, and dwell is clear for an isolated plan
(DESIGN CHOICE, unsafe; log entry 52). -/
def takeover (s : State) (q : Fin 8) (req : Option StepReq) : State :=
  let s1 := setEng s fun e =>
    { e with running := some q, pendingPlan := none, passed := 0, resync := false, dwell := coordinated s q,
             lastReading := counter s q, maxElapsed := none, returned := true, bigStep := false, backStep := false,
             rollover := false }
  let target : Option (Fin 16) :=
    match req with
    | some (.stage st) =>
      match (idx 16).find? fun k => decide (k.val < nSteps s1 q) && decide (stageIx s1 q k = some st) with
      | some k => some k
      | none => firstWanted s1 q
    | some .next => firstWanted s1 q
    | none => if coordinated s1 q then holdStep s1 q else firstWanted s1 q
  match target with
  | some b => beginInterstage s1 q b
  | none => setEng (stopServed s1) fun e => { e with cur := 0 }

/-- What leaving a step does: the passed set is emptied and dwell cleared when it is the hold step (R64, R65). -/
def leaveStep (s : State) (p : Fin 8) : State :=
  if isHoldStep s p s.eng.cur then setEng s fun e => { e with passed := 0, dwell := false } else s

/-- Goes on from a search's outcome: a pending plan takes over where the search reached step 1, and otherwise the
interstage to the step found begins (R63, R67). -/
def goOn (s : State) (p : Fin 8) (found : Option (Fin 16) × Bool) (req : Option StepReq) : State :=
  let s1 := if found.2 then setEng s fun e => { e with returned := true } else s
  match found.2, s.eng.pendingPlan with
  | true, some q => takeover s1 q req
  | _, _ =>
    match found.1 with
    | some b => beginInterstage s1 p b
    | none => s1

/-- The current step ends and the next wanted step is sought (R63, R64). -/
def endStep (s : State) (p : Fin 8) : State :=
  let s1 := leaveStep s p
  goOn s1 p (searchNext s1 p s1.eng.cur) none

/-- The current step ends for a STEP request (R71). -/
def endForStep (s : State) (p : Fin 8) (req : StepReq) : State :=
  let s1 := leaveStep s p
  match req with
  | .next => goOn s1 p (searchNext s1 p s1.eng.cur) (some req)
  | .stage st => goOn s1 p (searchIn (rotation s1 p s1.eng.cur) fun k => decide (stageIx s1 p k = some st)) (some req)

/-- The step's stage starts (R59, R65, R68, R71). -/
def stageStart (s : State) (p : Fin 8) : State :=
  let k := s.eng.cur
  let s1 : State := match stageIx s p k with | some x => { s with latched := del s.latched x } | none => s
  let arrival := isHoldStep s1 p k && (s.eng.dwell || s.eng.resync)
  let cycleTarget := if coordinated s1 p then isHoldStep s1 p k else s.eng.returned
  let startMax := !coordinated s1 p && anotherWanted s1 p
  setEng s1 fun e =>
    { e with
      minElapsed := 0
      ext := (stepOf s p k).unitExt
      maxElapsed := if startMax then some 0 else none
      sub := .min
      stageOn := true
      passed := if arrival then 0 else e.passed
      resync := if arrival then false else e.resync
      dwell := if arrival then true else e.dwell
      cycleReached := e.cycleReached || (decide (e.hold = some .cycle) && cycleTarget)
      returned := false
      stepReq := none
      gaining := 0
      losing := 0 }

/-- Step b is abandoned: it does not start, and the next wanted step after it is sought (R58, R71, R72). A search that comes to step 1 here counts
as a return to step 1 for a CYCLE hold, though no step ended (DESIGN CHOICE, unsafe; log entry 35). -/
def abandonStep (s : State) (p : Fin 8) : State :=
  let s1 := setEng s fun e => { e with stepReq := none, sub := .rest, stageOn := false, gaining := 0, losing := 0 }
  if s.eng.orderly then s1
  else
    let found := searchNext s1 p s1.eng.cur
    let s2 := if found.2 then setEng s1 fun e => { e with returned := true } else s1
    match found.1 with
    | some b => beginInterstage s2 p b
    | none => s2

/-- Drops from the interstage a gaining group that has joined the inhibit set before entering GREEN (R57), and takes up one
that has entered GREEN. -/
def gainGroup (s : State) (g : Fin 32) : State :=
  if mem s.eng.gaining g then
    if s.groups[g].aspect = .green then setEng s fun e => { e with gaining := del e.gaining g, gained := true }
    else if s.groups[g].inhibited then
      setEng (handTarget s g .stop) fun e => { e with gaining := del e.gaining g, served := del e.served g }
    else s
  else s

/-- Every losing group of the interstage has entered RED (R58). -/
def losersRed (s : State) : Bool := (idx 32).all fun g => !mem s.eng.losing g || decide (s.groups[g].aspect = .red)

/-- The interstage's stage may start (R58): where no gaining group has entered GREEN and none is left, be it by the inhibit set (R57) or by an
orderly stop (R72), it waits for every losing group to be RED (DESIGN CHOICE, unsafe; log entry 38). -/
def startDue (s : State) : Bool := decide (s.eng.gaining = 0) && (s.eng.gained || losersRed s)

/-- The progress of an interstage at a moment (R57, R58). -/
def interstageProgress (s : State) : State :=
  match s.eng.running with
  | some p =>
    if s.eng.sub = .interstage then
      let s1 := (idx 32).foldl gainGroup s
      if startDue s1 then
        if s1.eng.served = 0 ∧ !isHoldStep s1 p s1.eng.cur then abandonStep s1 p else stageStart s1 p
      else s1
    else s
  | none => s

/-! ## Sub-state and step ends (R60 to R65, R69, R71, R72) -/

/-- The current step's minimum has run (R60). -/
def minRun (s : State) (p : Fin 8) : Bool := decide ((stepOf s p s.eng.cur).minGreen ≤ s.eng.minElapsed)

/-- The sub-state of a step whose stage has started (R59, R63 to R65, R69). -/
def subNow (s : State) (p : Fin 8) : Sub :=
  if !minRun s p then .min
  else if holdStands s then .hold
  else if coordinated s p then (if isHoldStep s p s.eng.cur && s.eng.dwell then .dwell else .extend)
  else if anotherWanted s p then .extend else .rest

/-- Brings the sub-state up to date while a stage runs. -/
def refreshSub (s : State) : State :=
  match s.eng.running with
  | some p => if s.eng.stageOn then setEng s fun e => { e with sub := subNow s p } else s
  | none => s

/-- The step gaps out, but for its minimum and holds: its timer has expired, another wanted step exists, and it is not the
hold step of a coordinated plan (R61). -/
def gapped (s : State) (p : Fin 8) : Bool :=
  decide (s.eng.ext = 0) && anotherWanted s p && !isHoldStep s p s.eng.cur

/-- The isolated step has maxed out, but for its minimum and holds (R62). -/
def maxed (s : State) (p : Fin 8) : Bool :=
  !coordinated s p && anotherWanted s p &&
    (match s.eng.maxElapsed with | some m => decide ((stepOf s p s.eng.cur).maxGreen ≤ m) | none => false)

/-- The coordinated step's force-off has come (R64). -/
def forced (s : State) (p : Fin 8) : Bool := coordinated s p && mem s.eng.passed s.eng.cur

/-- The isolated step rests with a plan pending, so that the engine returns to step 1 (R67). -/
def restsForPlan (s : State) (p : Fin 8) : Bool :=
  !coordinated s p && !anotherWanted s p && s.eng.pendingPlan.isSome

/-- Judges the end of a step whose minimum has run: an orderly stop first, then a STEP, then a hold that applies, and
then the step's own timings (R60 to R64, R67, R69, R71, R72). A NEXT that waits for another wanted step keeps the step's own timings and the
rest's hand-over to a pending plan from ending the step, a hold standing or not (DESIGN CHOICE, unsafe; log entry 37). -/
def judgeStepEnd (s : State) (p : Fin 8) : State :=
  if s.eng.orderly then stopServed (leaveStep s p)
  else
    match s.eng.stepReq with
    | some (.stage st) => endForStep s p (.stage st)
    | some .next => if anotherWanted s p then endForStep s p .next else s
    | none =>
      if holdStands s then s
      else if gapped s p || maxed s p || forced s p then endStep s p
      else if restsForPlan s p then
        match s.eng.pendingPlan with
        | some q => takeover s q none
        | none => s
      else s

/-- The engine's timers advanced by one pulse, for a step whose stage has started (R54, R60, R62). Minimum elapsed stands still in an INTERSTAGE
and in a rest with nothing served (DESIGN CHOICE, unsafe; log entry 51). -/
def advanceEngine (s : State) : State :=
  if s.eng.stageOn then
    setEng s fun e => { e with minElapsed := bump 65535 e.minElapsed, maxElapsed := e.maxElapsed.map (bump 65535) }
  else s

/-- The extension timer at a pulse (R61). It runs with a stage on, in DWELL too, and stands still in an INTERSTAGE and in a rest with nothing served
(DESIGN CHOICE, unsafe; log entry 61). -/
def nextExt (s : State) (p : Fin 8) : Nat :=
  if (match stageIx s p s.eng.cur with | some x => extended s x | none => false) then (stepOf s p s.eng.cur).unitExt
  else s.eng.ext - 1

/-- A rest with nothing served, at a pulse (R58, R67). A search that comes to step 1 here counts as a return to step 1 for a CYCLE hold, though no
step ended (DESIGN CHOICE, unsafe; log entry 35). -/
def restPulse (s : State) (p : Fin 8) : State :=
  if s.eng.orderly then s
  else
    match s.eng.pendingPlan, holdStands s with
    | some q, false => takeover s q none
    | _, _ =>
      let found := searchNext s p s.eng.cur
      let s1 := if found.2 then setEng s fun e => { e with returned := true } else s
      match found.1 with
      | some b => beginInterstage s1 p b
      | none => s1

/-- The engine's work at a pulse after the monitor's (R58, R60 to R64). `ran` says that the stage had started before this
pulse: a start taken at a pulse is followed by an advance at the next one (R54). With no stage on, the extension timer stands still (DESIGN
CHOICE, unsafe; log entry 61). Targets handed here meet the monitor's work of the next pulse (R23; DESIGN CHOICE, unsafe; log entry 59). -/
def enginePulse (s : State) (ran : Bool) : State :=
  match s.eng.running with
  | some p =>
    let s1 := readCounter s
    if s1.eng.stageOn && ran then
      let startMax := !coordinated s1 p && s1.eng.maxElapsed.isNone && anotherWanted s1 p
      let s2 := setEng s1 fun e =>
        { e with ext := nextExt s1 p, maxElapsed := if startMax then some 0 else e.maxElapsed }
      if minRun s2 p then judgeStepEnd s2 p else s2
    else if decide (s1.eng.sub = .rest) && !s1.eng.stageOn then restPulse s1 p
    else s1
  | none => s

/-! ## Starting and stopping (R55, R72) -/

/-- The engine enters IDLE (R72). -/
def engineIdle (s : State) : State :=
  setEng s fun e => { enginePor with governing := e.governing, invalidRaised := e.invalidRaised }

/-- The engine starts running a plan (R55). -/
def engineStart (s : State) (p : Fin 8) : State :=
  let s1 := setEng s fun e =>
    { enginePor with
      governing := e.governing, invalidRaised := e.invalidRaised, running := some p, sub := .rest,
      lastReading := counter s p, dwell := coordinated s p }
  match (if coordinated s1 p then holdStep s1 p else firstWanted s1 p) with
  | some b => beginInterstage s1 p b
  | none => s1

/-- The orderly stop is requested (R72). In an interstage the groups of the served set that are not GREEN get STOP at once
and are served no more; where that takes every gaining group away, the stage's start is `startDue`'s (DESIGN CHOICE, unsafe; log entry 38). -/
def orderlyStop (s : State) : State :=
  let s1 := setEng s fun e => { e with orderly := true }
  if s.eng.sub = .interstage then
    (idx 32).foldl (fun (s : State) (g : Fin 32) =>
      if mem s.eng.served g && decide (s.groups[g].aspect ≠ .green) then
        setEng (handTarget s g .stop) fun e => { e with served := del e.served g, gaining := del e.gaining g }
      else s) s1
  else s1

/-! ## The governing plan (R66) -/

/-- A governing plan is dealt with while the engine runs (R66). -/
def dealGoverning (s : State) (p : Fin 8) : State :=
  if s.eng.running = some p then setEng s fun e => { e with pendingPlan := none }
  else if planValid s p then setEng s fun e => { e with pendingPlan := some p }
  else
    let s1 := raiseInvalid s p
    let f := fallback s
    if s.eng.running = some f then setEng s1 fun e => { e with pendingPlan := none }
    else if planValid s f then setEng s1 fun e => { e with pendingPlan := some f }
    else if f = p then s1
    else raiseInvalid s1 f

/-- The clock unit names the governing plan to the engine (R66). PLAN_INVALID of a plan that stops governing is cleared in IDLE too, where R66 also
says that the plan is recorded and nothing else is done (DESIGN CHOICE, unsafe; log entry 46). The clears of the plans that stop governing come
before the raises of the new one (DESIGN CHOICE, unsafe; log entry 68). -/
def nameGoverning (s : State) (p : Fin 8) : State :=
  let s1 := refreshInvalid (setEng s fun e => { e with governing := p })
  if s1.eng.running.isSome then dealGoverning s1 p else s1

/-! ## Reports of the clock (R64, R65) -/

/-- A SET_TIME step in milliseconds, with its sign, reported to the engine (R64, R65, R101). -/
def reportStep (s : State) (ms : Int) : State :=
  if s.eng.running.isNone then s
  else if 2000 < ms ∨ ms < -2000 then
    setEng s fun e => { e with bigStep := true, resync := e.resync || runsCoordinated s }
  else if ms < 0 then setEng s fun e => { e with backStep := true }
  else s

/-- A midnight rollover reported to the engine (R64, R65, R98). -/
def reportRollover (s : State) : State :=
  if s.eng.running.isNone then s
  else setEng s fun e => { e with rollover := true, resync := e.resync || runsCoordinated s }

end Sys2Proof.Machine
end

