-- ==== Sys2Proof/Machine/Modes.lean ====
section
/-! DEFINITION. Modes: the junction mode machine (R74 to R90, R93): entries to each mode, departures, exits, the fault demand, the schedule mode
and mains return. -/

namespace Sys2Proof.Machine

open Sys2Proof

/-! ## Entries (R75, R81, R88) -/

/-- START_RED is left for another mode: START_PROVING_TIMEOUT is cleared where raised (R75). -/
def leaveStartRed (s : State) (m : Mode) : State :=
  if s.jm.mode = .startRed ∧ m ≠ .startRed ∧ s.jm.provingTimeout = true then
    setMode (takeClear s .startProvingTimeout 0) fun j => { j with provingTimeout := false }
  else s

/-- The mode and reason written at an entry; any departure is withdrawn (R75). -/
def writeMode (s : State) (m : Mode) (r : Reason) : State :=
  setMode (leaveStartRed s m) fun j => { j with mode := m, reason := r, departure := none }

/-- The mode timer set to 0, marked fresh between pulses (R74, R75). -/
def zeroModeTimer (s : State) : State := setMode s fun j => { j with timer := 0, timerFresh := !s.inPulse }

/-- A mode other than PLAN is entered, whatever is demanded: the engine is stopped and the mode's targets are handed (R75). -/
def takeMode (s : State) (m : Mode) (r : Reason) : State :=
  let s1 := engineIdle (writeMode s m r)
  match m with
  | .dark => handAll s1 .dark
  | .startFlash => handAll (restartJunctionRun (zeroModeTimer s1)) .flash
  | .startRed => handAll (setMode (zeroModeTimer s1) fun j => { j with provingTimeout := false }) .stop
  | .flash => handAll (restartJunctionRun s1) .flash
  | .plan | .directDrive => s1

/-- The reason alone changes. -/
def setReason (s : State) (r : Reason) : State := setMode s fun j => { j with reason := r }

/-- The mode a demand names, none for no demand (R88). -/
def demandMode : Demanded → Option Mode
  | .dark => some .dark
  | .flash => some .flash
  | .none => none

/-- The demanded mode is entered with reason FAULT; where the junction is in it already, the reason alone changes and no flash run restarts
(R75, R88, R92; DESIGN CHOICE, unsafe; log entry 39). -/
def enterDemanded (s : State) : State :=
  match demandMode (demandedNow s) with
  | some m => if s.jm.mode = m then setReason s .fault else takeMode s m .fault
  | none => s

/-- The mode is less severe than the demanded mode (R88). -/
def belowDemand (s : State) (m : Mode) : Bool := decide (m.severity < (demandedNow s).severity)

/-- A rule takes the machine into a mode other than PLAN: into the demanded mode with reason FAULT when that is more severe (R88).
START_FLASH with a start flash time of 0 is left at the same moment for START_RED (R77), and nothing is handed on between the two (DESIGN CHOICE,
unsafe; log entry 55). -/
def enterMode (s : State) (m : Mode) (r : Reason) : State :=
  if belowDemand s m then enterDemanded s
  else if m = .startFlash ∧ s.tables.startUp.startFlash = 0 then takeMode (takeMode s .startFlash r) .startRed r
  else takeMode s m r

/-- A mode entered at once; where it is the mode already, the reason alone changes (R80, R83, R84). -/
def enterOrKeep (s : State) (m : Mode) (r : Reason) : State :=
  if s.jm.mode = m then setReason s r else enterMode s m r

/-- The junction mode a schedule mode names, none for PLAN (R83). -/
def schedTarget : SchedMode → Option Mode
  | .flash => some .flash
  | .dark => some .dark
  | .plan => none

/-! ## PLAN entry (R79) -/

/-- PLAN is entered and the engine starts running `p` (R55, R75, R79). -/
def enterPlan (s : State) (p : Fin 8) (r : Reason) : State :=
  if belowDemand s .plan then enterDemanded s else engineStart (refreshInhibit (writeMode s .plan r)) p

/-- The PLAN_INVALID raises of an entry to PLAN with neither plan VALID (R79). -/
def raiseBothInvalid (s : State) (p f : Fin 8) : State :=
  if f = p then raiseInvalid s p else raiseInvalid (raiseInvalid s p) f

/-- Entry to PLAN (R79). With neither plan VALID, FLASH is entered with reason NO_PLAN before the demand of a PLAN_INVALID whose reaction is FLASH
is handed over, and such a demand then finds the mode met (R88; DESIGN CHOICE, unsafe; log entry 40). -/
def planEntry (s : State) (r : Reason) : State :=
  match schedTarget s.jm.schedMode with
  | some m => enterMode s m .schedule
  | none =>
    let p := s.eng.governing
    let f := fallback s
    if planValid s p then enterPlan s p r
    else if planValid s f then enterPlan (raiseInvalid s p) f r
    else enterMode (raiseBothInvalid s p f) .flash .noPlan

/-! ## Exits from FLASH and DARK (R84) -/

/-- The start-up mode that leaves FLASH or DARK (R84). -/
def exitMode (m : Mode) : Mode := if m = .flash then .startRed else .startFlash

/-- The exit sequence, its trigger of reason `r`: into the schedule mode with reason SCHEDULE instead, when that is FLASH or DARK
and the trigger's reason is not SCHEDULE (R84). -/
def takeExit (s : State) (r : Reason) : State :=
  match schedTarget s.jm.schedMode with
  | some m => if r = .schedule then enterMode s (exitMode s.jm.mode) r else enterOrKeep s m .schedule
  | none => enterMode s (exitMode s.jm.mode) r

/-- The junction is in FLASH or DARK with the reason. -/
def stoppedFor (s : State) (r : Reason) : Bool :=
  (decide (s.jm.mode = .flash) || decide (s.jm.mode = .dark)) && decide (s.jm.reason = r)

/-- The NO_PLAN trigger (R84). -/
def noPlanExit (s : State) : State := if stoppedFor s .noPlan then takeExit s .noPlan else s

/-! ## Departures (R82) -/

/-- A departure is set, replacing any held: the orderly stop from PLAN, STOP to every group from DIRECT_DRIVE (R82). -/
def setDeparture (s : State) (d : Dest) (r : Reason) : State :=
  let s1 := setMode s fun j => { j with departure := some ⟨d, r⟩ }
  match s.jm.mode with
  | .plan => orderlyStop s1
  | .directDrive => handAll s1 .stop
  | .dark | .startFlash | .startRed | .flash => s1

/-- Every group of type VEHICLE or PEDESTRIAN is RED (R82). -/
def allRed (s : State) : Bool := (idx 32).all fun g => !live s g || decide (s.groups[g].aspect = .red)

/-- The mode of a destination (R82). -/
def destMode : Dest → Mode
  | .flash => .flash
  | .dark => .dark
  | .startRed => .startRed

/-- The destination of a departure is entered; a schedule departure that completes with the schedule mode back at PLAN is
followed by the exit at once (R82, R83). -/
def completeDeparture (s : State) (d : Departure) : State :=
  let s1 := enterMode s (destMode d.dest) d.reason
  if d.reason = .schedule ∧ s.jm.schedMode = .plan ∧ stoppedFor s1 .schedule = true then takeExit s1 .schedule else s1

/-- Completes the departure when every group is RED (R82). -/
def judgeDeparture (s : State) : State :=
  match s.jm.departure with
  | some d => if allRed s then completeDeparture s d else s
  | none => s

/-! ## Start-up (R77, R78) -/

/-- The mode timer has reached the start flash time (R77). -/
def startFlashDue (s : State) : Bool :=
  decide (s.jm.mode = .startFlash) && decide (s.tables.startUp.startFlash ≤ s.jm.timer)

/-- Takes the end of START_FLASH when it is due (R77). -/
def takeStartFlashEnd (s : State) : State := if startFlashDue s then enterMode s .startRed s.jm.reason else s

/-- The red status of every group of type VEHICLE or PEDESTRIAN is PROVEN or DEGRADED (R78). -/
def allProven (s : State) : Bool :=
  (idx 32).all fun g => !live s g || decide (s.prov.red[g] = .proven) || decide (s.prov.red[g] = .degraded)

/-- START_RED may end (R78). -/
def startRedDue (s : State) : Bool :=
  decide (s.jm.mode = .startRed) && decide (s.tables.startUp.startRed ≤ s.jm.timer) && allProven s

/-- Takes the end of START_RED when it is due (R78). -/
def takeStartRedEnd (s : State) : State := if startRedDue s then planEntry s s.jm.reason else s

/-- START_PROVING_TIMEOUT is to be raised (R78). -/
def provingTimeoutDue (s : State) : Bool :=
  decide (s.jm.mode = .startRed) && !s.jm.provingTimeout &&
    decide (s.tables.startUp.startRed + s.tables.startUp.provingLimit ≤ s.jm.timer) && !allProven s

/-- Raises START_PROVING_TIMEOUT when it is due (R78). -/
def takeProvingTimeout (s : State) : State :=
  if provingTimeoutDue s then
    setMode (takeRaise s .startProvingTimeout 0 .absent) fun j => { j with provingTimeout := true }
  else s

/-! ## Link silence (R87) -/

/-- CONTROLLER_SILENT is to be raised (R87). -/
def silentDue (s : State) : Bool :=
  decide (s.jm.mode = .directDrive) && !s.jm.silent && decide (s.tables.startUp.silence ≤ s.jm.silence)

/-- Raises CONTROLLER_SILENT when it is due, and sets the departure to START_RED if none waits (R87). The demand of a reaction FLASH or DARK is
handed on after that (R167; DESIGN CHOICE, unsafe; log entry 49). -/
def takeSilent (s : State) : State :=
  if silentDue s then
    let s1 := setMode (takeRaise s .controllerSilent 0 .absent) fun j => { j with silent := true }
    if s1.jm.departure.isNone then setDeparture s1 .startRed .controller else s1
  else s

/-- An intact request was received: the silence timer restarts, and CONTROLLER_SILENT is cleared where raised (R87). -/
def heardRequest (s : State) : State :=
  let s1 := setMode s fun j => { j with silence := 0, silenceFresh := !s.inPulse, silent := false }
  if s.jm.silent then takeClear s1 .controllerSilent 0 else s1

/-- The mode machine's timers advanced by one pulse (R74, R87). -/
def advanceMode (s : State) : State :=
  setMode s fun j =>
    { j with
      timer := if j.timerFresh then j.timer else bump 65535 j.timer
      timerFresh := false
      silence := if j.silenceFresh then j.silence else bump 65535 j.silence
      silenceFresh := false }

/-! ## Fault demand (R88, R89) -/

/-- The mode machine takes the demanded mode handed by the collector; `old` is the demand handed before. -/
def obeyDemand (s : State) (old : Demanded) : State :=
  let d := demandedNow s
  if s.jm.mode.severity < d.severity then enterDemanded s
  else if d.severity < old.severity ∧ s.jm.reason = .fault then
    match s.jm.mode, d with
    | .dark, .flash => enterMode s .flash .fault
    | .dark, .none | .flash, .none => takeExit s .fault
    | _, _ => s
  else s

/-! ## The schedule mode (R83) -/

/-- The clock unit names the schedule mode (R83). -/
def nameSchedule (s : State) (m : SchedMode) : State :=
  let s1 := setMode s fun j => { j with schedMode := m }
  match s.jm.mode with
  | .plan =>
    match m with
    | .flash => if scheduled s then setDeparture s1 .flash .schedule else s1
    | .dark => if scheduled s then setDeparture s1 .dark .schedule else s1
    | .plan => s1
  | .flash | .dark =>
    if !s.jm.started then s1
    else
      match schedTarget m with
      | some x => if stoppedFor s .schedule || stoppedFor s .noPlan then enterOrKeep s1 x .schedule else s1
      | none => if stoppedFor s .schedule then takeExit s1 .schedule else s1
  | .startFlash | .startRed | .directDrive => s1
where
  /-- No departure waits, or one with reason SCHEDULE. -/
  scheduled (s : State) : Bool :=
    match s.jm.departure with
    | some d => decide (d.reason = .schedule)
    | none => true

/-! ## Mains return (R90) -/

/-- Mains has returned after a gap at or beyond the restart threshold (R90). -/
def mainsRestart (s : State) : State :=
  match s.jm.mode with
  | .plan | .directDrive =>
    match s.jm.departure with
    | some d => if d.dest = .startRed then enterMode s .startFlash .mains else completeDeparture s d
    | none => enterMode s .startFlash .mains
  | .startFlash | .startRed => enterMode s .startFlash .mains
  | .flash | .dark => s

end Sys2Proof.Machine
end

