-- ==== Sys2Proof/Machine/Settle.lean ====
section
/-! DEFINITION. Settle: the hand-overs that follow a change: the collector's outputs (R167), the inhibit set (R32), the engine's and the mode
machine's reactions to changes of aspect, red status and inhibit set (R31, R57, R58, R78, R82), and the junction summary with its
ALERT slot (R171, R172). -/

namespace Sys2Proof.Machine

open Sys2Proof

/-- The inhibit demand formed afresh (R166, R167). Where CONFIG_OPEN left it, with the circuit map withdrawn, it stands (R41) until the first
change of R161 to R166, which forms it by R165 with no map, or until a circuit map exists again (DESIGN CHOICE, unsafe; log entry 33). -/
def formInhibit (s : State) : State :=
  setColl s fun c =>
    if c.demandStands && s.map.isNone then c
    else { c with inhibitDemand := inhibitDemandNow s, demandStands := false }

/-- Hands the inhibit demand to the conflict monitor (R167). -/
def handInhibit (s : State) : State := refreshInhibit (formInhibit s)

/-- Hands the demanded mode to the mode machine when it has changed (R167). -/
def handDemand (s : State) : State :=
  let d := demandedNow s
  if d = s.coll.demanded then s else obeyDemand (setColl s fun c => { c with demanded := d }) s.coll.demanded

/-- Sets the ALARM line afresh (R167). -/
def handAlarm (s : State) : State := setColl s fun c => { c with alarm := alarmNow s }

/-- One pass of the hand-overs, in the order of R167, with what each brings about in the engine and the mode machine. -/
def settleOnce (s : State) : State :=
  refreshSub (takeStartRedEnd (judgeDeparture (interstageProgress (refreshInhibit (handDemand (handInhibit s))))))

/-- The hand-overs repeated: a pass can bring about a change that the next pass hands on (DEDUCED, unsafe; log entry 8). -/
def settleN : Nat → State → State
  | 0, s => s
  | n + 1, s => settleN n (settleOnce s)

/-- The summary changes one of the fields that make the ALERT slot READY (R172). -/
def alertChange (a b : Summary) : Bool :=
  decide (a.mode ≠ b.mode) || decide (a.unack ≠ b.unack) || decide (a.alarm ≠ b.alarm)

/-- The summary formed afresh and the ALERT slot brought up to date (R171, R172). The summary of the last hand-over is compared with the one now, so
what has changed and changed back between them makes no ALERT (DESIGN CHOICE, unsafe; log entry 55); a READY slot takes a new identity with the
next change of mode, count or ALARM (DESIGN CHOICE, unsafe; log entry 57). -/
def refreshSummary (s : State) : State :=
  let n := summaryNow s
  setPort s fun p =>
    { p with
      summary := n
      alert := if alertChange p.summary n then some ⟨n, effSlot s, effIdentity s⟩
        else p.alert.map fun a => if p.summary = n then a else { a with summary := n } }

/-- Everything a change hands on at the moment it is taken. -/
def settle (s : State) : State := refreshSummary (handAlarm (settleN 4 s))

/-- A raise handed to the collector (R161). -/
def raise (s : State) (k : Kind) (n : Nat) (d : Detail) : State := settle (takeRaise s k n d)

/-- A clear handed to the collector (R163). -/
def clear (s : State) (k : Kind) (n : Nat) : State := settle (takeClear s k n)

end Sys2Proof.Machine
end

