-- ==== Sys2Proof/Machine/Port.lean ====
section
/-! DEFINITION. Port: the receiver, the service of a request, BUSY and MALFORMED answers, and the outgoing arbitration (R169 to R173). -/

namespace Sys2Proof.Machine

open Sys2Proof

/-! ## Outgoing arbitration (R173) -/

/-- The transmitter takes the next ready frame, by class: a reply or BUSY answer, the ALERT, the PASS_REPLY, the oldest sense report (R173).
The ALERT slot and the queue give up what is taken; the pass-through slot keeps its message until the frame has been sent (R119). -/
def takeFrame (s : State) : State :=
  match s.port.replies with
  | r :: rest => setPort s fun p => { p with tx := some (.reply r), replies := rest }
  | [] =>
    match s.port.alert with
    | some a => setPort s fun p => { p with tx := some (.alert a), alert := none }
    | none =>
      match s.bus.slot with
      | .answered m st pl => setPort s fun p => { p with tx := some (.passReply m st pl) }
      | .empty | .waiting _ _ | .listening _ =>
        match s.bus.queue with
        | r :: rest => setPort (setBus s fun b => { b with queue := rest }) fun p => { p with tx := some (.report r) }
        | [] => s

/-- A free transmitter takes a frame if one is ready (R173). -/
def kick (s : State) : State := if s.port.tx.isNone then takeFrame s else s

/-- The end of a command: the hand-overs are made and a free transmitter takes a frame. It takes none in the midst of a command's work, so an event
that brings several ALERT-making changes gives one ALERT (R172, R173; DESIGN CHOICE, unsafe; log entry 78). -/
def finish (s : State) : State := kick (settle s)

/-- What the end of a frame's transmission does: a reply ends the service of its request, a BUSY answer empties the BUSY slot (R170), a
PASS_REPLY empties the pass-through slot it came from (R119). -/
def frameDone (s : State) (f : TxFrame) : State :=
  match f with
  | .reply r => if r.busy then setPort s fun p => { p with busy := false } else setPort s fun p => { p with inService := none }
  | .passReply m st pl => if s.bus.slot = .answered m st pl then setBus s fun b => { b with slot := .empty } else s
  | .alert _ | .report _ => s

/-- The frame being sent ends (R173). -/
def endFrame (s : State) : State :=
  match s.port.tx with
  | some f => setPort (frameDone s f) fun p => { p with tx := none }
  | none => s

/-! ## Service (R170) -/

/-- What a request's own rule answers: the state after its effects, its result code and its data. -/
structure Answer where
  state : State
  result : Result
  data : ReplyData

/-- A request refused: nothing changes (R175 and the owning rules). -/
def refuse (s : State) (r : Result) : Answer := ⟨s, r, .none⟩

/-- A request answered DONE with no data. -/
def done (s : State) : Answer := ⟨s, .done, .none⟩

/-- An intact frame has been received: the receiver hunts again, the silence timer restarts (R87, R169), and no event stands (log entry 2). -/
def received (s : State) : State := settle (heardRequest (setPort (between s) fun p => { p with receiver := .hunting }))

/-- A BUSY answer is made ready in a free BUSY slot; with the slot held the request is discarded (R170). -/
def answerBusy (s : State) (kind tag : Byte) : State :=
  if s.port.busy then s
  else setPort s fun p =>
    { p with busy := true, replies := p.replies ++ [⟨kind, tag, .busy, s.port.summary, .none, true⟩] }

/-- The reply of the request in service is made ready, with the summary as it then stands (R170). -/
def answer (kind tag : Byte) (a : Answer) : State :=
  let s := settle a.state
  setPort s fun p =>
    { p with replies := p.replies ++ [⟨kind, tag, a.result, s.port.summary, a.data, false⟩] }

/-- An intact request arrives (R170): with another in service it is answered BUSY or discarded, otherwise it is taken into service, its
effects are taken, and its reply is made ready. -/
def serve (kind tag : Byte) (body : State → Answer) (s : State) : State :=
  let s1 := received s
  if s1.port.inService.isSome then finish (answerBusy s1 kind tag)
  else finish (answer kind tag (body (setPort s1 fun p => { p with inService := some (kind, tag) })))

/-- The checks of a request in their order: the first refusal that applies (R175 and the owning rules). -/
def firstRefusal : List (Bool × Result) → Option Result
  | [] => none
  | (bad, r) :: rest => if bad then some r else firstRefusal rest

/-- A request checked, and taken when no check refuses it. -/
def checked (checks : List (Bool × Result)) (s : State) (take : Answer) : Answer :=
  match firstRefusal checks with
  | some r => refuse s r
  | none => take

end Sys2Proof.Machine
end

