-- ==== Sys2Proof/Machine/Sched.lean ====
section
/-! DEFINITION. Sched: the junction clock (R98, R99, R101), schedule evaluation (R103) and the hand-over of its results (R83, R66, R105). -/

namespace Sys2Proof.Machine

open Sys2Proof

/-! ## Schedule evaluation (R103) -/

/-- The position in the week, in milliseconds (R101). -/
def weekPos (weekday ms : Nat) : Nat := 86400000 * weekday + ms

/-- The milliseconds of a week. -/
def weekMs : Nat := 604800000

/-- How long ago the entry last came on weekday `d` (R103). -/
def ageOn (s : State) (e : SchedEntry) (d : Nat) : Nat :=
  (weekPos s.clock.weekday s.clock.ms + weekMs - weekPos d ((60 * e.hours + e.minutes) * 60000)) % weekMs

/-- How long ago the most recent occurrence of an entry was, none for an entry not in use (R103). -/
def age (s : State) (e : SchedEntry) : Option Nat :=
  (List.range 7).foldl (init := (none : Option Nat)) fun best d =>
    if mem e.weekdays d then
      match best with
      | some b => some (min b (ageOn s e d))
      | none => some (ageOn s e d)
    else best

/-- The entry of a class with the latest occurrence (R103). Of two that occur at one moment, which the check of R102 never leaves, the
lower-numbered is taken (DESIGN CHOICE, unsafe; log entry 32). -/
def latest (s : State) (cls : SchedEntry → Bool) : Option SchedEntry :=
  (s.tables.sched.toList.foldl (init := (none : Option (SchedEntry × Nat))) fun best e =>
    if cls e then
      match age s e, best with
      | some a, some (_, b) => if a < b then some (e, a) else best
      | some a, none => some (e, a)
      | none, _ => best
    else best).map Prod.fst

/-- The mode class: PLAN, FLASH, DARK (R102). -/
def modeClass (e : SchedEntry) : Bool := decide (e.action ≤ 2)

/-- A PLAN entry (R102). -/
def planClass (e : SchedEntry) : Bool := decide (e.action = 0)

/-- The dim class: DIM_ON, DIM_OFF (R102). -/
def dimClass (e : SchedEntry) : Bool := decide (e.action = 3) || decide (e.action = 4)

/-- The schedule mode of a mode-class action (R103). -/
def actionMode (a : Nat) : SchedMode := if a = 1 then .flash else if a = 2 then .dark else .plan

/-- The plan of the schedule header, or the fallback plan when it is none (R103). -/
def defaultPlan (s : State) : Fin 8 := (ofNum 8 s.tables.schedDefault).getD (fallback s)

/-- Schedule mode as evaluated (R103). -/
def schedModeNow (s : State) : SchedMode :=
  if s.clock.unset then .plan else match latest s modeClass with | some e => actionMode e.action | none => .plan

/-- Schedule plan as evaluated (R103). A plan number outside 1 to 8, which no write stores, is taken as the fallback plan (DESIGN CHOICE,
unsafe; log entry 32). -/
def schedPlanNow (s : State) : Fin 8 :=
  if s.clock.unset then fallback s
  else match latest s planClass with | some e => (ofNum 8 e.plan).getD (fallback s) | none => defaultPlan s

/-- Schedule dim as evaluated (R103). -/
def schedDimNow (s : State) : Tap :=
  if s.clock.unset then .bright
  else match latest s dimClass with | some e => if e.action = 3 then .dim else .bright | none => .bright

/-! ## Hand-overs (R103) -/

/-- The effective governing plan formed afresh and handed: to the engine, and as a NO_PLAN trigger to the mode machine. `always` hands it
whether or not it has changed, as START does (R66, R84, R103). -/
def handPlan (always : Bool) (s : State) : State :=
  let p := s.sched.planOverride.getD s.sched.plan
  if always || decide (p ≠ s.sched.effPlan) then
    noPlanExit (nameGoverning { s with sched := { s.sched with effPlan := p } } p)
  else s

/-- The effective dim demand formed afresh; the composer reads it (R103, R105). -/
def handDim (s : State) : State :=
  { s with sched := { s.sched with effDim := s.sched.dimOverride.getD s.sched.dim } }

/-- The schedule results formed and each changed value handed on, in the order of R103. -/
def formResults (always : Bool) (s : State) : State :=
  let m := schedModeNow s
  let s1 : State := { s with sched := { s.sched with mode := m, plan := schedPlanNow s, dim := schedDimNow s } }
  let s2 := if always || decide (m ≠ s.sched.mode) then settle (nameSchedule s1 m) else s1
  handDim (handPlan always s2)

/-- The schedule is evaluated (R103). -/
def evaluate (s : State) : State := formResults false s

/-! ## The clock (R98, R99, R101) -/

/-- The milliseconds of a day. -/
def dayMs : Nat := 86400000

/-- Takes the midnight rollover when the ms of day stand at 86,400,000 or beyond (R98). -/
def takeMidnight (s : State) : State :=
  if dayMs ≤ s.clock.ms then
    reportRollover (setClock s fun c =>
      { c with ms := c.ms - dayMs, weekday := (c.weekday + 1) % 7, day := (c.day + 1) % 65536 })
  else s

/-- The clock advances by `n` ms (R98): midnight first, then the minute boundary it reaches or passes. -/
def advanceClock (s : State) (n : Nat) : State :=
  let crossed := decide (s.clock.ms / 60000 < (s.clock.ms + n) / 60000)
  let s1 := takeMidnight (setClock (between s) fun c => { c with ms := c.ms + n })
  if crossed then evaluate s1 else s1

/-- The milliseconds a crystal millisecond adds, with the accumulator after it (R99). -/
def crystalStep (acc trim : Int) : Nat × Int :=
  let a := acc + trim
  if 1000000 ≤ a then (2, a - 1000000) else if a ≤ -1000000 then (0, a + 1000000) else (1, a)

/-- A millisecond of the crystal (R99): it counts with the effective source CRYSTAL alone. With a gained millisecond the clock makes one advance of
2 ms, so that a minute boundary reached by the first of the two is evaluated, and what it raises is stamped, 1 ms past it (DESIGN CHOICE, unsafe;
log entry 69). -/
def takeCrystalMs (s : State) : State :=
  if effSource s = .crystal then
    let r := crystalStep s.clock.acc s.clock.trim
    advanceClock (setClock s fun c => { c with acc := r.2 }) r.1
  else s

/-- The milliseconds a window start adds with the effective source MAINS (R98). -/
def mainsMs (s : State) : Nat := if sixty s then (if s.clock.phase60 = 2 then 16 else 17) else 20

/-- What a window start adds to the clock (R98). -/
def windowClock (s : State) : State :=
  if effSource s = .mains then
    advanceClock (if sixty s then setClock s fun c => { c with phase60 := (c.phase60 + 1) % 3 } else s) (mainsMs s)
  else s

/-- The signed step of a SET_TIME (R101). -/
def timeStep (s : State) (weekday ms : Nat) : Int :=
  let d : Int := (weekPos weekday ms : Int) - (weekPos s.clock.weekday s.clock.ms : Int)
  if 302399999 < d then d - 604800000 else if d < -302400000 then d + 604800000 else d

/-- SET_TIME taken (R101). -/
def takeSetTime (s : State) (weekday ms : Nat) : State :=
  let d := timeStep s weekday ms
  evaluate (reportStep (setClock s fun c => { c with weekday := weekday, ms := ms, unset := false }) d)

end Sys2Proof.Machine
end

