-- ==== Sys2Proof/Machine/Proving.lean ====
section
/-! DEFINITION. Proving: lamp proving (chapter 7): which windows are judged, window verdicts, circuit verdicts and lamp faults, red status, and
learning. -/

namespace Sys2Proof.Machine

open Sys2Proof

/-! ## References and the window verdict (R129 to R133) -/

/-- The part of a reference entry for a tap state (R129). -/
def RefEntry.part (e : RefEntry) (t : Tap) : RefPart :=
  match t with
  | .bright => e.bright
  | .dim => e.dim

/-- The reference of a circuit for a tap state, if its part holds one (R129): a held field of 1 is yes (DEDUCED, unsafe; log entry 13). -/
def reference (s : State) (c : Fin 96) (t : Tap) : Option RefPart :=
  let p := RefEntry.part s.tables.reference[c] t
  if p.held = 1 then some p else none

/-- Proving is enabled for the circuit (R3): 1 is on (R181; DEDUCED, unsafe; log entry 13). -/
def provingOn (s : State) (c : Fin 96) : Bool := decide (s.tables.circuit[c].proving = 1)

/-- The supply is in range of the reference supply: from three quarters to five quarters (R130). -/
def supplyInRange (vref vsup : Nat) : Bool := decide (3 * vref ≤ 4 * vsup) && decide (4 * vsup ≤ 5 * vref)

/-- The expected current (R131). -/
def iexp (cls : LoadClass) (iref vref vsup : Nat) : Nat :=
  match cls with
  | .incandescent | .ledLinear => roundDiv (iref * vsup) vref
  | .ledCp => roundDiv (iref * vref) vsup

/-- The ratio q (R131). -/
def ratioOf (isum expected : Nat) : Nat := min 2000 (1000 * isum / expected)

/-- The count of lit lamps, by the nearest equal share (R132). -/
def lampsLit (k q : Nat) : Nat := min k ((k * q + 500) / 1000)

/-- The window verdict of a ratio (R132). -/
def windowVerdict (tLo tHi k q : Nat) : Verdict :=
  if 1000 + tHi < q then .high
  else if lampsLit k q = k then (if 1000 - tLo ≤ q then .ok else .low)
  else if lampsLit k q = 0 then .out
  else .partialOf (lampsLit k q)

/-- The presence verdict of a window (R133). -/
def presenceVerdict (threshold isum : Nat) : Verdict := if threshold ≤ isum then .present else .absent

/-- What an eligible window gives: its window verdict, none for SUPPLY_OOR, and its q (R130 to R133). -/
def judgeWindow (s : State) (c : Fin 96) (t : Tap) (isum vsup : Nat) : Option Verdict × Option Nat :=
  match (if provingOn s c then reference s c t else none) with
  | some p =>
    if supplyInRange p.vref vsup then
      let q := ratioOf isum (iexp (loadClassOf s c) p.iref p.vref vsup)
      (some (windowVerdict s.tables.proving.tLo s.tables.proving.tHi s.tables.circuit[c].k q), some q)
    else (none, none)
  | none => (some (presenceVerdict s.tables.proving.presence isum), none)

/-! ## The circuit verdict and lamp faults (R134, R135) -/

/-- Two window verdicts agree: PARTIAL agrees with PARTIAL whatever the counts (R134). -/
def agrees (a b : Verdict) : Bool :=
  match a, b with
  | .partialOf _, .partialOf _ => true
  | _, _ => decide (a = b)

/-- The lamp fault a verdict holds raised (R135). -/
def lampFault (s : State) (c : Fin 96) (v : Verdict) : Option LampFault :=
  match v with
  | .out => some .out
  | .absent => if provingOn s c then some .out else none
  | .partialOf _ => some .part
  | .low => some .low
  | .high => some .high
  | .ok | .present | .unknown | .forced => none

/-- The kind of a lamp fault (R135). -/
def LampFault.kind : LampFault → Kind
  | .out => .lampOut
  | .part => .lampPartial
  | .low => .lampLow
  | .high => .lampHigh

/-- The detail a verdict's lamp fault carries (R135). -/
def lampDetail (v : Verdict) : Detail :=
  match v with
  | .partialOf n => .lampCount n
  | _ => .absent

/-- A change of the lamp fault held: the one before is cleared first, then the new one is raised; an unchanged one does
neither (R135). -/
def changeLampFault (s : State) (c : Fin 96) (f : Option LampFault) (d : Detail) : State :=
  let old := s.prov.circuits[c].fault
  if old = f then s
  else
    let s1 := setProv s c fun r => { r with fault := f }
    let s2 := match old with | some k => clear s1 (LampFault.kind k) (num c) | none => s1
    match f with
    | some k => raise s2 (LampFault.kind k) (num c) d
    | none => s2

/-- The verdict changes, with the candidate none, the run 0 and the lamp faults of the change (R134 to R136). -/
def changeVerdict (s : State) (c : Fin 96) (v : Verdict) : State :=
  changeLampFault (setProv s c fun r => { r with verdict := v, cand := none, run := 0 }) c (lampFault s c v) (lampDetail v)

/-- The run that confirms a candidate (R134). -/
def confirmCount (s : State) (v : Verdict) : Nat :=
  match v with
  | .ok | .present => s.tables.proving.recoverConfirm
  | _ => s.tables.proving.failConfirm

/-- The candidate's run has reached its confirm count (R134). -/
def confirmDue (s : State) (c : Fin 96) : Option Verdict :=
  let r := s.prov.circuits[c]
  match r.cand with
  | some v => if confirmCount s v ≤ r.run then some v else none
  | none => none

/-- Takes the change of verdict when it is due (R134). -/
def takeConfirm (s : State) (c : Fin 96) : State :=
  match confirmDue s c with
  | some v => changeVerdict s c v
  | none => s

/-- A window verdict taken by the record: agreement, candidate or a new candidate (R134). -/
def countVerdict (r : ProvRec) (w : Verdict) : ProvRec :=
  if agrees w r.verdict then { r with verdict := w, cand := none, run := 0 }
  else
    match r.cand with
    | some v => if agrees w v then { r with cand := some w, run := bump 200 r.run } else { r with cand := some w, run := 1 }
    | none => { r with cand := some w, run := 1 }

/-! ## Red status (R141 to R143) -/

/-- The circuit gives red (R141). -/
def givesRed (s : State) (c : Fin 96) : Bool :=
  !cableActive s c && !forcedOff s c &&
    match s.prov.circuits[c].verdict with
    | .ok | .low | .partialOf _ | .high | .present => true
    | .unknown | .out | .absent | .forced => false

/-- The circuit is known not to show red, or to show it: its verdict is not UNKNOWN, or it is forced off, or it has an active cable
record (R142). -/
def redJudged (s : State) (c : Fin 96) : Bool :=
  decide (s.prov.circuits[c].verdict ≠ .unknown) || forcedOff s c || cableActive s c

/-- The status of a red set (R142). -/
def setStatus (s : State) (cs : List (Fin 96)) : SetStatus :=
  if cs.any (givesRed s) then .gives else if cs.all (redJudged s) then .lost else .unknown

/-- The statuses of a group's red sets in the circuit map (R142): a group of type UNUSED has none, whatever its red sets used (R1). -/
def setStatuses (s : State) (g : Fin 32) : List SetStatus :=
  match s.map with
  | some m => if live s g then (m.groups[g].redSets.toList.take s.tables.group[g].redSets).map (setStatus s) else []
  | none => []

/-- The red status of a group (R143). -/
def redStatusNow (s : State) (g : Fin 32) : RedStatus :=
  match s.map with
  | some m =>
    if !live s g then .unknown
    else if (setStatuses s g).any fun x => decide (x = .lost) then .lost
    else if (setStatuses s g).any fun x => decide (x = .unknown) then .unknown
    else if m.groups[g].red.all fun c => decide (s.prov.circuits[c].verdict = .ok) && !cableActive s c then .proven
    else .degraded
  | none => .unknown

/-- Hands one group's change of red status to the collector (R143): RED_LOST raised on becoming LOST, cleared on leaving it. -/
def handRed (before : Vector RedStatus 32) (s : State) (g : Fin 32) : State :=
  let old := before[g]
  let new := s.prov.red[g]
  if old = new then s
  else if new = .lost then raise s .redLost (num g) .absent
  else if old = .lost then clear s .redLost (num g)
  else s

/-- The red status of every group recomputed, and each change handed on (R143), in ascending group number, with the new status of every group standing
before the first (DESIGN CHOICE, unsafe; log entry 74). -/
def recomputeRed (s : State) : State :=
  let before := s.prov.red
  let s1 : State := { s with prov := { s.prov with red := tab fun g => redStatusNow s g } }
  settle ((idx 32).foldl (handRed before) s1)

/-! ## Forcing and release (R136) -/

/-- A circuit is placed forced off: its verdict becomes FORCED (R136). -/
def forceVerdict (s : State) (c : Fin 96) : State := changeVerdict s c .forced

/-- A circuit leaves the forced-off set: its verdict becomes UNKNOWN and red status is recomputed (R136). -/
def releaseVerdict (s : State) (c : Fin 96) : State := recomputeRed (changeVerdict s c .unknown)

/-! ## Interruptions (R128) -/

/-- A mains gap begins or ends (R128). -/
def gapProving (s : State) : State :=
  { s with prov := { s.prov with
      lastWin := Vector.replicate 12 none
      circuits := tab fun c => { s.prov.circuits[c] with onRun := 0 } } }

/-- A unit leaves ADMITTED (R128). R128 gives no order among the unit's circuits: the model takes them in ascending terminal number, the lamp fault of
each cleared with its hand-overs before the next circuit is taken, and the red status is recomputed once, after the last (DESIGN CHOICE, unsafe;
log entry 65). -/
def unitLeavesProving (s : State) (u : Fin 12) : State :=
  let s1 : State := { s with prov := { s.prov with lastWin := put s.prov.lastWin u none } }
  recomputeRed ((circuitsOf s u).foldl (init := s1) fun (s : State) (tc : Fin 8 × Fin 96) =>
    if s.prov.circuits[tc.2].verdict = .forced then s
    else setProv (changeVerdict s tc.2 .unknown) tc.2 fun r => { r with onRun := 0 })

/-! ## Learning (R137 to R140) -/

/-- A learn record aborted (R140). -/
def LearnRec.aborted (l : LearnRec) : LearnRec :=
  { l with state := .idle, count := 0, ring := [], result := none, fail := none }

/-- A learn record set to LEARNING (R137). -/
def LearnRec.started (t : Tap) (nMin nMax : Nat) : LearnRec :=
  { state := .learning, fail := none, tap := t, nMin := nMin, nMax := nMax, count := 0, ring := [], result := none }

/-- The mean Isum of the ring (R139). -/
def ringMean (l : LearnRec) : Nat := roundDiv ((l.ring.map Prod.fst).sum) 8

/-- The spread of the ring (R139). -/
def ringSpread (l : LearnRec) : Nat :=
  let xs := l.ring.map Prod.fst
  xs.foldl max 0 - xs.foldl min 65535

/-- The mean Vsup of the ring (R139). -/
def ringVmean (l : LearnRec) : Nat := roundDiv ((l.ring.map Prod.snd).sum) 8

/-- The convergence test is made: LEARNING with the count at N_min or above, and the ring full (R138, R139). -/
def testMade (l : LearnRec) : Bool :=
  decide (l.state = .learning) && decide (l.nMin ≤ l.count) && decide (l.ring.length = 8)

/-- The ring has converged (R139). -/
def converged (s : State) (l : LearnRec) : Bool :=
  decide (1000 * ringSpread l ≤ s.tables.proving.spread * ringMean l)

/-- The result of the convergence test (R138). -/
def ringResult (l : LearnRec) : LearnResult := ⟨ringMean l, ringSpread l, ringVmean l⟩

/-- A learn record that has failed (R139). -/
def LearnRec.failed (l : LearnRec) (f : LearnFail) : LearnRec :=
  { l with state := .failed, fail := some f, result := some (ringResult l) }

/-- Writes a part of a reference entry (R139). -/
def RefEntry.withPart (e : RefEntry) (t : Tap) (p : RefPart) : RefEntry :=
  match t with
  | .bright => { e with bright := p }
  | .dim => { e with dim := p }

/-- Learning of the circuit ends with its reference taken (R139). A mean above 32736, of Isums above the range of R123, is taken as it stands
(DESIGN CHOICE, unsafe; log entry 62). -/
def learnDone (s : State) (c : Fin 96) : State :=
  let l := s.prov.learn[c]
  let s1 := setTables s fun t =>
    { t with reference := upd t.reference c fun e => RefEntry.withPart e l.tap ⟨1, ringMean l, ringVmean l⟩ }
  let s2 := setProv s1 c fun r => { r with cand := none, run := 0 }
  setLearn s2 c fun l => { l with state := .done, result := some (ringResult l) }

/-- Takes the convergence of a learning circuit when it is due (R139). -/
def takeConverge (s : State) (c : Fin 96) : State :=
  let l := s.prov.learn[c]
  if testMade l && converged s l then
    if ringMean l < 32 then setLearn s c fun l => LearnRec.failed l .noLoad
    else if ringVmean l < 50 then setLearn s c fun l => LearnRec.failed l .noSupply
    else learnDone s c
  else s

/-- Takes the failure of a learning circuit that has not converged at N_max (R139). -/
def takeUnstable (s : State) (c : Fin 96) : State :=
  let l := s.prov.learn[c]
  if testMade l && !converged s l && decide (l.nMax ≤ l.count) then setLearn s c fun l => LearnRec.failed l .unstable
  else s

/-- A learning window taken into the record (R138). -/
def LearnRec.push (l : LearnRec) (isum vsup : Nat) : LearnRec :=
  { l with ring := (if l.ring.length = 8 then l.ring.tail else l.ring) ++ [(isum, vsup)], count := bump 1000 l.count }

/-- An eligible window of a circuit offered to learning (R138). -/
def learnWindow (s : State) (c : Fin 96) (t : Tap) (isum vsup : Nat) : State :=
  let l := s.prov.learn[c]
  if l.state = .learning ∧ l.tap = t then
    takeUnstable (takeConverge (setLearn s c fun l => LearnRec.push l isum vsup) c) c
  else s

/-! ## Intake (R126, R127) -/

/-- Windows of ON running at which a circuit of a load class is settled (R126). -/
def settledAt : LoadClass → Nat
  | .incandescent => 2
  | .ledLinear => 2
  | .ledCp => 3

/-- The log record for a window shows the terminal commanded ON; no record counts as OFF (R114). -/
def loggedOn (s : State) (u : Fin 12) (v : Nat) (t : Fin 8) : Bool :=
  match logOf s u v with
  | some r => mem r.on t.val
  | none => false

/-- The log record for the window before `v` shows the terminal commanded ON (R108, R114). -/
def loggedOnBefore (s : State) (u : Fin 12) (v : Nat) (t : Fin 8) : Bool :=
  match prevWin v with
  | some p => loggedOn s u p t
  | none => false

/-- The last window taken in from the unit is the one before `v`, at the same tap (R126). -/
def follows (s : State) (u : Fin 12) (v : Nat) (t : Tap) : Bool :=
  match s.prov.lastWin[u] with
  | some (w, tap) => decide (prevWin v = some w) && decide (tap = t)
  | none => false

/-- The on-run of a circuit after a frame (R126): `cont` says that the frame follows the last one taken in. -/
def nextOnRun (s : State) (u : Fin 12) (f : SenseFrame) (cont : Bool) (tc : Fin 8 × Fin 96) (x : Sample) : Nat :=
  if loggedOn s u f.window tc.1 && x.driven && !x.ovc then
    bump 3 (if cont then s.prov.circuits[tc.2].onRun else 0)
  else 0

/-- The window is eligible for the circuit (R127). -/
def eligible (s : State) (u : Fin 12) (v : Nat) (tc : Fin 8 × Fin 96) : Bool :=
  loggedOn s u v tc.1 && loggedOnBefore s u v tc.1 &&
    decide (settledAt (loadClassOf s tc.2) ≤ s.prov.circuits[tc.2].onRun) && !forcedOff s tc.2

/-- An eligible window judged: the last measurement, the circuit verdict, and learning (R130 to R134, R138). -/
def judgeEligible (s : State) (f : SenseFrame) (c : Fin 96) (x : Sample) : State :=
  let w := judgeWindow s c f.tap x.isum f.vsup
  let s1 := setProv s c fun r => { r with last := some ⟨f.window, f.tap, x.isum, f.vsup, w.1, w.2⟩ }
  let s2 := match w.1 with
    | some v => takeConfirm (setProv s1 c fun r => countVerdict r v) c
    | none => s1
  learnWindow s2 c f.tap x.isum f.vsup

/-- The frame's window is eligible for the circuit, its on-run taken with the frame (R126, R127). -/
def eligibleIn (s : State) (u : Fin 12) (f : SenseFrame) (xs : Vector Sample 8) (tc : Fin 8 × Fin 96) : Bool :=
  eligible (setProv s tc.2 fun r => { r with onRun := nextOnRun s u f (follows s u f.window f.tap) tc xs[tc.1] }) u f.window tc

/-- The circuits whose window the frame lets be judged: eligible, and not SUPPLY_OOR (R127, R130, R134). -/
def judgedBy (s : State) (u : Fin 12) (f : SenseFrame) (xs : Vector Sample 8) : List (Fin 96) :=
  ((circuitsOf s u).filter fun tc =>
    eligibleIn s u f xs tc && (judgeWindow s tc.2 f.tap xs[tc.1].isum f.vsup).1.isSome).map Prod.snd

/-- The circuits of which the frame brings a learning window (R138). -/
def learnedBy (s : State) (u : Fin 12) (f : SenseFrame) (xs : Vector Sample 8) : List (Fin 96) :=
  ((circuitsOf s u).filter fun tc =>
    eligibleIn s u f xs tc && decide (s.prov.learn[tc.2].state = .learning) && decide (s.prov.learn[tc.2].tap = f.tap)).map Prod.snd

/-- Lamp proving's work on one circuit of a frame (R126, R127). An Isum above 32736, which the field of the frame can carry and R123 does not give,
is judged and learned as it stands (DESIGN CHOICE, unsafe; log entry 62). -/
def proveCircuit (u : Fin 12) (f : SenseFrame) (xs : Vector Sample 8) (cont : Bool) (s : State) (tc : Fin 8 × Fin 96) : State :=
  let x := xs[tc.1]
  let n := nextOnRun s u f cont tc x
  let s1 := setProv s tc.2 fun r => { r with onRun := n }
  if eligible s1 u f.window tc then judgeEligible s1 f tc.2 x else s1

/-- Stage 3 of intake: lamp proving's work on a frame, its samples in terminal order (R116, R126, R143). -/
def proveFrame (s : State) (u : Fin 12) (f : SenseFrame) (xs : Vector Sample 8) : State :=
  let s1 := (circuitsOf s u).foldl (proveCircuit u f xs (follows s u f.window f.tap)) s
  recomputeRed { s1 with prov := { s1.prov with lastWin := put s1.prov.lastWin u (some (f.window, f.tap)) } }

end Sys2Proof.Machine
end

