-- ==== Sys2Proof/Machine/Cable.lean ====
section
/-! DEFINITION. Cable: cable supervision (chapter 8): presample tests, overcurrent retry, observed lit and cross-feed, earth leakage. -/

namespace Sys2Proof.Machine

open Sys2Proof

/-! ## Test choice (R147) -/

/-- Cable test is enabled for the circuit (R3): 1 is on (R181; DEDUCED, unsafe; log entry 13). -/
def testOn (s : State) (c : Fin 96) : Bool := decide (s.tables.circuit[c].cableTest = 1)

/-- The circuit is eligible for a presample test in the window composed: `on` is the mask just composed, `w` the window of the
record before it (R147). -/
def testEligible (s : State) (u : Fin 12) (w : Nat) (on : BitVec 8) (tc : Fin 8 × Fin 96) : Bool :=
  let r := s.cable.circuits[tc.2]
  testOn s tc.2 && r.inFlight.isNone && !loggedOn s u w tc.1 && !mem on tc.1.val &&
    decide (s.tables.cable.testInterval ≤ r.sinceTest)

/-- The circuit chosen for a test: of the eligible the longest untested, then the lowest terminal (R147). -/
def testChoice (s : State) (u : Fin 12) (w : Nat) (on : BitVec 8) : Option (Fin 8 × Fin 96) :=
  ((circuitsOf s u).filter (testEligible s u w on)).foldl (init := (none : Option (Fin 8 × Fin 96))) fun best tc =>
    match best with
    | some b => if s.cable.circuits[b.2].sinceTest < s.cable.circuits[tc.2].sinceTest then some tc else best
    | none => some tc

/-! ## Test results (R148, R149) -/

/-- The class of a residual (R149). -/
def testClass (s : State) (residual : Nat) : TestClass :=
  if s.tables.cable.openThreshold ≤ residual then .isOpen
  else if residual ≤ s.tables.cable.lowThreshold then .low
  else .high

/-- How a result compares with the expected class (R149). -/
inductive TestJudgement where
  | agree | doubtful | mismatch (m : Mismatch)
deriving DecidableEq, Repr

/-- The judgement of a class for a load class: LOW is expected of INCANDESCENT, HIGH of the LED classes (R149). -/
def judgeTest (l : LoadClass) (k : TestClass) : TestJudgement :=
  match l, k with
  | _, .isOpen => .mismatch .isOpen
  | .incandescent, .low => .agree
  | .incandescent, .high => .doubtful
  | .ledLinear, .low | .ledCp, .low => .mismatch .short
  | .ledLinear, .high | .ledCp, .high => .agree

/-- CABLE_OPEN is cleared where raised (R149). -/
def clearOpen (s : State) (c : Fin 96) : State :=
  if s.cable.circuits[c].openRaised then
    clear (setCable s c fun r => { r with openRaised := false }) .cableOpen (num c)
  else s

/-- CABLE_SHORT is cleared where raised (R149). -/
def clearShort (s : State) (c : Fin 96) : State :=
  if s.cable.circuits[c].shortRaised then
    clear (setCable s c fun r => { r with shortRaised := false }) .cableShort (num c)
  else s

/-- CABLE_OPEN is raised unless raised already (R149). -/
def raiseOpen (s : State) (c : Fin 96) (k : TestClass) : State :=
  if s.cable.circuits[c].openRaised then s
  else raise (setCable s c fun r => { r with openRaised := true }) .cableOpen (num c) (.testClass k)

/-- CABLE_SHORT is raised unless raised already (R149). -/
def raiseShort (s : State) (c : Fin 96) (k : TestClass) : State :=
  if s.cable.circuits[c].shortRaised then s
  else raise (setCable s c fun r => { r with shortRaised := true }) .cableShort (num c) (.testClass k)

/-- The mismatch run has reached the test confirm count (R149). -/
def cableFaultDue (s : State) (c : Fin 96) : Option Mismatch :=
  let r := s.cable.circuits[c]
  match r.cand with
  | some m => if s.tables.cable.testConfirm ≤ r.mrun then some m else none
  | none => none

/-- The class of the last result, which is the detail of the fault confirmed (R149). -/
def lastClass (s : State) (c : Fin 96) : TestClass :=
  match s.cable.circuits[c].lastTest with
  | some (_, k) => k
  | none => .isOpen

/-- Holds the candidate's cable fault raised when its run has confirmed it; the other of the two is cleared first (R149). -/
def takeCableFault (s : State) (c : Fin 96) : State :=
  match cableFaultDue s c with
  | some .isOpen => raiseOpen (clearShort s c) c (lastClass s c)
  | some .short => raiseShort (clearOpen s c) c (lastClass s c)
  | none => s

/-- A mismatch counted (R149). -/
def countMismatch (r : CableRec) (m : Mismatch) : CableRec :=
  if r.cand = some m then { r with mrun := bump 10 r.mrun } else { r with cand := some m, mrun := 1 }

/-- A test result taken: classified, recorded and judged (R148, R149). -/
def takeTestResult (s : State) (c : Fin 96) (residual : Nat) : State :=
  let k := testClass s residual
  let s1 := setCable s c fun r => { r with sinceTest := 0, lastTest := some (residual, k) }
  match judgeTest (loadClassOf s c) k with
  | .agree => clearShort (clearOpen (setCable s1 c fun r => { r with cand := none, mrun := 0 }) c) c
  | .doubtful => setCable s1 c fun r => { r with cand := none, mrun := 0 }
  | .mismatch m => takeCableFault (setCable s1 c fun r => countMismatch r m) c

/-- The test of the circuit in flight for window `v` is resolved, with its result when the frame shows TESTED (R148). -/
def resolveTest (v : Nat) (xs : Option (Vector Sample 8)) (s : State) (tc : Fin 8 × Fin 96) : State :=
  if s.cable.circuits[tc.2].inFlight = some v then
    let s1 := setCable s tc.2 fun r => { r with inFlight := none }
    match xs with
    | some x => if x[tc.1].tested then takeTestResult s1 tc.2 x[tc.1].residual else s1
    | none => s1
  else s

/-- The circuits whose test in flight for window `v` a frame brings a result of (R148). -/
def testedBy (s : State) (u : Fin 12) (v : Nat) (xs : Vector Sample 8) : List (Fin 96) :=
  ((circuitsOf s u).filter fun tc => decide (s.cable.circuits[tc.2].inFlight = some v) && xs[tc.1].tested).map Prod.snd

/-- The exchange that should bring the frame for window `v` resolves the tests in flight on the unit (R148). -/
def resolveTests (s : State) (u : Fin 12) (v : Nat) (xs : Option (Vector Sample 8)) : State :=
  (circuitsOf s u).foldl (resolveTest v xs) s

/-- Every test in flight on the unit is abandoned (R148). -/
def abandonTests (s : State) (u : Fin 12) : State :=
  (circuitsOf s u).foldl (init := s) fun (s : State) (tc : Fin 8 × Fin 96) =>
    setCable s tc.2 fun r => { r with inFlight := none }

/-! ## Overcurrent (R152 to R154) -/

/-- An OVC flag taken for a circuit (R152), OVERCURRENT raised before lamp proving is handed the change (DEDUCED, unsafe; log entry 76). -/
def takeOvc (s : State) (c : Fin 96) : State :=
  if s.cable.circuits[c].retry = .normal then
    let n := bump 11 s.cable.circuits[c].trips
    let s1 := setCable s c fun r => { r with trips := n, cleanOn := 0 }
    if n ≤ s.tables.cable.maxRetries then
      forceVerdict (setCable s1 c fun r =>
        { r with retry := .retryWait, retryTimer := 0, retryFresh := !s.inPulse }) c
    else
      forceVerdict (raise (setCable s1 c fun r => { r with retry := .latched, ovcRaised := true }) .overcurrent (num c)
        .absent) c
  else s

/-- The OVC flag of a circuit in a frame (R152). -/
def ovcCircuit (xs : Vector Sample 8) (s : State) (tc : Fin 8 × Fin 96) : State :=
  if xs[tc.1].ovc then takeOvc s tc.2 else s

/-- The retry timers and the clean-on timers advanced by one pulse (R152, R153): only a circuit in RETRY_WAIT counts its retry time. -/
def advanceRetry (r : CableRec) : CableRec :=
  match r.retry with
  | .retryWait => { r with retryTimer := if r.retryFresh then r.retryTimer else bump 100 r.retryTimer, retryFresh := false }
  | .normal | .latched => r

/-- The most recent log record of the circuit's unit shows it commanded ON (R153). -/
def lastCommandedOn (s : State) (c : Fin 96) : Bool :=
  match unitOf s c, terminalOf s c with
  | some u, some t => (match s.bus.units[u].log.getLast? with | some r => mem r.on t.val | none => false)
  | _, _ => false

/-- The clean-on timer at a pulse (R153). A timer above a trip-clear time lowered by a write stays where it stands (DESIGN CHOICE, unsafe;
log entry 54). -/
def advanceClean (s : State) (c : Fin 96) (r : CableRec) : CableRec :=
  if inMap s c = true ∧ r.retry = .normal ∧ lastCommandedOn s c = true ∧ r.cleanOn < s.tables.cable.tripClear then
    { r with cleanOn := r.cleanOn + 1 }
  else r

/-- The cable records' timers advanced by one pulse (R146, R153). A record outside the map is held at its POR values. -/
def advanceCable (s : State) : State :=
  let rs : Vector CableRec 96 := tab fun c =>
    let r := s.cable.circuits[c]
    if inMap s c then advanceRetry { r with sinceTest := bump 65535 r.sinceTest } else r
  { s with cable := { s.cable with circuits := rs } }

/-- The circuit's retry delay has run (R153). -/
def releaseDue (s : State) (c : Fin 96) : Bool :=
  decide (s.cable.circuits[c].retry = .retryWait) && decide (s.tables.cable.retryDelay ≤ s.cable.circuits[c].retryTimer)

/-- Takes the release of a circuit when it is due (R153). Its retry timer is set to 0 (DESIGN CHOICE, unsafe; log entry 44). -/
def takeRelease (s : State) (c : Fin 96) : State :=
  if releaseDue s c then
    releaseVerdict (setCable s c fun r => { r with retry := .normal, retryTimer := 0, retryFresh := false }) c
  else s

/-- The circuit has run clean for the trip-clear time (R153). -/
def tripClearDue (s : State) (c : Fin 96) : Bool :=
  decide (s.cable.circuits[c].retry = .normal) && decide (s.tables.cable.tripClear ≤ s.cable.circuits[c].cleanOn)

/-- Forgets the circuit's trips when it has run clean (R153). -/
def takeTripClear (s : State) (c : Fin 96) : State :=
  if tripClearDue s c then setCable s c fun r => { r with trips := 0 } else s

/-- The clean-on timers advanced by one pulse, after the releases of the pulse (R153). -/
def advanceCleanOn (s : State) : State :=
  { s with cable := { s.cable with circuits := tab fun c => advanceClean s c s.cable.circuits[c] } }

/-! ## Observed lit (R150, R151) -/

/-- The voltage threshold (R150). -/
def litThreshold (s : State) (vsup : Nat) : Nat :=
  let rt := s.tables.cable.ratio * vsup / 1000
  match (ThresholdMode.ofCode s.tables.cable.mode).getD .both with
  | .fixed => s.tables.cable.vFix
  | .ratio => rt
  | .both => min s.tables.cable.vFix rt

/-- Voltage or current is present on the terminal (R150). -/
def observedLit (s : State) (vsup : Nat) (x : Sample) : Bool :=
  decide (litThreshold s vsup < x.vterm) || decide (s.tables.cable.offCurrent < x.isum)

/-- The log record for a window shows a test request on the terminal (R114). -/
def loggedTest (s : State) (u : Fin 12) (v : Nat) (t : Fin 8) : Bool :=
  match logOf s u v with
  | some r => mem r.test t.val
  | none => false

/-- The log record for a window shows the role called for on the terminal; no record counts as not called for (R114). -/
def loggedCalled (s : State) (u : Fin 12) (v : Nat) (t : Fin 8) : Bool :=
  match logOf s u v with
  | some r => mem r.called t.val
  | none => false

/-- The window is one in which the circuit is judged for observed lit (R150). -/
def litJudged (s : State) (u : Fin 12) (v : Nat) (t : Fin 8) (x : Sample) : Bool :=
  !loggedOn s u v t && !loggedOnBefore s u v t && !loggedTest s u v t && !x.tested

/-- The circuits a frame judges for observed lit (R150). -/
def litBy (s : State) (u : Fin 12) (v : Nat) (xs : Vector Sample 8) : List (Fin 96) :=
  ((circuitsOf s u).filter fun tc => litJudged s u v tc.1 xs[tc.1]).map Prod.snd

/-- The judgement passed to the conflict monitor: an unexpected green observation marks the group (R36, R151). -/
def passGreen (s : State) (u : Fin 12) (v : Nat) (tc : Fin 8 × Fin 96) (lit : Bool) : State :=
  if lit && decide (roleOf s tc.2 = some .green) && !loggedCalled s u v tc.1 then
    match groupOf s tc.2 with
    | some g => markSeen s g
    | none => s
  else s

/-- The counts of a judged window (R151). -/
def countLit (r : CableRec) (lit : Bool) : CableRec :=
  if lit then { r with litRun := bump 20 r.litRun, quiet := 0 }
  else { r with litRun := 0, quiet := if r.crossRaised then bump 25 r.quiet else r.quiet }

/-- CROSS_FEED is to be raised for the circuit (R151). -/
def crossRaiseDue (s : State) (c : Fin 96) : Bool :=
  decide (s.tables.cable.crossConfirm ≤ s.cable.circuits[c].litRun) && !s.cable.circuits[c].crossRaised

/-- Raises CROSS_FEED when it is due (R151). -/
def takeCrossRaise (s : State) (c : Fin 96) : State :=
  if crossRaiseDue s c then raise (setCable s c fun r => { r with crossRaised := true }) .crossFeed (num c) .absent else s

/-- CROSS_FEED is to be cleared for the circuit (R151). -/
def crossClearDue (s : State) (c : Fin 96) : Bool :=
  s.cable.circuits[c].crossRaised && decide (25 ≤ s.cable.circuits[c].quiet)

/-- Clears CROSS_FEED when it is due (R151). -/
def takeCrossClear (s : State) (c : Fin 96) : State :=
  if crossClearDue s c then clear (setCable s c fun r => { r with crossRaised := false, quiet := 0 }) .crossFeed (num c)
  else s

/-- Cable supervision's observed-lit work on one circuit of a frame (R150, R151). -/
def litCircuit (u : Fin 12) (f : SenseFrame) (xs : Vector Sample 8) (s : State) (tc : Fin 8 × Fin 96) : State :=
  let x := xs[tc.1]
  if litJudged s u f.window tc.1 x then
    let lit := observedLit s f.vsup x
    let s1 := passGreen s u f.window tc lit
    takeCrossClear (takeCrossRaise (setCable s1 tc.2 fun r => countLit r lit) tc.2) tc.2
  else if loggedOn s u f.window tc.1 then setCable s tc.2 fun r => { r with litRun := 0 }
  else s

/-! ## Earth leakage (R155, R156) -/

/-- The circuits of the unit commanded ON in a window, ascending (R155). -/
def onCircuits (s : State) (u : Fin 12) (v : Nat) : List (Fin 96) :=
  (idx 96).filter fun c => (circuitsOf s u).any fun tc => decide (tc.2 = c) && loggedOn s u v tc.1

/-- A leakage reading counted (R155, R156). -/
def countLeak (s : State) (u : Fin 12) (v leakage : Nat) (r : LeakRec) : LeakRec :=
  if s.tables.cable.leakThreshold < leakage then
    let n := bump 50 r.run
    { r with
      run := n, quiet := 0
      suspects := if n = 1 then onCircuits s u v else r.suspects.filter fun c => (onCircuits s u v).contains c }
  else { r with run := 0, suspects := [], quiet := if r.raised then bump 200 r.quiet else r.quiet }

/-- EARTH_LEAKAGE is to be raised for the unit (R155). -/
def leakRaiseDue (s : State) (u : Fin 12) : Bool :=
  decide (s.tables.cable.leakConfirm ≤ s.cable.leak[u].run) && !s.cable.leak[u].raised

/-- Raises EARTH_LEAKAGE when it is due, with the suspect list (R155). -/
def takeLeakRaise (s : State) (u : Fin 12) : State :=
  if leakRaiseDue s u then
    raise (setLeak s u fun r => { r with raised := true }) .earthLeakage (num u) (.suspects s.cable.leak[u].suspects)
  else s

/-- EARTH_LEAKAGE is to be cleared for the unit (R156). -/
def leakClearDue (s : State) (u : Fin 12) : Bool :=
  s.cable.leak[u].raised && decide (s.tables.cable.leakClear ≤ s.cable.leak[u].quiet)

/-- Clears EARTH_LEAKAGE when it is due (R156). -/
def takeLeakClear (s : State) (u : Fin 12) : State :=
  if leakClearDue s u then clear (setLeak s u fun r => { r with raised := false }) .earthLeakage (num u) else s

/-- The leakage reading of a frame judged (R155, R156). -/
def judgeLeak (s : State) (u : Fin 12) (f : SenseFrame) : State :=
  takeLeakClear (takeLeakRaise (setLeak s u (countLeak s u f.window f.leakage)) u) u

/-- The unit leaves ADMITTED: its tests are abandoned and its leakage counts start afresh (R113, R156). -/
def unitLeavesCable (s : State) (u : Fin 12) : State :=
  setLeak (abandonTests s u) u fun r => { r with run := 0, quiet := 0, suspects := [] }

/-! ## Work on one frame (R157) -/

/-- Stage 4 of intake: cable supervision's work on a frame, in the order of R157; `v` is the window before the round's. Within a step the circuits
of the unit are taken in terminal order (DESIGN CHOICE, unsafe; log entry 47). Red status is recomputed once for the frame (R143), and the rules
leave open whether before or after the raises of steps 3 and 4: the model recomputes after step 4, so RED_LOST follows CROSS_FEED and EARTH_LEAKAGE
of the same frame (DESIGN CHOICE, unsafe; log entry 74). -/
def superviseFrame (s : State) (u : Fin 12) (v : Nat) (f : SenseFrame) (xs : Vector Sample 8) : State :=
  let s1 := resolveTests s u v (some xs)
  let s2 := (circuitsOf s u).foldl (ovcCircuit xs) s1
  let s3 := (circuitsOf s u).foldl (litCircuit u f xs) s2
  recomputeRed (judgeLeak s3 u f)

end Sys2Proof.Machine
end

