-- ==== Sys2Proof/Machine/Bus.lean ====
section
/-! DEFINITION. Bus: the field bus controller (chapter 6): composition, applied dim, the poll round, misses and admission, intake, unit flags,
pass-through and sense reports. -/

namespace Sys2Proof.Machine

open Sys2Proof

/-! ## Composition (R114, R115) -/

/-- The circuit has no DIM reference and is not LEARNING in the DIM tap state (R115). -/
def dimUnlearned (s : State) (c : Fin 96) : Bool :=
  provingOn s c && (reference s c .dim).isNone &&
    !(decide (s.prov.learn[c].state = .learning) && decide (s.prov.learn[c].tap = .dim))

/-- A circuit of the unit keeps it from dimming (R115). -/
def unitUnlearned (s : State) (u : Fin 12) : Bool := (circuitsOf s u).any fun tc => dimUnlearned s tc.2

/-- The dim tap composed for a unit (R115). -/
def dimFor (s : State) (u : Fin 12) : Tap :=
  if s.sched.effDim = .dim ∧ unitUnlearned s u = false then .dim else .bright

/-- The mask, by terminal, of the unit's circuits that pass a test. -/
def terminalMask (s : State) (u : Fin 12) (f : Fin 8 × Fin 96 → Bool) : BitVec 8 :=
  (circuitsOf s u).foldl (fun (acc : BitVec 8) (tc : Fin 8 × Fin 96) => if f tc then ins acc tc.1.val else acc) 0

/-- The circuit is commanded ON in the window composed now (R114). -/
def commandOn (s : State) (c : Fin 96) : Bool :=
  composedLit s c && !forcedOff s c && decide (s.jm.mode ≠ .dark)

/-- Bleed is enabled for the circuit (R3): 1 is on (R181; DEDUCED, unsafe; log entry 13). -/
def bleedOn (s : State) (c : Fin 96) : Bool := decide (s.tables.circuit[c].bleed = 1)

/-- The window record composed for a unit, with the test choice made (R114, R147). -/
def composeRecord (s : State) (u : Fin 12) : WinRec × Option (Fin 96) :=
  let on := terminalMask s u fun tc => commandOn s tc.2
  let choice := testChoice s u s.bus.seq on
  let test : BitVec 8 := match choice with | some tc => ins 0 tc.1.val | none => 0
  ({ window := nextWin s.bus.seq
     tap := dimFor s u
     on := on
     test := test
     bleed := terminalMask s u fun tc => !mem on tc.1.val && bleedOn s tc.2 && !mem test tc.1.val
     called := terminalMask s u fun tc => called s tc.2
     sent := true },
   choice.map Prod.snd)

/-- The DRIVE frame of a window record, its masks in the unit's report order (R7, R183). -/
def driveFrame (s : State) (u : Fin 12) (r : WinRec) : BusFrame :=
  let o := reportOrder s u
  .drive u r.window r.tap (permute o r.on) (permute o r.test) (permute o r.bleed)

/-- A log with a record joined to it, holding the last four (R114). -/
def joinLog (l : List WinRec) (r : WinRec) : List WinRec := if l.length < 4 then l ++ [r] else l.tail ++ [r]

/-- A frame sent on the bus in this round. -/
def sendBus (s : State) (f : BusFrame) : State := setBus s fun b => { b with sent := b.sent ++ [f] }

/-- The composer builds, logs and sends the unit's DRIVE frame for the next window (R114, R115, R147). -/
def compose (s : State) (u : Fin 12) : State :=
  let rc := composeRecord s u
  let s1 := match rc.2 with
    | some c => setCable s c fun r => { r with inFlight := some rc.1.window }
    | none => s
  sendBus (setUnit s1 u fun x => { x with dim := rc.1.tap, log := joinLog x.log rc.1 }) (driveFrame s u rc.1)

/-! ## The poll round (R109) -/

/-- Windows between roll-call rounds (R109). -/
def rollPeriod (s : State) : Nat := if sixty s then 60 else 50

/-- Rewrites the round in progress. -/
def setRound (s : State) (f : Round → Round) : State := setBus s fun b => { b with round := f b.round }

/-- The units to be called in a roll call, ascending (R109). -/
def unadmitted (s : State) : List (Fin 12) :=
  (idx 12).filter fun u =>
    let st := s.bus.units[u].state
    decide (st = .expected) || decide (st = .mismatch) || decide (st = .lost)

/-- Step 3 of the round: the PASS of this round (R109, R119). -/
def passStep (s : State) : State :=
  match s.bus.slot with
  | .waiting m true =>
    if s.bus.units[m.unit].state = .admitted then
      sendBus (setBus s fun b => { b with slot := .listening m }) (.pass m.unit m.kind m.payload)
    else setBus s fun b => { b with slot := .answered m .abandoned [] }
  | .empty | .waiting _ false | .listening _ | .answered _ _ _ => s

/-- Step 2 of the round: the next unit is called, or step 3 is taken (R109, R111). -/
def rollStep (s : State) : State :=
  match s.bus.round.roll with
  | u :: rest => sendBus (setRound s fun r => { r with roll := rest, called := some u }) (.rollCall u)
  | [] => passStep (setRound s fun r => { r with finished := true })

/-- The round goes on to its next exchange (R109). It waits while an exchange or a roll call is outstanding. -/
def goRound (s : State) : State :=
  let r := s.bus.round
  if !r.active || r.awaiting.isSome || r.called.isSome || r.finished then s
  else
    match r.poll with
    | u :: rest => compose (setRound s fun r => { r with poll := rest, awaiting := some u }) u
    | [] => rollStep (if r.isRoll then setRound s fun r => { r with roll := unadmitted s, isRoll := false } else s)

/-! ## DIM_UNLEARNED (R115) -/

/-- Judges DIM_UNLEARNED for a unit at a window start (R115). -/
def judgeDim (s : State) (u : Fin 12) : State :=
  let x := s.bus.units[u]
  if x.state = .unused then s
  else
    let bad := decide (s.sched.effDim = .dim) && unitUnlearned s u
    if bad && !x.dimRaised then
      raise (setUnit s u fun x => { x with dimRaised := true }) .dimUnlearned (num u) .absent
    else if !bad && x.dimRaised then
      clear (setUnit s u fun x => { x with dimRaised := false }) .dimUnlearned (num u)
    else s

/-! ## Beginning of a round (R109) -/

/-- A roll-call round is due (R109). -/
def rollDue (s : State) : Bool := decide (rollPeriod s ≤ s.bus.sinceRoll)

/-- The round in progress becomes a roll-call round when one is due (R109). -/
def takeRollRound (s : State) : State :=
  if rollDue s && s.bus.round.active then
    setBus s fun b => { b with sinceRoll := 0, round := { b.round with isRoll := true, finished := false } }
  else s

/-- The ADMITTED units, ascending (R109). -/
def admitted (s : State) : List (Fin 12) := (idx 12).filter fun u => decide (s.bus.units[u].state = .admitted)

/-- A waiting PASS is carried in the first round to begin after it was taken (R119). -/
def duePass (x : PassSlot) : PassSlot :=
  match x with
  | .waiting m _ => .waiting m true
  | .empty | .listening _ | .answered _ _ _ => x

/-- The poll round begins at a window start while the bus runs (R108, R109, R115). R115 judges DIM_UNLEARNED at each window start and does not say
where within it: the model judges it after the clock, the counts and the pulse of that start and before the first DRIVE frame is composed (DESIGN
CHOICE, unsafe; log entry 64), of the units in ascending number (R161; DESIGN CHOICE, unsafe; log entry 50). -/
def beginRound (s : State) : State :=
  if busRuns s then
    let s1 := (idx 12).foldl judgeDim s
    let s2 := setBus s1 fun b =>
      { b with
        slot := duePass b.slot, sinceRoll := bump 60 b.sinceRoll
        round := { active := true, poll := admitted s1, awaiting := none, isRoll := false, roll := [], called := none,
                   finished := false } }
    goRound (takeRollRound s2)
  else s

/-! ## Leaving ADMITTED (R49, R113) -/

/-- The unit's input entries go INACTIVE (R49), in ascending entry number (DESIGN CHOICE, unsafe; log entry 67). -/
def dropInputs (s : State) (u : Fin 12) : State :=
  (idx 64).foldl (init := s) fun (s : State) (e : Fin 64) =>
    if inputUnit s e = some u then inputOff s e else s

/-- What leaving ADMITTED does to a unit and hands to the other blocks (R113). The rules give no order among the blocks it is handed to: the model
takes the plan engine first, with its clears of DETECTOR_STUCK, then cable supervision, then lamp proving with its clears of lamp faults (DESIGN
CHOICE, unsafe; log entry 73). -/
def leaveAdmitted (s : State) (u : Fin 12) : State :=
  let s1 := setUnit s u fun x => { x with miss := 0, hotRun := 0, hotQuiet := 0, log := [] }
  unitLeavesProving (unitLeavesCable (settle (dropInputs s1 u)) u) u

/-- The unit's misses have reached the limit, as judged at a miss that has been counted (R112). -/
def lostDue (s : State) (u : Fin 12) : Bool :=
  decide (s.bus.units[u].state = .admitted) && decide (s.tables.cable.missLimit ≤ s.bus.units[u].miss)

/-- The unit becomes LOST when its misses have reached the limit (R112, R113). The rules give no order between the raise of FIU_LOST and the
hand-overs of leaving ADMITTED, whose clears it may evict or be spared by: the model raises and hands on first (DESIGN CHOICE, unsafe; log
entry 70). -/
def takeLost (s : State) (u : Fin 12) : State :=
  if lostDue s u then
    let s1 := setUnit s u fun x => { x with state := .lost, lostRaised := true }
    leaveAdmitted (if s.bus.units[u].lostRaised then s1 else raise s1 .fiuLost (num u) .absent) u
  else s

/-! ## Exchanges (R112) -/

/-- Misses and valid frames are counted: no gap is in progress and the window reported is no gap window (R112, R116). -/
def counting (s : State) : Bool := !s.mains.gap && !s.bus.lastInGap

/-- The window before the one of this round (R112). -/
def lastWindowNo (s : State) : Nat := (s.bus.seq + 254) % 255

/-- The window number expected of the unit (R112). -/
def expectedWindow (s : State) (u : Fin 12) : Nat :=
  if (logOf s u (lastWindowNo s)).isSome then lastWindowNo s else 255

/-- A miss counted (R112). -/
def countMiss (s : State) (u : Fin 12) : State := setUnit s u fun x => { x with miss := bump 10 x.miss }

/-- The exchange with the unit ends as a miss (R112, R148). A miss that is not counted leaves the count and loses no unit. -/
def takeMiss (s : State) (u : Fin 12) : State :=
  let s1 := resolveTests (between s) u (lastWindowNo s) none
  if counting s then takeLost (countMiss s1 u) u else s1

/-- The exchange awaited is over and the round goes on (R109). -/
def exchangeOver (s : State) : State := goRound (setRound s fun r => { r with awaiting := none })

/-- No valid SENSE came from the unit awaited (R112). -/
def senseMissed (s : State) (u : Fin 12) : State :=
  if s.bus.round.awaiting = some u then exchangeOver (takeMiss s u) else s

/-- The frame passes every check of R112. -/
def validSense (s : State) (u : Fin 12) (f : SenseFrame) : Bool :=
  f.crcGood && f.sizeGood && decide (f.unit = num u) && decide (f.window = expectedWindow s u)

/-! ## Intake (R116) -/

/-- The frame is discarded at the gap test (R116). -/
def gapFrame (s : State) : Bool := s.bus.lastInGap || s.bus.windowInGap

/-- The samples in terminal order (R7). -/
def inOrder (s : State) (u : Fin 12) (f : SenseFrame) : Vector Sample 8 :=
  tab fun t => f.samples[(reportOrder s u).pos t]

/-- The OVERTEMP flag counted (R117). -/
def countHot (hot : Bool) (x : UnitRec) : UnitRec :=
  if hot then { x with hotRun := bump 10 x.hotRun, hotQuiet := 0 }
  else { x with hotRun := 0, hotQuiet := bump 50 x.hotQuiet }

/-- FIU_OVERTEMP is to be raised for the unit (R117). -/
def hotRaiseDue (s : State) (u : Fin 12) : Bool := decide (10 ≤ s.bus.units[u].hotRun) && !s.bus.units[u].hotRaised

/-- Raises FIU_OVERTEMP when it is due (R117). -/
def takeHotRaise (s : State) (u : Fin 12) : State :=
  if hotRaiseDue s u then raise (setUnit s u fun x => { x with hotRaised := true }) .fiuOvertemp (num u) .absent else s

/-- FIU_OVERTEMP is to be cleared for the unit (R117). -/
def hotClearDue (s : State) (u : Fin 12) : Bool := s.bus.units[u].hotRaised && decide (50 ≤ s.bus.units[u].hotQuiet)

/-- Clears FIU_OVERTEMP when it is due (R117). -/
def takeHotClear (s : State) (u : Fin 12) : State :=
  if hotClearDue s u then clear (setUnit s u fun x => { x with hotRaised := false }) .fiuOvertemp (num u) else s

/-- Stage 5 of intake: the OVERTEMP flag (R117). -/
def takeFlags (s : State) (u : Fin 12) (f : SenseFrame) : State :=
  takeHotClear (takeHotRaise (setUnit s u (countHot f.overtemp)) u) u

/-- The reading of an entry's input, its mask in the unit's report order (R7, R49). -/
def reading (s : State) (u : Fin 12) (e : Fin 64) (inputs : BitVec 8) : Bool :=
  match ofNum 8 s.tables.input[e].input with
  | some i => mem inputs ((reportOrder s u).pos i).val
  | none => false

/-- Stage 6 of intake: the input readings of the unit's entries (R49). R49 gives no order among the entries of one unit: the model takes them in
ascending entry number (DESIGN CHOICE, unsafe; log entry 67). -/
def takeInputs (s : State) (u : Fin 12) (f : SenseFrame) : State :=
  settle ((idx 64).foldl (init := s) fun (s : State) (e : Fin 64) =>
    if inputUnit s e = some u then readInput s e (reading s u e f.inputs) else s)

/-- q of a circuit in the window of a frame, absent unless proving judged the window against a reference (R120). Whether the window was
eligible still reads the same after the judging stages: an OVC of the frame has cleared the on-run of the circuit it forces off. -/
def qOf (s : State) (u : Fin 12) (f : SenseFrame) (tc : Fin 8 × Fin 96) : Option Nat :=
  if eligible s u f.window tc then
    match s.prov.circuits[tc.2].last with
    | some m => m.q
    | none => none
  else none

/-- The annotation of one position (R120). -/
def noteAt (s : State) (u : Fin 12) (f : SenseFrame) (p : Fin 8) : Note :=
  let t := (reportOrder s u).pos p
  match circuitAt s u t with
  | some c => { terminal := num t, verdict := some s.prov.circuits[c].verdict, q := qOf s u f (t, c) }
  | none => { terminal := num t, verdict := none, q := none }

/-- A report joins the queue, or is dropped when the queue holds 16 (R121). -/
def queueReport (s : State) (r : Report) : State :=
  if s.bus.queue.length < 16 then
    setBus s fun b => { b with queue := b.queue ++ [{ r with dropped := b.dropped }], dropped := 0 }
  else setBus s fun b => { b with dropped := bump 255 b.dropped }

/-- Stage 7 of intake: a frame of a unit in the forward set becomes a sense report (R120, R121). -/
def forward (s : State) (u : Fin 12) (f : SenseFrame) : State :=
  if mem s.bus.forward u.val then
    queueReport s { dropped := 0, frame := f, stamp := stamp s, notes := tab (noteAt s u f) }
  else s

/-- A valid frame taken through the stages of intake (R116). A frame discarded at the gap test resolves a test in flight without a
result (R148). -/
def intake (s : State) (u : Fin 12) (f : SenseFrame) : State :=
  if gapFrame s then resolveTests s u (lastWindowNo s) none
  else
    let xs := inOrder s u f
    let v := lastWindowNo s
    forward (takeInputs (takeFlags (superviseFrame (proveFrame s u f xs) u v f xs) u f) u f) u f

/-- What stands after a valid frame: the frame with the work of its stages, or nothing where the gap test discards it (R116, DESIGN CHOICE, unsafe;
log entry 2). -/
def frameMoment (s : State) (u : Fin 12) (f : SenseFrame) : Moment :=
  let xs := inOrder s u f
  if gapFrame s then .between
  else .frame u
    { judged := judgedBy s u f xs, learned := learnedBy s u f xs, tested := testedBy s u (lastWindowNo s) xs, lit := litBy s u f.window xs }

/-- A valid frame ends the exchange (R112, R116). -/
def takeValid (s : State) (u : Fin 12) (f : SenseFrame) : State :=
  let s1 : State := { s with moment := frameMoment s u f }
  intake (if counting s1 then setUnit s1 u fun x => { x with miss := 0 } else s1) u f

/-- A SENSE frame arrives (R112): from the unit awaited and valid it is taken in, otherwise the exchange is a miss. With no exchange awaited
it has no effect. -/
def senseArrives (s : State) (f : SenseFrame) : State :=
  match s.bus.round.awaiting with
  | some u => exchangeOver (if validSense s u f then takeValid s u f else takeMiss s u)
  | none => s

/-! ## Admission (R111) -/

/-- The record of a unit whose IDENT has the expected type (R111). -/
def admitRec (x : UnitRec) (f : IdentFrame) : UnitRec :=
  { x with
    state := .admitted, typeCode := some f.typeCode, serial := some f.serial, miss := 0, hotRun := 0, hotQuiet := 0,
    lostRaised := false, mismatchRaised := false, log := [] }

/-- FIU_LOST of the unit is cleared where raised (R111). -/
def clearLost (s : State) (u : Fin 12) (raised : Bool) : State := if raised then clear s .fiuLost (num u) else s

/-- FIU_MISMATCH of the unit is cleared where raised (R111). -/
def clearMismatch (s : State) (u : Fin 12) (raised : Bool) : State :=
  if raised then clear s .fiuMismatch (num u) else s

/-- An IDENT taken from the unit called (R111). R111 gives no order between the raise of FIU_MISMATCH and the clear of FIU_LOST that one IDENT of
another type brings: the model raises and hands on first (DESIGN CHOICE, unsafe; log entry 72). -/
def takeIdent (s : State) (u : Fin 12) (f : IdentFrame) : State :=
  let x := s.bus.units[u]
  let s := between s
  if f.typeCode = s.tables.fiu[u].typeCode then
    clearMismatch (clearLost (setUnit s u fun x => admitRec x f) u x.lostRaised) u x.mismatchRaised
  else if x.state = .mismatch then
    setUnit s u fun x => { x with typeCode := some f.typeCode, serial := some f.serial }
  else
    let s1 := setUnit s u fun x =>
      { x with state := .mismatch, typeCode := some f.typeCode, serial := some f.serial, mismatchRaised := true,
               lostRaised := false }
    clearLost (if x.mismatchRaised then s1 else raise s1 .fiuMismatch (num u) .absent) u x.lostRaised

/-- The roll call awaited is over and the round goes on (R109). -/
def callOver (s : State) : State := goRound (setRound s fun r => { r with called := none })

/-- No IDENT came in time from the unit called (R111). -/
def identTimedOut (s : State) (u : Fin 12) : State := if s.bus.round.called = some u then callOver s else s

/-- An IDENT frame arrives (R111): one that is corrupt or from another address leaves the unit called as it was. -/
def identArrives (s : State) (f : IdentFrame) : State :=
  match s.bus.round.called with
  | some u => callOver (if f.good && decide (f.unit = num u) then takeIdent s u f else s)
  | none => s

/-! ## Pass-through (R119) -/

/-- A frame arrives in answer to PASS (R119). -/
def passArrives (s : State) (f : PassFrame) : State :=
  match s.bus.slot with
  | .listening m =>
    if f.good && decide (f.unit = num m.unit) && decide (f.kind = m.kind) then
      setBus s fun b => { b with slot := .answered m .replied f.payload }
    else s
  | .empty | .waiting _ _ | .answered _ _ _ => s

/-- The slot at the end of a round (R119). -/
def passTimeout (x : PassSlot) : PassSlot :=
  match x with
  | .listening m => .answered m .timeout []
  | .empty | .waiting _ _ | .answered _ _ _ => x

/-! ## End of a round (R109) -/

/-- Takes the exchange outstanding as a miss (DEDUCED, unsafe; log entry 9). -/
def missOutstanding (s : State) : State :=
  match s.bus.round.awaiting with
  | some u => senseMissed s u
  | none => s

/-- Takes the roll call outstanding as a timeout (DEDUCED, unsafe; log entry 9). -/
def timeoutOutstanding (s : State) : State :=
  match s.bus.round.called with
  | some u => identTimedOut s u
  | none => s

/-- A function applied `n` times. -/
def times : Nat → (State → State) → State → State
  | 0, _, s => s
  | n + 1, f, s => times n f (f s)

/-- The round ends at the next window start (R109): what is still outstanding is taken as missed, each unit still to be polled after its
DRIVE frame, and a PASS still listened for times out (R119). -/
def closeRound (s : State) : State :=
  let s1 := times 12 timeoutOutstanding (times 12 missOutstanding s)
  setBus s1 fun b => { b with slot := passTimeout b.slot, round := roundNone, sent := [] }

end Sys2Proof.Machine
end

