-- ==== Sys2Proof/Machine/Pulse.lean ====
section
/-! DEFINITION. Pulse: the decisecond pulse (R97) and the work every block does at it, in the order of log entry 10 (DEDUCED, unsafe): timers, cable releases,
stuck inputs, the mode machine, the monitor's timed ends and releases (R22), the engine. -/

namespace Sys2Proof.Machine

open Sys2Proof

/-- The engine's timers stand for a stage that had started before the pulse (R54). -/
def stageRan (s : State) : Bool := s.eng.stageOn

/-- Every timer advanced by the pulse, and `inPulse` set for the changes taken at it (R21, R50, R54, R74, R92, R146, R153). -/
def advanceTimers (s : State) : State :=
  { advanceCable (advanceInputs (advanceEngine (advanceMode (advanceRuns (advanceGroups s))))) with inPulse := true }

/-- The releases of overcurrent retries, in ascending circuit number (DESIGN CHOICE, unsafe; log entry 50), and the clean-on counts of the pulse
(R153). -/
def cablePulse (s : State) : State :=
  (mapped s).foldl takeTripClear (advanceCleanOn ((mapped s).foldl takeRelease s))

/-- An input entry becomes stuck when its active time has run (R50). -/
def takeStuck (s : State) (e : Fin 64) : State :=
  if stuckDue s e then raise (setInput s e fun r => { r with stuck := true }) .detectorStuck (num e) .absent else s

/-- The stuck entries of the pulse (R50), in ascending number (R161; DESIGN CHOICE, unsafe; log entry 50). -/
def stuckPulse (s : State) : State := (idx 64).foldl takeStuck s

/-- The mode machine's work at the pulse (R77, R78, R87). -/
def modePulse (s : State) : State :=
  settle (takeSilent (settle (takeProvingTimeout (takeStartRedEnd (settle (takeStartFlashEnd s))))))

/-- The monitor's work at the pulse after its timers (R22). A group's end may make the engine give up a step and begin the next interstage (R57,
R58) between the timed ends and the releases; the GO it hands then is judged at this same pulse, where the targets of the engine's own work at
the pulse come after it. R23 and R54 allow both (DESIGN CHOICE, unsafe; log entry 59). -/
def monitorPulse (s : State) : State := settle (judgeReleases (settle (takeTimedEnds s)))

/-- What stands after a pulse: the pulse, but where the engine has handed a STOP for which the end of a held GREEN is due. That end falls at the
next pulse (R22, R24, R27), so nothing stands until then (DESIGN CHOICE, unsafe; log entry 2). -/
def pulseMoment (s : State) : Moment := if (idx 32).any (clearanceStartDue s) then .between else .pulse

/-- The decisecond pulse (R97), which stands until something else is taken (log entry 2). -/
def pulse (s : State) : State :=
  let ran := stageRan s
  let s1 := stuckPulse (cablePulse (advanceTimers s))
  let s2 := monitorPulse (modePulse s1)
  let s3 := settle (enginePulse s2 ran)
  { s3 with inPulse := false, moment := pulseMoment s3 }

end Sys2Proof.Machine
end

