-- ==== Sys2Proof/Machine/Mains.lean ====
section
/-! DEFINITION. Mains: the mains supervisor and the window timebase (R94 to R97), and what a window start does in the other blocks. -/

namespace Sys2Proof.Machine

open Sys2Proof

/-! ## Figures of the mains nominal (R94 to R97) -/

/-- The period lies in band (R94). -/
def inBand (s : State) (period : Nat) : Bool :=
  if sixty s then within 15874 17543 period else within 18868 21276 period

/-- Half a nominal period, in microseconds (R95). -/
def halfPeriod (s : State) : Nat := if sixty s then 8333 else 10000

/-- The time without an edge at which a gap begins, in microseconds (R96). -/
def gapTime (s : State) : Nat := if sixty s then 25000 else 30000

/-- The interval to the next substitute window start, in microseconds (R95). -/
def substituteInterval (s : State) : Nat :=
  if sixty s then (if s.mains.subPhase = 2 then 16000 else 17000) else 20000

/-- Window starts to a decisecond pulse (R97). -/
def pulseEvery (s : State) : Nat := if sixty s then 6 else 5

/-! ## Window starts (R36 to R38, R95, R97, R98, R108) -/

/-- MAINS_INTERRUPTION is to be cleared: the 50th window start after the end of a gap (R96). -/
def interruptionClearDue (s : State) : Bool :=
  s.mains.interRaised && (match s.mains.sinceGap with | some n => decide (50 ≤ n) | none => false)

/-- Clears MAINS_INTERRUPTION when it is due (R96). -/
def takeInterruptionClear (s : State) : State :=
  if interruptionClearDue s then
    clear (setMains s fun m => { m with interRaised := false, sinceGap := none }) .mainsInterruption 0
  else s

/-- Counts a window start after a gap (R96). -/
def countAfterGap (s : State) : State :=
  takeInterruptionClear (setMains s fun m => { m with sinceGap := m.sinceGap.map (bump 50) })

/-- Raises UNEXPECTED_GREEN when it is due (R37). -/
def takeGreenRaise (s : State) (g : Fin 32) : State :=
  if greenRaiseDue s g then raise (setGroup s g fun r => { r with raised := true }) .unexpectedGreen (num g) .absent else s

/-- Clears UNEXPECTED_GREEN when it is due (R38). -/
def takeGreenClear (s : State) (g : Fin 32) : State :=
  if greenClearDue s g then
    clear (setGroup s g fun r => { r with raised := false, quiet := 0 }) .unexpectedGreen (num g)
  else s

/-- The observed-green work of one group at a window start (R37, R38). -/
def greenGroup (s : State) (g : Fin 32) : State :=
  if monitored s g then takeGreenClear (takeGreenRaise (setGroup s g countGreen) g) g else s

/-- The window count advanced, and the pulse taken when it comes round (R97). The window start stands (log entry 2). -/
def countWindow (s : State) : State :=
  if pulseEvery s ≤ s.mains.windowCount + 1 then
    let p := pulse (setMains s fun m => { m with windowCount := 0 })
    { p with moment := .window (pulseStands p) }
  else { setMains s fun m => { m with windowCount := m.windowCount + 1 } with moment := .window false }

/-- A window starts at time `t` (R95, R108). The round before it ends; the sequence advances; the clock, the gap count, the observed-green
counts and the pulse are taken; and the poll round begins, DIM_UNLEARNED being judged first (log entries 11 and 64). `gapBegin` says that a gap begins at this moment, and `counted` that the
start counts after a gap (R96). Groups whose UNEXPECTED_GREEN falls due at one window start are taken in ascending number (R37, R161;
DESIGN CHOICE, unsafe; log entry 50). -/
def windowStart (s : State) (t : Nat) (gapBegin counted : Bool) : State :=
  let s1 := setMains (closeRound s) fun m => { m with lastWindow := some t }
  let s2 := setBus s1 fun b =>
    { b with seq := nextWin b.seq, lastInGap := b.windowInGap || gapBegin, windowInGap := s1.mains.gap }
  let s3 := windowClock s2
  let s4 := if counted then countAfterGap s3 else s3
  beginRound (countWindow ((idx 32).foldl greenGroup s4))

/-- A window start from the crystal (R95). -/
def substituteStart (s : State) : State :=
  if s.mains.timebase = .substitute then
    let t := match s.mains.lastWindow with | some w => w + substituteInterval s | none => 0
    windowStart (if sixty s then setMains s fun m => { m with subPhase := (m.subPhase + 1) % 3 } else s) t false true
  else s

/-! ## Edges (R94, R95) -/

/-- The edge lies at least half a nominal period after the last window start (R95). -/
def qualifies (s : State) (t : Nat) : Bool := decide (s.mains.lastWindow.getD 0 + halfPeriod s ≤ t)

/-- MAINS_FREQUENCY is to be raised (R94). -/
def freqRaiseDue (s : State) : Bool := !s.mains.freqRaised && decide (25 ≤ s.mains.outOfBand)

/-- Raises MAINS_FREQUENCY when it is due; the timebase goes to the crystal (R94, R95). -/
def takeFreqRaise (s : State) : State :=
  if freqRaiseDue s then
    raise (setMains s fun m =>
      { m with freqRaised := true, timebase := .substitute,
               subPhase := if m.timebase = .locked then 0 else m.subPhase }) .mainsFrequency 0 .absent
  else s

/-- MAINS_FREQUENCY is to be cleared (R94). -/
def freqClearDue (s : State) : Bool := s.mains.freqRaised && decide (250 ≤ s.mains.inBand)

/-- Clears MAINS_FREQUENCY when it is due; with no gap in progress the timebase returns to the mains (R94, R95). -/
def takeFreqClear (s : State) : State :=
  if freqClearDue s then
    clear (setMains s fun m =>
      { m with freqRaised := false, timebase := if m.gap then .substitute else .locked }) .mainsFrequency 0
  else s

/-- A period judged against the band (R94). -/
def countPeriod (s : State) (period : Nat) : State :=
  if inBand s period then setMains s fun m => { m with outOfBand := 0, inBand := bump 250 m.inBand }
  else setMains s fun m => { m with outOfBand := bump 25 m.outOfBand, inBand := 0 }

/-- An edge with no gap in progress (R94, R95): an edge that raises or clears MAINS_FREQUENCY starts no window. -/
def plainEdge (s : State) (period : Nat) : State :=
  let t := s.mains.lastEdge + period
  let s1 := countPeriod (setMains s fun m => { m with lastEdge := t }) period
  if freqRaiseDue s1 then takeFreqRaise s1
  else if freqClearDue s1 then takeFreqClear s1
  else if s1.mains.timebase = .locked ∧ qualifies s1 t = true then windowStart s1 t false true
  else s1

/-- The gap is at or beyond the restart threshold: its length in whole milliseconds against 100 ms for each ds (R96). -/
def longGap (s : State) (period : Nat) : Bool := decide (100 * s.tables.startUp.restart ≤ period / 1000)

/-- Every unit's miss count set to 0 (R112). -/
def clearMisses (s : State) : State :=
  setBus s fun b => { b with units := tab fun u => { b.units[u] with miss := 0 } }

/-- The end of a gap handed to the mode machine, the field bus controller and lamp proving (R90, R96, R112, R128). -/
def handGapEnd (s : State) (long : Bool) : State :=
  gapProving (clearMisses (settle (if long then mainsRestart s else s)))

/-- The first edge after a gap (R95, R96): the end of the gap is handed on before the window start, and its pulse, at the same edge
(DESIGN CHOICE, unsafe; log entry 53). -/
def gapEndEdge (s : State) (period : Nat) : State :=
  let t := s.mains.lastEdge + period
  let long := longGap s period
  let s1 := setMains s fun m =>
    { m with gap := false, lastEdge := t, sinceGap := some 0,
             timebase := if m.freqRaised then .substitute else .locked }
  let s2 := handGapEnd s1 long
  if s2.mains.timebase = .locked ∧ qualifies s2 t = true then windowStart s2 t false false else s2

/-- A rising edge on MAINS_REF, `period` microseconds after the one before it (R94 to R96). -/
def takeEdge (s : State) (period : Nat) : State :=
  if s.mains.gap then gapEndEdge (between s) period else plainEdge (between s) period

/-! ## Gaps (R96) -/

/-- A mains gap begins: the time without an edge has run (R95, R96, R128). In LOCKED the window start at that moment leaves the substitute phase
at 0, so that at 60 Hz 17, 17, 16 ms follow (DESIGN CHOICE, unsafe; log entry 41). -/
def gapBegins (s : State) : State :=
  if s.mains.gap then s
  else
    let t := s.mains.lastEdge + gapTime s
    let s1 := gapProving (setMains s fun m => { m with gap := true, sinceGap := none })
    if s.mains.timebase = .locked then
      windowStart (setMains s1 fun m => { m with timebase := .substitute, subPhase := 0 }) t true true
    else s1

/-- Three nominal periods of a gap have passed without an edge (R96). -/
def takeInterruption (s : State) : State :=
  if s.mains.gap then raise (setMains s fun m => { m with interRaised := true }) .mainsInterruption 0 .absent else s

end Sys2Proof.Machine
end

