-- ==== Sys2Proof/Machine/Operands.lean ====
section
/-! DEFINITION. Operands: the table form of a request (R174, R175), the field checks and clamps of every writable table (R2, R4, R6, R19, R43,
R48, R76, R91, R102, R124, R129, R145, R160), the plan entry's bytes (R184), and the lists a request carries. -/

namespace Sys2Proof.Machine

open Sys2Proof

/-! ## The table form (R174, R175) -/

/-- What a stride code adds from index to index: SAME 0, NEXT 1, ROW 32 (R174). -/
def strideStep (code : Nat) : Nat := if code = 1 then 1 else if code = 2 then 32 else 0

/-- The indices a request addresses, in order (R174). -/
def addressed (a : TableArgs) : List Nat := (List.range a.count).map fun i => a.start + i * strideStep a.stride

/-- The count and the stride are those of a request (R175). -/
def formOk (a : TableArgs) : Bool := within 1 64 a.count && decide (a.stride < 3)

/-- The checks of a TABLE_WRITE in their order (R175): its form, its indices against the table's `range`, the permission, the fields, and the
whole table. -/
def writeChecks (a : TableArgs) (entries range : Nat) (allowed badField badTable : Bool) : List (Bool × Result) :=
  [(!formOk a || decide (entries ≠ a.count), .malformed),
   ((addressed a).any fun i => decide (range ≤ i), .badIndex),
   (!allowed, .inUse),
   (badField, .badValue),
   (badTable, .badValue)]

/-- The index as an index of a table of length `n`. -/
def finAt (n i : Nat) : Option (Fin n) := if h : i < n then some ⟨i, h⟩ else none

/-- A table with the entries written at the indices, in the order addressed: the last written at an index stands (R175). -/
def writeAt {α : Type} {n : Nat} (t : Vector α n) (ws : List (Nat × α)) : Vector α n :=
  ws.foldl (fun (t : Vector α n) (w : Nat × α) => match finAt n w.1 with | some i => put t i w.2 | none => t) t

/-- The reply of a write: CLAMPED when a field was clamped (R175). -/
def writeResult (clamped : Bool) : Result := if clamped then .clamped else .done

/-! ## Field checks. Each says that a field of the entry is refused with BAD_VALUE. -/

/-- A yes/no or on/off field holds 0 or 1 (R181). Every rule of the model takes 1 for yes and for on (DEDUCED, unsafe; log entry 13). -/
def flagOk (n : Nat) : Bool := decide (n ≤ 1)

/-- FIU entry (R6): the report order is checked where the present field is 1, yes (DEDUCED, unsafe; log entry 13). -/
def badFiu (e : FiuEntry) : Bool :=
  !flagOk e.present || (decide (e.present = 1) && (ReportOrder.ofCode e.order).isNone)

/-- Group entry (R2). -/
def badGroup (e : GroupEntry) : Bool :=
  match GroupType.ofCode e.type with
  | none => true
  | some .unused => false
  | some .vehicle =>
    !within 30 60 e.amber || !(decide (e.redAmber = 0) || within 10 30 e.redAmber) || !within 40 200 e.safetyMin ||
      !within 0 100 e.minRed
  | some .pedestrian =>
    !within 30 300 e.clearance || !within 1 3 e.pattern || !within 40 200 e.safetyMin || !within 0 100 e.minRed

/-- The group entry as stored: red sets used set into 1 to 4 unless the type is UNUSED (R2). -/
def clampGroup (e : GroupEntry) : GroupEntry :=
  if e.type = 0 then e else { e with redSets := clampTo 1 4 e.redSets }

/-- Circuit entry (R4). The three enables hold 0 or 1, of which 1 is on (DEDUCED, unsafe; log entry 13). -/
def badCircuit (e : CircuitEntry) : Bool :=
  decide (e.group ≠ 0) &&
    (!within 1 32 e.group || !within 1 12 e.fiu || !within 1 8 e.terminal || (Role.ofCode e.role).isNone ||
      (decide (e.role = 0) && !within 1 4 e.redSet) || (LoadClass.ofCode e.loadClass).isNone || !flagOk e.proving ||
      !flagOk e.cableTest || !flagOk e.bleed)

/-- The circuit entry as stored: k set into 1 to 4 in a used entry (R4). -/
def clampCircuit (e : CircuitEntry) : CircuitEntry := if e.group = 0 then e else { e with k := clampTo 1 4 e.k }

/-- Conflict matrix entry (R19): 0 to 250 or the NONE code H'FF. -/
def badConflict (n : Nat) : Bool := !(decide (n ≤ 250) || decide (n = 255))

/-- The matrix entry a byte stands for (R184). -/
def conflictEntry (n : Nat) : Option Nat := if n = 255 then none else some n

/-- Input map entry (R48). -/
def badInput (e : InputEntry) : Bool :=
  decide (e.fiu ≠ 0) && (!within 1 12 e.fiu || !within 1 8 e.input || (InputKind.ofCode e.kind).isNone)

/-- The input map entry as stored (R48). -/
def clampInput (e : InputEntry) : InputEntry :=
  if e.fiu = 0 then e
  else { e with debounce := clampTo 1 15 e.debounce
                stuckLimit := if e.stuckLimit = 0 then 0 else clampTo 10 3600 e.stuckLimit }

/-- Pattern table entry (R91). -/
def badPattern (e : PatternEntry) : Bool :=
  !within 2 8 e.steps || (e.slots.toList.take e.steps).any fun x => !flagOk x.level || !within 1 50 x.duration

/-- Start-up record (R76). -/
def badStartUp (e : StartUp) : Bool :=
  !flagOk e.mains || !within 0 300 e.startFlash || !within 30 300 e.startRed || !within 50 600 e.provingLimit ||
    !within 1 100 e.restart || !within 10 600 e.silence || !within 0 3 e.pattern || !within 1 8 e.fallback

/-- Reaction code (R160). -/
def badReaction (n : Nat) : Bool := (Reaction.ofCode n).isNone

/-- The reaction stored for a kind: no less than its floor (R160). -/
def clampReaction (k : Kind) (r : Reaction) : Reaction := if r.severity < k.floor.severity then k.floor else r

/-- Schedule header or entry (R102): an entry with an empty day set is not checked. -/
def badSched : SchedRaw → Bool
  | .header p => !within 0 8 p
  | .entry e =>
    decide (e.weekdays ≠ 0) &&
      (!within 0 23 e.hours || !within 0 59 e.minutes || !within 0 4 e.action ||
        (decide (e.action = 0) && !within 1 8 e.plan))

/-- The proving parameters as stored (R124). -/
def clampProving (e : ProvingParams) : ProvingParams :=
  { tLo := clampTo 50 300 e.tLo, tHi := clampTo 50 500 e.tHi, failConfirm := clampTo 2 50 e.failConfirm,
    recoverConfirm := clampTo 5 200 e.recoverConfirm, presence := clampTo 16 255 e.presence,
    spread := clampTo 10 200 e.spread }

/-- Cable parameters (R145): the threshold mode code. -/
def badCable (e : CableParams) : Bool := (ThresholdMode.ofCode e.mode).isNone

/-- The cable parameters as stored (R145). -/
def clampCable (e : CableParams) : CableParams :=
  { openThreshold := clampTo 128 255 e.openThreshold, lowThreshold := clampTo 0 127 e.lowThreshold,
    testInterval := clampTo 100 6000 e.testInterval, testConfirm := clampTo 1 10 e.testConfirm,
    vFix := clampTo 10 120 e.vFix, ratio := clampTo 100 500 e.ratio, mode := e.mode,
    offCurrent := clampTo 1 255 e.offCurrent, crossConfirm := clampTo 1 20 e.crossConfirm,
    retryDelay := clampTo 5 100 e.retryDelay, maxRetries := clampTo 1 10 e.maxRetries,
    tripClear := clampTo 10 600 e.tripClear, leakThreshold := clampTo 10 255 e.leakThreshold,
    leakConfirm := clampTo 2 50 e.leakConfirm, leakClear := clampTo 10 200 e.leakClear,
    greenConfirm := clampTo 1 4 e.greenConfirm, missLimit := clampTo 2 10 e.missLimit }

/-- A part of a reference entry (R129): the held code, 1 for yes (DEDUCED, unsafe; log entry 13), and Iref and Vref where a reference is held. -/
def badRefPart (p : RefPart) : Bool :=
  !flagOk p.held || (decide (p.held = 1) && (!within 32 32736 p.iref || !within 50 255 p.vref))

/-- A reference entry (R129). -/
def badRef (e : RefEntry) : Bool := badRefPart e.bright || badRefPart e.dim

/-! ## The schedule as a whole (R102) -/

/-- Two entries in use of the same class share a time and a weekday (R102). -/
def clash (a b : SchedEntry) : Bool :=
  decide (modeClass a = modeClass b) && decide (a.hours = b.hours) && decide (a.minutes = b.minutes) &&
    decide (a.weekdays &&& b.weekdays ≠ 0)

/-- Some two entries of the schedule clash (R102). -/
def schedClash : List SchedEntry → Bool
  | [] => false
  | e :: rest => rest.any (clash e) || schedClash rest

/-! ## Plan entries (R43, R184) -/

/-- Two bytes, the most significant first (R181). -/
def be16 (a b : Byte) : Nat := 256 * a.toNat + b.toNat

/-- A plan header as its 11 bytes carry it (R184). -/
structure PlanHeader where
  cycle : Nat
  offset : Nat
  steps : Nat
deriving DecidableEq, Repr

/-- The header form of a plan entry; the padding is ignored (R184). -/
def planHeaderOf : List Byte → Option PlanHeader
  | [c1, c0, o1, o0, n, _, _, _, _, _, _] => some ⟨be16 c1 c0, be16 o1 o0, n.toNat⟩
  | _ => none

/-- The step form of a plan entry with its flags as carried (R184). -/
structure RawStep where
  stage : Nat
  minGreen : Nat
  maxGreen : Nat
  unitExt : Nat
  demandDep : Nat
  recalled : Nat
  holdFlag : Nat
  forceOff : Nat
deriving DecidableEq, Repr

/-- The step form of a plan entry (R184). -/
def planStepOf : List Byte → Option RawStep
  | [st, a1, a0, b1, b0, x, d, r, h, f1, f0] =>
    some ⟨st.toNat, be16 a1 a0, be16 b1 b0, x.toNat, d.toNat, r.toNat, h.toNat, be16 f1 f0⟩
  | _ => none

/-- A plan header is refused (R43): the number of steps. -/
def badHeader (h : PlanHeader) : Bool := decide (16 < h.steps)

/-- A plan step is refused (R43). -/
def badStep (r : RawStep) : Bool :=
  !within 1 16 r.stage || decide (1200 < r.minGreen) || decide (1200 < r.maxGreen) || decide (100 < r.unitExt) ||
    !flagOk r.demandDep || !flagOk r.recalled || !flagOk r.holdFlag

/-- A plan step as stored (R43): a flag of 1 is yes (R181; DEDUCED, unsafe; log entry 13). -/
def stepStored (r : RawStep) : PlanStep :=
  { stage := r.stage, minGreen := r.minGreen, maxGreen := r.maxGreen, unitExt := r.unitExt,
    demandDep := decide (r.demandDep = 1), recalled := decide (r.recalled = 1), holdFlag := decide (r.holdFlag = 1),
    forceOff := r.forceOff }

/-- A plan entry for index `i` is refused: index 0 the header, index k step k (R43, R174). -/
def badPlanEntry (i : Nat) (bs : List Byte) : Bool :=
  if i = 0 then (match planHeaderOf bs with | some h => badHeader h | none => true)
  else (match planStepOf bs with | some r => badStep r | none => true)

/-- A plan with an entry written at index `i` (R174). -/
def writePlanEntry (p : Plan) (w : Nat × List Byte) : Plan :=
  if w.1 = 0 then
    match planHeaderOf w.2 with
    | some h => { p with cycle := h.cycle, offset := h.offset, steps := h.steps }
    | none => p
  else
    match finAt 16 (w.1 - 1), planStepOf w.2 with
    | some k, some r => { p with entries := put p.entries k (stepStored r) }
    | _, _ => p

/-! ## Lists -/

/-- Circuit numbers as indices, in ascending order and each once (R137). -/
def circuitSet (cs : List Nat) : List (Fin 96) := (idx 96).filter fun c => cs.contains (num c)

/-- The circuits a LEARN or LEARN_CANCEL names (R137, R140). -/
def namedCircuits (s : State) : CircuitList → List (Fin 96)
  | .all => mapped s
  | .list cs => circuitSet cs

/-- The length of a circuit list is not that of a request (R137). -/
def badCircuitList : CircuitList → Bool
  | .all => false
  | .list cs => !within 1 96 cs.length

/-- A circuit number of the list is out of range (R137). -/
def badCircuitIndex : CircuitList → Bool
  | .all => false
  | .list cs => cs.any fun c => !within 1 96 c

/-- The stages of a list as a set (R52). -/
def stageSet (ss : List Nat) : StageSet :=
  (idx 16).foldl (fun (acc : StageSet) (k : Fin 16) => if ss.contains (num k) then ins acc k else acc) 0

/-- The units of a list as a set (R120). -/
def unitSet (us : List Nat) : BitVec 12 :=
  (idx 12).foldl (fun (acc : BitVec 12) (u : Fin 12) => if us.contains (num u) then ins acc u else acc) 0

/-- The entries of a DIRECT_TARGET as groups and targets (R34). -/
def targetEntries (es : List (Nat × Nat)) : List (Fin 32 × Target) :=
  es.filterMap fun e =>
    match ofNum 32 e.1, Target.ofCode e.2 with
    | some g, some t => some (g, t)
    | _, _ => none

end Sys2Proof.Machine
end

