-- ==== Sys2Proof/Machine/Tables.lean ====
section
/-! DEFINITION. Tables: what a TABLE_WRITE of each table checks, writes and brings about (R174, R175 and the owning rules). -/

namespace Sys2Proof.Machine

open Sys2Proof

/-! ## Configuration tables -/

/-- TABLE_WRITE of the FIU table (R6). -/
def writeFiu (a : TableArgs) (es : List FiuEntry) (s : State) : Answer :=
  checked (writeChecks a es.length 12 s.port.configOpen (es.any badFiu) false) s
    ⟨setTables s fun t => { t with fiu := writeAt t.fiu ((addressed a).zip es) }, .done, .none⟩

/-- TABLE_WRITE of the group table (R2). -/
def writeGroup (a : TableArgs) (es : List GroupEntry) (s : State) : Answer :=
  checked (writeChecks a es.length 32 s.port.configOpen (es.any badGroup) false) s
    ⟨setTables s fun t => { t with group := writeAt t.group ((addressed a).zip (es.map clampGroup)) },
      writeResult (es.any fun e => decide (clampGroup e ≠ e)), .none⟩

/-- TABLE_WRITE of the circuit table (R4). -/
def writeCircuit (a : TableArgs) (es : List CircuitEntry) (s : State) : Answer :=
  checked (writeChecks a es.length 96 s.port.configOpen (es.any badCircuit) false) s
    ⟨setTables s fun t => { t with circuit := writeAt t.circuit ((addressed a).zip (es.map clampCircuit)) },
      writeResult (es.any fun e => decide (clampCircuit e ≠ e)), .none⟩

/-- The conflict matrix with one entry written at its matrix index (R18). -/
def writeMatrixEntry (m : Vector (Vector (Option Nat) 32) 32) (w : Nat × Nat) : Vector (Vector (Option Nat) 32) 32 :=
  match finAt 32 (w.1 / 32), finAt 32 (w.1 % 32) with
  | some i, some j => put m i (put m[i] j (conflictEntry w.2))
  | _, _ => m

/-- TABLE_WRITE of the conflict matrix (R19). -/
def writeMatrix (a : TableArgs) (es : List Nat) (s : State) : Answer :=
  checked (writeChecks a es.length 1024 s.port.configOpen (es.any badConflict) false) s
    ⟨setTables s fun t => { t with matrix := ((addressed a).zip es).foldl writeMatrixEntry t.matrix }, .done, .none⟩

/-- TABLE_WRITE of the stage table (R42). -/
def writeStage (a : TableArgs) (es : List GroupSet) (s : State) : Answer :=
  checked (writeChecks a es.length 16 s.port.configOpen false false) s
    ⟨setTables s fun t => { t with stage := writeAt t.stage ((addressed a).zip es) }, .done, .none⟩

/-- TABLE_WRITE of the input map (R48). -/
def writeInput (a : TableArgs) (es : List InputEntry) (s : State) : Answer :=
  checked (writeChecks a es.length 64 s.port.configOpen (es.any badInput) false) s
    ⟨setTables s fun t => { t with input := writeAt t.input ((addressed a).zip (es.map clampInput)) },
      writeResult (es.any fun e => decide (clampInput e ≠ e)), .none⟩

/-- Each run of a written pattern restarted at step 1 (R91, R92). -/
def restartRuns (s : State) (written : List Nat) : State :=
  let again (r : Run) : Run := if written.contains r.pattern then newRun s r.pattern else r
  { s with junctionRun := again s.junctionRun, clearRuns := tab fun g => s.clearRuns[g].map again }

/-- TABLE_WRITE of the pattern table (R91). -/
def writePattern (a : TableArgs) (es : List PatternEntry) (s : State) : Answer :=
  checked (writeChecks a es.length 4 s.port.configOpen (es.any badPattern) false) s
    ⟨restartRuns (setTables s fun t => { t with pattern := writeAt t.pattern ((addressed a).zip es) }) (addressed a),
      .done, .none⟩

/-- What a change of the mains nominal does to the supervisor (R94, R97). -/
def newNominal (m : Mains) : Mains := { m with outOfBand := 0, inBand := 0, windowCount := 0 }

/-- The start-up record written (R76): a change of mains nominal restarts the counts (R94, R97), the junction flash run restarts in the
pattern written (R92), PLAN_INVALID is cleared of a plan that is no longer the fallback plan in use (R66), and the schedule results are formed
afresh (R103). -/
def takeStartUp (s : State) (e : StartUp) : State :=
  let s1 := setTables s fun t => { t with startUp := e }
  let s2 := if e.mains = s.tables.startUp.mains then s1 else setMains s1 newNominal
  formResults false (refreshInvalid (restartJunctionRun s2))

/-- TABLE_WRITE of the start-up record (R76). -/
def writeStartUp (a : TableArgs) (es : List StartUp) (s : State) : Answer :=
  checked (writeChecks a es.length 1 s.port.configOpen (es.any badStartUp) false) s
    ⟨match es.getLast? with | some e => takeStartUp s e | none => s, .done, .none⟩

/-! ## Plans (R43, R44) -/

/-- A plan with a request's entries written: LOADED, its error list empty (R44, R45). -/
def loadPlan (p : Plan) (ws : List (Nat × List Byte)) : Plan :=
  { ws.foldl writePlanEntry p with state := .loaded, errors := [] }

/-- TABLE_WRITE of a plan (R43, R44); the plan number stands for table ids H'11 to H'18. -/
def writePlan (p : Nat) (a : TableArgs) (es : List (List Byte)) (s : State) : Answer :=
  let ws := (addressed a).zip es
  let form := if es.all fun bs => decide (bs.length = 11) then es.length else 0
  match ofNum 8 p with
  | some k =>
    checked (writeChecks a form 17 (!inUse s k) (ws.any fun w => badPlanEntry w.1 w.2) false) s
      ⟨setPlan s k fun x => loadPlan x ws, .done, .none⟩
  | none => refuse s (if !formOk a || decide (form ≠ a.count) then .malformed else .badIndex)

/-! ## The schedule (R102) -/

/-- The form of a schedule entry is that of its index: 0 the header, 1 to 48 an entry (R174). -/
def schedForm (w : Nat × SchedRaw) : Bool :=
  match w.2 with
  | .header _ => decide (w.1 = 0)
  | .entry _ => decide (w.1 ≠ 0)

/-- The schedule with one entry written (R102, R174). -/
def writeSchedEntry (t : Tables) (w : Nat × SchedRaw) : Tables :=
  match w.2 with
  | .header p => { t with schedDefault := p }
  | .entry e => match finAt 48 (w.1 - 1) with | some k => { t with sched := put t.sched k e } | none => t

/-- TABLE_WRITE of the schedule (R102). -/
def writeSched (a : TableArgs) (es : List SchedRaw) (s : State) : Answer :=
  let ws := (addressed a).zip es
  let form := if ws.all schedForm then es.length else 0
  let t := ws.foldl writeSchedEntry s.tables
  checked (writeChecks a form 49 true (es.any badSched) (schedClash t.sched.toList)) s
    ⟨evaluate { s with tables := t }, .done, .none⟩

/-! ## Tables written in every mode -/

/-- The kind of a reaction table index (R160). -/
def kindAt (i : Nat) : Option Kind := Kind.ofNumber (i + 1)

/-- The reaction stored at an index for a code (R160). -/
def reactionStored (i code : Nat) : Reaction :=
  match Reaction.ofCode code, kindAt i with
  | some r, some k => clampReaction k r
  | some r, none => r
  | none, _ => .record

/-- Some reaction of the request is below its kind's floor (R160). -/
def belowFloor (w : Nat × Nat) : Bool := decide (Reaction.ofCode w.2 ≠ some (reactionStored w.1 w.2))

/-- The kinds a write of the reaction table addresses, as indices (R165). -/
def kindsWritten (a : TableArgs) : List (Fin 21) := (addressed a).filterMap (finAt 21)

/-- TABLE_WRITE of the reaction table (R160, R165). -/
def writeReaction (a : TableArgs) (es : List Nat) (s : State) : Answer :=
  let ws := (addressed a).zip es
  checked (writeChecks a es.length 21 true (es.any badReaction) false) s
    ⟨reformReactions
        (setTables s fun t => { t with reaction := writeAt t.reaction (ws.map fun w => (w.1, reactionStored w.1 w.2)) })
        (kindsWritten a),
      writeResult (ws.any belowFloor), .none⟩

/-- TABLE_WRITE of the proving parameters (R124). -/
def writeProving (a : TableArgs) (es : List ProvingParams) (s : State) : Answer :=
  checked (writeChecks a es.length 1 true false false) s
    ⟨match es.getLast? with | some e => setTables s fun t => { t with proving := clampProving e } | none => s,
      writeResult (es.any fun e => decide (clampProving e ≠ e)), .none⟩

/-- TABLE_WRITE of the cable parameters (R145). -/
def writeCable (a : TableArgs) (es : List CableParams) (s : State) : Answer :=
  checked (writeChecks a es.length 1 true (es.any badCable) false) s
    ⟨match es.getLast? with | some e => setTables s fun t => { t with cable := clampCable e } | none => s,
      writeResult (es.any fun e => decide (clampCable e ≠ e)), .none⟩

/-- What a reference write does to the circuit written: a LEARNING record is aborted, the candidate dropped (R129, R140). -/
def referenceWritten (s : State) (c : Fin 96) : State :=
  let s1 := if s.prov.learn[c].state = .learning then setLearn s c LearnRec.aborted else s
  setProv s1 c fun r => { r with cand := none, run := 0 }

/-- TABLE_WRITE of the reference table (R129). -/
def writeReference (a : TableArgs) (es : List RefEntry) (s : State) : Answer :=
  checked (writeChecks a es.length 96 true (es.any badRef) false) s
    ⟨((addressed a).filterMap (finAt 96)).foldl referenceWritten
        (setTables s fun t => { t with reference := writeAt t.reference ((addressed a).zip es) }),
      .done, .none⟩

/-! ## Live tables (R174, R175) -/

/-- The number of indices of a table of R174, none for an id that is not one of R174. -/
def tableRange (id : Nat) : Option Nat :=
  match id with
  | 0x01 => some 12
  | 0x02 => some 32
  | 0x03 => some 96
  | 0x04 => some 1024
  | 0x05 => some 16
  | 0x06 => some 64
  | 0x07 => some 4
  | 0x08 => some 1
  | 0x11 | 0x12 | 0x13 | 0x14 | 0x15 | 0x16 | 0x17 | 0x18 => some 17
  | 0x20 => some 49
  | 0x21 => some 21
  | 0x22 => some 1
  | 0x23 => some 1
  | 0x24 => some 96
  | 0x30 => some 96
  | 0x31 => some 32
  | 0x32 => some 12
  | 0x33 => some 64
  | 0x34 => some 11
  | 0x35 => some 96
  | _ => none

/-- The id is that of a live table (R174). -/
def isLive (id : Nat) : Bool := within 0x30 0x35 id

/-- TABLE_WRITE naming no writable table (R175): a live table is never written. An id of a writable table here carries no entries of that
table's form, which is MALFORMED (DESIGN CHOICE, unsafe; log entry 12). -/
def writeLive (id : Nat) (a : TableArgs) (entries : Nat) (s : State) : Answer :=
  match tableRange id with
  | some n =>
    refuse s (match firstRefusal (writeChecks a (if isLive id then entries else 0) n false false false) with
      | some r => r
      | none => .inUse)
  | none => refuse s (if !formOk a || decide (entries ≠ a.count) then .malformed else .badIndex)

end Sys2Proof.Machine
end

