-- ==== Sys2Proof/Machine/Reads.lean ====
section
/-! DEFINITION. Reads: the entries TABLE_READ returns (R174, R176) and the extended status of READ_STATUS (R178). -/

namespace Sys2Proof.Machine

open Sys2Proof

/-- Entry `i` of a configuration table. -/
def entryAt {α : Type} {n : Nat} (t : Vector α n) (i : Nat) (f : α → TableEntry) : Option TableEntry :=
  (finAt n i).map fun k => f t[k]

/-- Entry `i` of the conflict matrix (R18). -/
def matrixEntry (s : State) (i : Nat) : Option TableEntry :=
  match finAt 32 (i / 32), finAt 32 (i % 32) with
  | some x, some y => some (.conflict (ig s x y))
  | _, _ => none

/-- Entry `i` of a plan table: the header or a step (R43). -/
def planTableEntry (s : State) (p : Fin 8) (i : Nat) : Option TableEntry :=
  let x := s.tables.plan[p]
  if i = 0 then some (.planHeader x.cycle x.offset x.steps) else entryAt x.entries (i - 1) .planStep

/-- Entry `i` of the schedule table (R102). -/
def schedEntry (s : State) (i : Nat) : Option TableEntry :=
  if i = 0 then some (.schedHeader s.tables.schedDefault) else entryAt s.tables.sched (i - 1) .sched

/-- Entry `i` of the circuit live table (R125, R146). -/
def circuitLive (s : State) (i : Nat) : Option TableEntry :=
  (finAt 96 i).map fun c => .circuitLive s.prov.circuits[c] s.cable.circuits[c]

/-- Entry `i` of the group live table (R20, R142, R143). -/
def groupLive (s : State) (i : Nat) : Option TableEntry :=
  (finAt 32 i).map fun g => .groupLive s.groups[g] s.prov.red[g] (setStatuses s g)

/-- Entry `i` of the FIU live table (R107, R146). -/
def fiuLive (s : State) (i : Nat) : Option TableEntry :=
  (finAt 12 i).map fun u => .fiuLive s.bus.units[u] s.cable.leak[u]

/-- Entry `i` of the engine status table (R174). -/
def engineStatus (s : State) (i : Nat) : Option TableEntry :=
  match i with
  | 0 => some (.engine s.eng s.jm s.latched)
  | 1 => some (.clock s.clock s.mains s.sched s.coll.demanded)
  | 2 => some (.runs s.junctionRun s.clearRuns)
  | i + 3 =>
    (finAt 8 i).map fun p => .planStatus s.tables.plan[p].state (inUse s p) s.tables.plan[p].errors

/-- Entry `i` of the table with the id, as it stands (R174, R176). -/
def readEntry (s : State) (id i : Nat) : Option TableEntry :=
  match id with
  | 0x01 => entryAt s.tables.fiu i .fiu
  | 0x02 => entryAt s.tables.group i .group
  | 0x03 => entryAt s.tables.circuit i .circuit
  | 0x04 => matrixEntry s i
  | 0x05 => entryAt s.tables.stage i .stage
  | 0x06 => entryAt s.tables.input i .input
  | 0x07 => entryAt s.tables.pattern i .pattern
  | 0x08 => some (.startUp s.tables.startUp)
  | 0x11 => planTableEntry s 0 i
  | 0x12 => planTableEntry s 1 i
  | 0x13 => planTableEntry s 2 i
  | 0x14 => planTableEntry s 3 i
  | 0x15 => planTableEntry s 4 i
  | 0x16 => planTableEntry s 5 i
  | 0x17 => planTableEntry s 6 i
  | 0x18 => planTableEntry s 7 i
  | 0x20 => schedEntry s i
  | 0x21 => entryAt s.tables.reaction i .reaction
  | 0x22 => some (.proving s.tables.proving)
  | 0x23 => some (.cable s.tables.cable)
  | 0x24 => entryAt s.tables.reference i .reference
  | 0x30 => circuitLive s i
  | 0x31 => groupLive s i
  | 0x32 => fiuLive s i
  | 0x33 => entryAt s.coll.slots i .fault
  | 0x34 => engineStatus s i
  | 0x35 => entryAt s.prov.learn i .learn
  | _ => none

/-- The entry size of a table: R184's for the four tables it lays out, the four-byte mask of R181 for the stage table, whose entry is one green
set (R42), and the free value of Config for the others (DESIGN CHOICE, safe; log entry 5). -/
def entrySize (id : Nat) : Nat :=
  match id with
  | 0x03 => 10
  | 0x04 => 1
  | 0x05 => 4
  | 0x11 | 0x12 | 0x13 | 0x14 | 0x15 | 0x16 | 0x17 | 0x18 => 11
  | 0x33 => 27
  | id => Config.entrySize id

/-- The length of a reply that carries the entries: the frame's 7 bytes, the reply header's 8, and the entries (R176, R182). -/
def readLength (id count : Nat) : Nat := 7 + 8 + count * entrySize id

/-- The checks of a TABLE_READ of a table with `range` indices (R176). -/
def readChecks (id range : Nat) (a : TableArgs) : List (Bool × Result) :=
  [(!formOk a, .malformed),
   ((addressed a).any fun i => decide (range ≤ i), .badIndex),
   (decide (1024 < readLength id a.count), .malformed)]

/-- The entries a TABLE_READ addresses, in order (R176). -/
def readEntries (s : State) (id : Nat) (a : TableArgs) : List TableEntry := (addressed a).filterMap (readEntry s id)

/-- TABLE_READ (R176). -/
def takeRead (id : Nat) (a : TableArgs) (s : State) : Answer :=
  match tableRange id with
  | some n => checked (readChecks id n a) s ⟨s, .done, .entries (readEntries s id a)⟩
  | none => refuse s (if formOk a then .badIndex else .malformed)

/-- The extended status (R178). -/
def statusNow (s : State) : Status :=
  { configOpen := s.port.configOpen
    started := s.jm.started
    departure := s.jm.departure
    demanded := s.coll.demanded
    overflow := s.coll.overflow
    weekday := s.clock.weekday
    ms := s.clock.ms
    day := s.clock.day
    effPlan := s.sched.effPlan
    effDim := s.sched.effDim
    reports := s.bus.queue.length
    dropped := s.bus.dropped
    slot := s.bus.slot
    effSlot := effSlot s }

end Sys2Proof.Machine
end

