-- ==== Sys2Proof/Machine/Requests.lean ====
section
/-! DEFINITION. Requests: the checks and effects of every request other than the table requests, as its owning rule gives them. -/

namespace Sys2Proof.Machine

open Sys2Proof

/-! ## Configuration and restart (R177, R179) -/

/-- FIU faults held raised for a unit cleared at the collector (R122). -/
def clearUnitFaults (s : State) (u : Fin 12) : State :=
  let x := s.bus.units[u]
  let s1 := if x.lostRaised then takeClear s .fiuLost (num u) else s
  let s2 := if x.mismatchRaised then takeClear s1 .fiuMismatch (num u) else s1
  let s3 := if x.hotRaised then takeClear s2 .fiuOvertemp (num u) else s2
  if x.dimRaised then takeClear s3 .dimUnlearned (num u) else s3

/-- Lamp and cable faults held raised for a circuit cleared at the collector (R144, R158). -/
def clearCircuitFaults (s : State) (c : Fin 96) : State :=
  let s1 := match s.prov.circuits[c].fault with | some f => takeClear s (LampFault.kind f) (num c) | none => s
  let r := s.cable.circuits[c]
  let s2 := if r.openRaised then takeClear s1 .cableOpen (num c) else s1
  let s3 := if r.shortRaised then takeClear s2 .cableShort (num c) else s2
  let s4 := if r.crossRaised then takeClear s3 .crossFeed (num c) else s3
  if r.ovcRaised then takeClear s4 .overcurrent (num c) else s4

/-- RED_LOST held raised for a group cleared at the collector (R144). -/
def clearRedFault (s : State) (g : Fin 32) : State :=
  if s.prov.red[g] = .lost then takeClear s .redLost (num g) else s

/-- EARTH_LEAKAGE held raised for a unit cleared at the collector (R158). -/
def clearLeakFault (s : State) (u : Fin 12) : State :=
  if s.cable.leak[u].raised then takeClear s .earthLeakage (num u) else s

/-- DETECTOR_STUCK held raised for an entry cleared at the collector (R50). -/
def clearStuck (s : State) (e : Fin 64) : State :=
  if s.inputs[e].stuck then takeClear s .detectorStuck (num e) else s

/-- Every condition the detecting blocks hold raised, cleared at the collector (R163, R177). -/
def clearConditions (s : State) : State :=
  (idx 64).foldl clearStuck
    ((idx 12).foldl clearLeakFault
      ((idx 32).foldl clearRedFault ((idx 96).foldl clearCircuitFaults ((idx 12).foldl clearUnitFaults s))))

/-- Learn records set to IDLE (R140). -/
def abortLearning (p : Proving) : Vector LearnRec 96 := tab fun c => LearnRec.aborted p.learn[c]

/-- The lamp proving unit as ENGINE_RESTART and CONFIG_OPEN leave it (R144). -/
def restartProving (p : Proving) : Proving := { provingUnitPor with learn := abortLearning p }

/-- A unit's record as ENGINE_RESTART and CONFIG_OPEN leave it, but for its state: type and serial are kept (R122). -/
def restartUnit (x : UnitRec) (st : UnitState) : UnitRec :=
  { unitPor with state := st, typeCode := x.typeCode, serial := x.serial }

/-- A plan at CONFIG_OPEN: LOADED unless EMPTY (R44). Its error list is emptied with it, R45 naming no end of the list but a write, a validation
and a reset (DESIGN CHOICE, unsafe; log entry 34). -/
def unloadPlan (p : Plan) : Plan := if p.state = .empty then p else { p with state := .loaded, errors := [] }

/-- The pass-through slot at CONFIG_OPEN (R119). -/
def abandonPass (x : PassSlot) : PassSlot :=
  match x with
  | .waiting m _ | .listening m => .answered m .abandoned []
  | .empty | .answered _ _ _ => x

/-- Inputs and latched demands cleared (R49 to R51). -/
def clearInputs (s : State) : State := { s with inputs := Vector.replicate 64 inputRecPor, latched := 0 }

/-- What CONFIG_OPEN does (R177; R15, R41, R44, R49 to R51, R93, R119, R122, R144, R158). The inhibit demand is formed with the clears, while the
circuit map still stands, and then stands without it, so that a group of a circuit or a unit whose INHIBIT stays in force stays in the inhibit set
until the next change of the fault table (R41, R167; DESIGN CHOICE, unsafe; log entry 33). R93 has the demanded mode unchanged; it is formed from the table with the clears taken, as R165 and R168 say, so that a
FLASH or DARK demanded by an auto-recovering kind alone ends here (DESIGN CHOICE, unsafe; log entry 58). -/
def takeConfigOpen (s : State) : State :=
  let s1 := formInhibit (clearInputs (clearConditions s))
  { s1 with
    map := none
    tables := { s1.tables with plan := tab fun p => unloadPlan s1.tables.plan[p] }
    jm := { s1.jm with reason := .config, started := false }
    bus := { s1.bus with
      units := tab fun u => restartUnit s1.bus.units[u] .unused
      slot := abandonPass s1.bus.slot, round := roundNone, sent := [] }
    prov := restartProving s1.prov
    cable := cablePor
    coll := { s1.coll with demandStands := true }
    port := { s1.port with configOpen := true } }

/-- CONFIG_OPEN (R177). -/
def configOpenReq (s : State) : Answer :=
  checked [(decide (s.jm.mode ≠ .dark), .badState)] s (done (takeConfigOpen s))

/-- A group's observed-green fields cleared (R40). -/
def clearGreen (r : GroupRec) : GroupRec := { r with greenRun := 0, quiet := 0, seen := false, raised := false }

/-- The mains faults held raised are raised again at the emptied table (R106), MAINS_FREQUENCY first (DESIGN CHOICE, unsafe; log entry 56). -/
def raiseMainsAgain (s : State) : State :=
  let s1 := if s.mains.freqRaised then takeRaise s .mainsFrequency 0 .absent else s
  if s.mains.interRaised then takeRaise s1 .mainsInterruption 0 .absent else s1

/-- The mode record at ENGINE_RESTART (R93). -/
def restartMode (fresh : Bool) (j : ModeRec) : ModeRec :=
  { modePor with reason := .restart, schedMode := j.schedMode, timerFresh := fresh, silenceFresh := fresh }

/-- The bus at ENGINE_RESTART (R122). -/
def restartBus (s : State) : Bus :=
  { s.bus with
    units := tab fun u => restartUnit s.bus.units[u] (if present s u then .expected else .unused)
    slot := .empty, forward := 0, queue := [], dropped := 0, round := roundNone, sent := [] }

/-- What ENGINE_RESTART does (R179; R17, R40, R73, R93, R106, R122, R144, R158, R168). The outputs are handed on once, after the raises
of R106 (DESIGN CHOICE, unsafe; log entry 55). -/
def takeEngineRestart (s : State) : State :=
  let s1 := handAll (engineIdle (setMode s (restartMode (!s.inPulse)))) .dark
  let s2 : State :=
    { clearInputs s1 with
      groups := tab fun g => clearGreen s1.groups[g]
      eng := { s1.eng with invalidRaised := 0 }
      bus := restartBus s1
      prov := restartProving s1.prov
      cable := cablePor
      coll := { s1.coll with slots := Vector.replicate 64 none, overflow := none, inhibitDemand := 0, demandStands := false } }
  raiseMainsAgain s2

/-- ENGINE_RESTART (R179). -/
def engineRestartReq (s : State) : Answer := done (takeEngineRestart s)

/-! ## Start (R77) -/

/-- The identity is blank: every slot is blank (R180). -/
def blankIdentity (s : State) : Bool := decide (effSlot s = 0)

/-- START finds the mode or the reason unfit (R77). -/
def startUnfit (s : State) : Bool :=
  !(decide (s.jm.mode = .dark) && (s.port.configOpen || decide (s.jm.reason = .restart)))

/-- UNEXPECTED_GREEN cleared for a group that is UNUSED from this START (R41). -/
def dropGreen (s : State) (g : Fin 32) : State :=
  if !live s g && s.groups[g].raised then
    setGroup (takeClear s .unexpectedGreen (num g)) g fun r => { r with raised := false }
  else s

/-- Unit states at an accepted START (R77, R107). -/
def expectUnits (s : State) : State :=
  setBus s fun b =>
    { b with
      units := tab fun u => { b.units[u] with state := if present s u then .expected else .unused }
      sinceRoll := 60, round := roundNone }

/-- Every circuit is due for a cable test (R146). -/
def dueTests (s : State) : State :=
  { s with cable := { s.cable with circuits := tab fun c => { s.cable.circuits[c] with sinceTest := 65535 } } }

/-- What an accepted START does, in the order of R77. R77 gives no place to R41's clear of UNEXPECTED_GREEN for the groups now UNUSED: the model
takes it after the circuit map is built and before started is set, the schedule is evaluated and the mode is entered, so that an acknowledged record
no longer demands a mode at the entry (DESIGN CHOICE, unsafe; log entry 77). -/
def acceptStart (s : State) : State :=
  let s1 : State := { setPort s fun p => { p with configOpen := false } with acting := liveSet s }
  let s2 := (idx 32).foldl dropGreen { s1 with map := some (buildMap s1) }
  let s3 := dueTests (expectUnits (setMode s2 fun j => { j with started := true }))
  enterMode (formResults true s3) .startFlash .controller

/-- START past its identity check: every plan that is not EMPTY is validated, and the structure decides (R77). The data of DONE have the layout that
R182 gives the data of INVALID (DESIGN CHOICE, unsafe; log entry 63). -/
def startValidated (s : State) : Answer :=
  let s1 := refreshInvalid (validateAll s)
  let es := structuralErrors s
  if es.isEmpty then ⟨acceptStart s1, .done, .errors (planEntries s1)⟩
  else ⟨s1, .invalid, .errors (es ++ planEntries s1)⟩

/-- START (R77). -/
def startReq (s : State) : Answer :=
  checked [(startUnfit s, .badState), (blankIdentity s, .blankIdentity)] s (startValidated s)

/-! ## Plans (R45, R66, R84, R104) -/

/-- What follows a plan becoming VALID (R45, R66, R84): the clears of PLAN_INVALID first (DESIGN CHOICE, unsafe; log entry 68). -/
def planBecameValid (s : State) (p : Fin 8) : State :=
  let s1 := refreshInvalid s
  let s2 := if s1.eng.running.isSome && decide (s1.eng.governing = p) then dealGoverning s1 p else s1
  if p = s2.eng.governing ∨ p = fallback s2 then noPlanExit s2 else s2

/-- A plan validated on request (R45). -/
def validateOne (s : State) (p : Fin 8) : Answer :=
  if inUse s p then done s
  else
    let s1 := setPlan s p (validated s)
    if planValid s1 p then done (planBecameValid s1 p)
    else ⟨s1, .invalid, .errors (s1.tables.plan[p].errors.map fun e => ⟨num p, e.1.number, e.2⟩)⟩

/-- VALIDATE_PLAN (R45). -/
def validatePlanReq (p : Nat) (s : State) : Answer :=
  if s.port.configOpen then refuse s .badState
  else
    match ofNum 8 p with
    | some k => checked [(decide (s.tables.plan[k].state = .empty), .badState)] s (validateOne s k)
    | none => refuse s .badIndex

/-- SELECT_PLAN (R104). -/
def selectPlanReq (p : Nat) (s : State) : Answer :=
  match ofNum 8 p with
  | some k => done (handPlan false { s with sched := { s.sched with planOverride := some k } })
  | none => refuse s .badIndex

/-- RELEASE_PLAN (R104). -/
def releasePlanReq (s : State) : Answer :=
  done (handPlan false { s with sched := { s.sched with planOverride := none } })

/-! ## Identity (R180) -/

/-- The lowest-numbered blank identity slot (R180). -/
def blankSlot (s : State) : Option (Fin 3) := (idx 3).find? fun k => s.port.identity[k].isNone

/-- PROGRAM_IDENTITY (R180). An ALERT slot that is READY keeps the identity it holds (DESIGN CHOICE, unsafe; log entry 57). -/
def programIdentityReq (bytes : List Byte) (s : State) : Answer :=
  checked [(decide (bytes.length ≠ 8), .malformed), (!s.port.configOpen, .badState)] s
    (match blankSlot s with
     | some k => ⟨setPort s fun p => { p with identity := put p.identity k (some bytes) }, .done, .slot (num k)⟩
     | none => refuse s .noSlot)

/-- READ_IDENTITY (R180). -/
def readIdentityReq (s : State) : Answer := ⟨s, .done, .identity s.port.identity (effSlot s)⟩

/-! ## Hold, step and demand (R52, R68 to R71) -/

/-- The controller hold set or released; a hold that stops applying to the current step sets resync (R65, R68 to R70). -/
def setHold (s : State) (h : Option HoldMode) : State :=
  resyncIfReleased s (setEng s fun e => { e with hold := h, cycleReached := false })

/-- HOLD (R68). -/
def holdReq (mode : Nat) (s : State) : Answer :=
  match HoldMode.ofCode mode with
  | some h => checked [(decide (s.jm.mode ≠ .plan), .badState)] s (done (setHold s (some h)))
  | none => refuse s .badValue

/-- RELEASE_HOLD (R70). -/
def releaseHoldReq (s : State) : Answer := done (setHold s none)

/-- A STEP may be taken now (R71). -/
def stepFit (s : State) : Bool :=
  decide (s.jm.mode = .plan) && holdApplies s && (decide (s.eng.sub = .min) || decide (s.eng.sub = .hold))

/-- The stage is named by a step of the running plan other than the current one, and is not the current step's (R71). -/
def stepNames (s : State) (p : Fin 8) (st : Fin 16) : Bool :=
  (idx 16).any (fun k => decide (k.val < nSteps s p) && decide (k ≠ s.eng.cur) && decide (stageIx s p k = some st)) &&
    decide (stageIx s p s.eng.cur ≠ some st)

/-- The stage has a group of type VEHICLE or PEDESTRIAN outside the inhibit set (R71). -/
def stageOpen (s : State) (st : Fin 16) : Bool := (stageGroups s (num st)).any fun g => !s.groups[g].inhibited

/-- The step request set (R71). -/
def requestStep (s : State) (r : StepReq) : State := setEng s fun e => { e with stepReq := some r }

/-- STEP past its index check (R71). -/
def stepTo (s : State) (r : StepReq) : Answer :=
  match s.eng.running with
  | some p =>
    match r with
    | .next => checked [(!stepFit s, .badState), (!anotherWanted s p, .badState)] s (done (requestStep s r))
    | .stage st =>
      checked [(!stepFit s, .badState), (!stepNames s p st, .badValue), (!stageOpen s st, .badState)] s
        (done (requestStep s r))
  | none => refuse s .badState

/-- STEP (R71). -/
def stepRequest (t : StepTarget) (s : State) : Answer :=
  match t with
  | .next => stepTo s .next
  | .stage n =>
    match ofNum 16 n with
    | some st => stepTo s (.stage st)
    | none => refuse s .badIndex

/-- DEMAND (R52). -/
def demandReq (stages : List Nat) (s : State) : Answer :=
  checked
    [(!within 1 16 stages.length, .malformed),
     (s.port.configOpen, .badState),
     (stages.any fun n => !within 1 16 n, .badIndex),
     (stages.any fun n => decide (greenSet s n = 0), .badValue)] s
    (done { s with latched := s.latched ||| stageSet stages })

/-! ## Dim (R105) -/

/-- SET_DIM (R105). -/
def setDimReq (code : Nat) (s : State) : Answer :=
  match Tap.ofCode code with
  | some t => done (handDim { s with sched := { s.sched with dimOverride := some t } })
  | none => refuse s .badValue

/-- RELEASE_DIM (R105). -/
def releaseDimReq (s : State) : Answer := done (handDim { s with sched := { s.sched with dimOverride := none } })

/-! ## FLASH, DARK, RESUME (R80, R84) -/

/-- FLASH or DARK taken (R80). -/
def takeStop (s : State) (m : Mode) (d : Dest) (orderly : Bool) : State :=
  match s.jm.mode with
  | .plan | .directDrive => if orderly then setDeparture s d .controller else enterMode s m .controller
  | .startFlash | .startRed => enterMode s m .controller
  | .flash | .dark => enterOrKeep s m .controller

/-- FLASH (R80). -/
def flashReq (option : Nat) (s : State) : Answer :=
  checked
    [(decide (1 < option), .badValue), (!s.jm.started, .badState), (decide (s.coll.demanded = .dark), .badState)] s
    (done (takeStop s .flash .flash (decide (option = 1))))

/-- DARK (R80). -/
def darkReq (option : Nat) (s : State) : Answer :=
  checked [(decide (1 < option), .badValue), (!s.jm.started, .badState)] s
    (done (takeStop s .dark .dark (decide (option = 1))))

/-- RESUME (R84). -/
def resumeReq (s : State) : Answer :=
  checked [(!stoppedFor s .controller, .badState), (decide (s.coll.demanded ≠ .none), .badState)] s
    (done (takeExit s .controller))

/-! ## Direct drive (R34, R35, R85, R86) -/

/-- DIRECT_ENTER (R85). -/
def directEnterReq (s : State) : Answer :=
  checked [(decide (s.jm.mode ≠ .plan) || s.jm.departure.isSome, .badState)] s
    (done (enterMode s .directDrive .controller))

/-- Every entry's target handed to the monitor, in list order (R35). -/
def handEntries (s : State) (es : List (Fin 32 × Target)) : State :=
  es.foldl (fun (s : State) (e : Fin 32 × Target) => handTarget s e.1 e.2) s

/-- An entry's target code is not one of the four, or its group is of type UNUSED (R34). -/
def badTarget (s : State) (e : Nat × Nat) : Bool :=
  (Target.ofCode e.2).isNone || (match ofNum 32 e.1 with | some g => !live s g | none => true)

/-- DIRECT_TARGET past its other checks: refused at the first GO in conflict, else every entry is handed on (R34, R35). -/
def takeTargets (s : State) (es : List (Fin 32 × Target)) : Answer :=
  match directConflict s (pendingSet s) es with
  | some g => ⟨s, .conflict, .conflictGroup (num g)⟩
  | none => done (handEntries s es)

/-- DIRECT_TARGET (R34, R35). -/
def directTargetReq (es : List (Nat × Nat)) (s : State) : Answer :=
  checked
    [(!within 1 32 es.length, .malformed),
     (decide (s.jm.mode ≠ .directDrive), .badState),
     (es.any fun e => !within 1 32 e.1, .badIndex),
     (es.any (badTarget s), .badValue)] s
    (takeTargets s (targetEntries es))

/-- A departure to FLASH or DARK waits (R86). -/
def stopDeparture (s : State) : Bool :=
  match s.jm.departure with
  | some d => decide (d.dest ≠ .startRed)
  | none => false

/-- DIRECT_EXIT (R86). -/
def directExitReq (s : State) : Answer :=
  checked [(decide (s.jm.mode ≠ .directDrive), .badState), (stopDeparture s, .badState)] s
    (done (if s.jm.departure.isSome then s else setDeparture s .startRed .controller))

/-- SYNC_PATTERNS (R92). -/
def syncPatternsReq (s : State) : Answer := done (restartJunctionRun s)

/-! ## Learning (R137, R140) -/

/-- A circuit named by a list is not in the circuit map (R137). -/
def unmapped (s : State) : CircuitList → Bool
  | .all => s.map.isNone
  | .list cs => s.map.isNone || (circuitSet cs).any fun c => !inMap s c

/-- N_min and N_max set into their ranges (R137). -/
def learnMin (n : Nat) : Nat := clampTo 8 255 n

/-- N_max set into its range (R137). -/
def learnMax (n : Nat) : Nat := clampTo 1 1000 n

/-- Learning started on a circuit (R137). -/
def startLearning (t : Tap) (nMin nMax : Nat) (s : State) (c : Fin 96) : State :=
  setLearn s c fun _ => LearnRec.started t nMin nMax

/-- LEARN (R137). -/
def learnReq (cs : CircuitList) (tap nMin nMax : Nat) (s : State) : Answer :=
  let a := learnMin nMin
  let b := learnMax nMax
  checked
    [(badCircuitList cs, .malformed), (badCircuitIndex cs, .badIndex), (unmapped s cs, .badState),
     ((Tap.ofCode tap).isNone, .badValue), (decide (b < a), .badValue)] s
    (match Tap.ofCode tap with
     | some t =>
       ⟨(namedCircuits s cs).foldl (startLearning t a b) s, writeResult (decide (a ≠ nMin) || decide (b ≠ nMax)), .none⟩
     | none => refuse s .badValue)

/-- A LEARNING record aborted; another is left as it is (R140). -/
def cancelLearning (s : State) (c : Fin 96) : State :=
  if s.prov.learn[c].state = .learning then setLearn s c LearnRec.aborted else s

/-- LEARN_CANCEL (R140). -/
def learnCancelReq (cs : CircuitList) (s : State) : Answer :=
  checked [(badCircuitList cs, .malformed), (badCircuitIndex cs, .badIndex)] s
    (done ((namedCircuits s cs).foldl cancelLearning s))

/-! ## Faults and latches (R154, R164) -/

/-- A single acknowledgement (R164). -/
def ackOne (s : State) (k : Kind) (n : Nat) : State :=
  match findSlot s k n with
  | some i => ackSlot s i
  | none => s

/-- ACK_FAULT (R164). -/
def ackFaultReq (a : AckArg) (s : State) : Answer :=
  match a with
  | .neither => refuse s .malformed
  | .all => done ((idx 64).foldl ackSlot s)
  | .one k n =>
    match Kind.ofNumber k with
    | some kd => checked [(!subjectOk kd n, .badIndex)] s (done (ackOne s kd n))
    | none => refuse s .badValue

/-- The latch of a circuit cleared (R154), OVERCURRENT before the release is handed on (DEDUCED, unsafe; log entry 76). -/
def takeClearLatch (s : State) (c : Fin 96) : State :=
  let s1 := setCable s c fun r => { r with retry := .normal, trips := 0, cleanOn := 0, ovcRaised := false }
  releaseVerdict (clear s1 .overcurrent (num c)) c

/-- CLEAR_LATCH (R154). -/
def clearLatchReq (c : Nat) (s : State) : Answer :=
  match ofNum 96 c with
  | some k =>
    checked
      [(s.map.isNone || !inMap s k, .badState), (decide (s.cable.circuits[k].retry ≠ .latched), .badState)] s
      (done (takeClearLatch s k))
  | none => refuse s .badIndex

/-! ## Status, forwarding and pass-through (R118, R120, R178) -/

/-- READ_STATUS (R178). -/
def readStatusReq (s : State) : Answer := ⟨s, .done, .status (statusNow s)⟩

/-- FORWARD_SET (R120). -/
def forwardSetReq (units : List Nat) (s : State) : Answer :=
  checked [(decide (12 < units.length), .malformed), (units.any fun u => !within 1 12 u, .badIndex)] s
    (done (setBus s fun b => { b with forward := unitSet units }))

/-- PASS past its index check (R118). -/
def passTo (s : State) (u : Fin 12) (tag kind : Byte) (payload : List Byte) : Answer :=
  checked
    [(!within 0x40 0x4F kind.toNat, .filtered),
     (decide (s.bus.slot ≠ .empty), .busy),
     (decide (s.bus.units[u].state ≠ .admitted), .badState)] s
    (done (setBus s fun b => { b with slot := .waiting ⟨u, kind, payload, tag⟩ false }))

/-- PASS (R118). -/
def passReq (tag : Byte) (unit : Nat) (kind : Byte) (payload : List Byte) (s : State) : Answer :=
  if 48 < payload.length then refuse s .malformed
  else
    match ofNum 12 unit with
    | some u => passTo s u tag kind payload
    | none => refuse s .badIndex

/-! ## Clock (R100, R101) -/

/-- SET_TIME (R101). -/
def setTimeReq (weekday ms : Nat) (s : State) : Answer :=
  checked [(decide (6 < weekday) || decide (86399999 < ms), .badValue)] s (done (takeSetTime s weekday ms))

/-- A trim set into −500 to +500 (R100). -/
def clampTrim (t : Int) : Int := max (-500) (min 500 t)

/-- TRIM (R100). -/
def trimReq (t : Int) (source : Nat) (s : State) : Answer :=
  match Source.ofCode source with
  | some src =>
    ⟨setClock s fun c => { c with trim := clampTrim t, preferred := src }, writeResult (decide (clampTrim t ≠ t)), .none⟩
  | none => refuse s .badValue

end Sys2Proof.Machine
end

