-- ==== Sys2Proof/Machine/ExecRequests.lean ====
section
/-! DEFINITION. ExecRequests: the meaning of every request command: its kind code (R181) and its body, served by the port (R170). -/

namespace Sys2Proof.Machine

open Sys2Proof

/-- What every meaning answers: the commands of the part have an effect in every state. -/
abbrev Out := Host.Outcome State Fault Refusal

/-- CONFIG_OPEN (R177). -/
def execConfigOpen (tag : Byte) (s : State) : Out :=
  .next (serve 0x01 tag configOpenReq s)

/-- TABLE_WRITE of the FIU table (R6). -/
def execTableWriteFiu (tag : Byte) (a : TableArgs) (es : List FiuEntry) (s : State) : Out :=
  .next (serve 0x02 tag (writeFiu a es) s)

/-- TABLE_WRITE of the group table (R2). -/
def execTableWriteGroup (tag : Byte) (a : TableArgs) (es : List GroupEntry) (s : State) : Out :=
  .next (serve 0x02 tag (writeGroup a es) s)

/-- TABLE_WRITE of the circuit table (R4). -/
def execTableWriteCircuit (tag : Byte) (a : TableArgs) (es : List CircuitEntry) (s : State) : Out :=
  .next (serve 0x02 tag (writeCircuit a es) s)

/-- TABLE_WRITE of the conflict matrix (R19). -/
def execTableWriteConflictMatrix (tag : Byte) (a : TableArgs) (es : List Nat) (s : State) : Out :=
  .next (serve 0x02 tag (writeMatrix a es) s)

/-- TABLE_WRITE of the stage table (R42). -/
def execTableWriteStage (tag : Byte) (a : TableArgs) (es : List GroupSet) (s : State) : Out :=
  .next (serve 0x02 tag (writeStage a es) s)

/-- TABLE_WRITE of the input map (R48). -/
def execTableWriteInputMap (tag : Byte) (a : TableArgs) (es : List InputEntry) (s : State) : Out :=
  .next (serve 0x02 tag (writeInput a es) s)

/-- TABLE_WRITE of the pattern table (R91). -/
def execTableWritePattern (tag : Byte) (a : TableArgs) (es : List PatternEntry) (s : State) : Out :=
  .next (serve 0x02 tag (writePattern a es) s)

/-- TABLE_WRITE of the start-up record (R76). -/
def execTableWriteStartUpRecord (tag : Byte) (a : TableArgs) (es : List StartUp) (s : State) : Out :=
  .next (serve 0x02 tag (writeStartUp a es) s)

/-- TABLE_WRITE of a plan (R43). -/
def execTableWritePlan (tag : Byte) (plan : Nat) (a : TableArgs) (es : List (List Byte)) (s : State) : Out :=
  .next (serve 0x02 tag (writePlan plan a es) s)

/-- TABLE_WRITE of the schedule (R102). -/
def execTableWriteSchedule (tag : Byte) (a : TableArgs) (es : List SchedRaw) (s : State) : Out :=
  .next (serve 0x02 tag (writeSched a es) s)

/-- TABLE_WRITE of the reaction table (R160). -/
def execTableWriteReaction (tag : Byte) (a : TableArgs) (es : List Nat) (s : State) : Out :=
  .next (serve 0x02 tag (writeReaction a es) s)

/-- TABLE_WRITE of the proving parameters (R124). -/
def execTableWriteProvingParameters (tag : Byte) (a : TableArgs) (es : List ProvingParams) (s : State) : Out :=
  .next (serve 0x02 tag (writeProving a es) s)

/-- TABLE_WRITE of the cable parameters (R145). -/
def execTableWriteCableParameters (tag : Byte) (a : TableArgs) (es : List CableParams) (s : State) : Out :=
  .next (serve 0x02 tag (writeCable a es) s)

/-- TABLE_WRITE of the reference table (R129). -/
def execTableWriteReference (tag : Byte) (a : TableArgs) (es : List RefEntry) (s : State) : Out :=
  .next (serve 0x02 tag (writeReference a es) s)

/-- TABLE_WRITE of a live table (R175). -/
def execTableWriteLive (tag : Byte) (id : Nat) (a : TableArgs) (entries : Nat) (s : State) : Out :=
  .next (serve 0x02 tag (writeLive id a entries) s)

/-- TABLE_READ (R176). -/
def execTableRead (tag : Byte) (id : Nat) (a : TableArgs) (s : State) : Out :=
  .next (serve 0x03 tag (takeRead id a) s)

/-- VALIDATE_PLAN (R45). -/
def execValidatePlan (tag : Byte) (plan : Nat) (s : State) : Out :=
  .next (serve 0x04 tag (validatePlanReq plan) s)

/-- START (R77). -/
def execStart (tag : Byte) (s : State) : Out :=
  .next (serve 0x05 tag startReq s)

/-- PROGRAM_IDENTITY (R180). -/
def execProgramIdentity (tag : Byte) (bytes : List Byte) (s : State) : Out :=
  .next (serve 0x06 tag (programIdentityReq bytes) s)

/-- READ_IDENTITY (R180). -/
def execReadIdentity (tag : Byte) (s : State) : Out :=
  .next (serve 0x07 tag readIdentityReq s)

/-- SELECT_PLAN (R104). -/
def execSelectPlan (tag : Byte) (plan : Nat) (s : State) : Out :=
  .next (serve 0x08 tag (selectPlanReq plan) s)

/-- RELEASE_PLAN (R104). -/
def execReleasePlan (tag : Byte) (s : State) : Out :=
  .next (serve 0x09 tag releasePlanReq s)

/-- HOLD (R68). -/
def execHold (tag : Byte) (mode : Nat) (s : State) : Out :=
  .next (serve 0x0A tag (holdReq mode) s)

/-- RELEASE_HOLD (R70). -/
def execReleaseHold (tag : Byte) (s : State) : Out :=
  .next (serve 0x0B tag releaseHoldReq s)

/-- STEP (R71). -/
def execStep (tag : Byte) (target : StepTarget) (s : State) : Out :=
  .next (serve 0x0C tag (stepRequest target) s)

/-- DEMAND (R52). -/
def execDemand (tag : Byte) (stages : List Nat) (s : State) : Out :=
  .next (serve 0x0D tag (demandReq stages) s)

/-- SET_DIM (R105). -/
def execSetDim (tag : Byte) (code : Nat) (s : State) : Out :=
  .next (serve 0x0E tag (setDimReq code) s)

/-- RELEASE_DIM (R105). -/
def execReleaseDim (tag : Byte) (s : State) : Out :=
  .next (serve 0x0F tag releaseDimReq s)

/-- FLASH (R80). -/
def execFlash (tag : Byte) (option : Nat) (s : State) : Out :=
  .next (serve 0x10 tag (flashReq option) s)

/-- DARK (R80). -/
def execDark (tag : Byte) (option : Nat) (s : State) : Out :=
  .next (serve 0x11 tag (darkReq option) s)

/-- RESUME (R84). -/
def execResume (tag : Byte) (s : State) : Out :=
  .next (serve 0x12 tag resumeReq s)

/-- DIRECT_ENTER (R85). -/
def execDirectEnter (tag : Byte) (s : State) : Out :=
  .next (serve 0x13 tag directEnterReq s)

/-- DIRECT_TARGET (R34, R35). -/
def execDirectTarget (tag : Byte) (es : List (Nat × Nat)) (s : State) : Out :=
  .next (serve 0x14 tag (directTargetReq es) s)

/-- DIRECT_EXIT (R86). -/
def execDirectExit (tag : Byte) (s : State) : Out :=
  .next (serve 0x15 tag directExitReq s)

/-- SYNC_PATTERNS (R92). -/
def execSyncPatterns (tag : Byte) (s : State) : Out :=
  .next (serve 0x16 tag syncPatternsReq s)

/-- LEARN (R137). -/
def execLearn (tag : Byte) (cs : CircuitList) (tap nMin nMax : Nat) (s : State) : Out :=
  .next (serve 0x17 tag (learnReq cs tap nMin nMax) s)

/-- LEARN_CANCEL (R140). -/
def execLearnCancel (tag : Byte) (cs : CircuitList) (s : State) : Out :=
  .next (serve 0x18 tag (learnCancelReq cs) s)

/-- ACK_FAULT (R164). -/
def execAckFault (tag : Byte) (arg : AckArg) (s : State) : Out :=
  .next (serve 0x19 tag (ackFaultReq arg) s)

/-- CLEAR_LATCH (R154). -/
def execClearLatch (tag : Byte) (circuit : Nat) (s : State) : Out :=
  .next (serve 0x1A tag (clearLatchReq circuit) s)

/-- READ_STATUS (R178). -/
def execReadStatus (tag : Byte) (s : State) : Out :=
  .next (serve 0x1B tag readStatusReq s)

/-- FORWARD_SET (R120). -/
def execForwardSet (tag : Byte) (units : List Nat) (s : State) : Out :=
  .next (serve 0x1C tag (forwardSetReq units) s)

/-- PASS (R118). -/
def execPass (tag : Byte) (unit : Nat) (kind : Byte) (payload : List Byte) (s : State) : Out :=
  .next (serve 0x1D tag (passReq tag unit kind payload) s)

/-- SET_TIME (R101). -/
def execSetTime (tag : Byte) (weekday ms : Nat) (s : State) : Out :=
  .next (serve 0x1E tag (setTimeReq weekday ms) s)

/-- TRIM (R100). -/
def execTrim (tag : Byte) (t : Int) (source : Nat) (s : State) : Out :=
  .next (serve 0x1F tag (trimReq t source) s)

/-- ENGINE_RESTART (R179). -/
def execEngineRestart (tag : Byte) (s : State) : Out :=
  .next (serve 0x20 tag engineRestartReq s)

/-- An intact frame whose kind or payload is not a request's (R169): answered MALFORMED, no other effect. -/
def execMalformedRequest (kind tag : Byte) (s : State) : Out :=
  .next (serve kind tag (fun s => refuse s .malformed) s)

/-- An intact request that arrives while another is in service (R170): answered BUSY, or discarded with the BUSY slot held. With none in
service there is no such request, and nothing changes. -/
def execBusyRequest (kind tag : Byte) (s : State) : Out :=
  .next (if s.port.inService.isSome then finish (answerBusy (received s) kind tag) else s)

end Sys2Proof.Machine
end

