-- ==== Sys2Proof/Machine/ExecEvents.lean ====
section
/-! DEFINITION. ExecEvents: the meaning of every command that is not a request: what comes from the lines, the crystal and the field bus, and the
moments at which a count or a timer runs out. A moment that is not due, or whose event no longer stands, has no effect (DESIGN CHOICE, unsafe;
log entry 2). -/

namespace Sys2Proof.Machine

open Sys2Proof

/-! ## Effects that belong to no other file -/

/-- The part after POR (R16, R20, R42, R44, R48, R73, R74, R91, R93, R102, R106, R107, R122, R124, R125, R129, R138, R144 to R146, R158, R160,
R168 to R173): the identity slots are kept (R180), and the ALERT of the end of POR, with the effective identity (R172), is taken by the free
transmitter (R173). -/
def por (s : State) : State :=
  let s1 := setPort { State.reset with pending := s.pending } fun p => { p with identity := s.port.identity, tx := none }
  kick (setPort s1 fun p => { p with alert := some ⟨summaryPor, effSlot s1, effIdentity s1⟩ })

/-- A command that names a moment a rule places at a decisecond pulse: while the pulse stands and the moment is due, the work is done as part of that
pulse, so that no timer it starts carries a fresh mark, and otherwise nothing changes (R21, R27, R60, R78, R87; log entry 2). -/
def atPulse (due : Bool) (f : State → State) (s : State) : State :=
  if pulseStands s && due then { finish (f { s with inPulse := true }) with inPulse := s.inPulse } else finish s

/-- A command that names a moment of a window start: the work is done while the window start stands (R37 to R39; log entry 2). -/
def atWindow (f : State → State) (s : State) : State := finish (if windowStands s then f s else s)

/-- A command that names a moment of a frame: the work is done while a frame stands that took the input or the unit's counts in, or did the work
the moment belongs to on the circuit (R49, R117, R124, R134, R138, R145, R148, R150; log entry 2). -/
def atFrame (stands : Bool) (f : State → State) (s : State) : State := finish (if stands then f s else s)

/-- The miss of the exchange awaited with the unit is counted and brings the count to the miss limit (R112). -/
def lostByMiss (s : State) (u : Fin 12) : Bool :=
  decide (s.bus.round.awaiting = some u) && counting s && lostDue (countMiss s u) u

/-- A frame being received is discarded and the receiver hunts (R169). -/
def huntAgain (s : State) : State := setPort s fun p => { p with receiver := .hunting }

/-- A byte at the receiver (R169): H'7E begins a frame in HUNTING, any other byte is ignored there; in RECEIVING it belongs to the frame. -/
def byteArrives (s : State) (b : Byte) : State :=
  if s.port.receiver = .hunting ∧ b = 0x7E then setPort s fun p => { p with receiver := .receiving } else s

/-- The flash run is there and its step has run (R92). -/
def patternStepDue (s : State) (r : RunName) : Bool :=
  match r with
  | .junction => stepDue s s.junctionRun
  | .clearance g => match s.clearRuns[g] with | some r => stepDue s r | none => false

/-- A flash run moves to its next step when its step has run (R92). -/
def takePatternStep (s : State) (r : RunName) : State :=
  match r with
  | .junction => if stepDue s s.junctionRun then { s with junctionRun := nextStep s s.junctionRun } else s
  | .clearance g =>
    { s with clearRuns := upd s.clearRuns g fun x => x.map fun r => if stepDue s r then nextStep s r else r }

/-- The current step's stage has started and its minimum has run (R60). -/
def stepMature (s : State) (p : Fin 8) : Bool := s.eng.stageOn && minRun s p

/-- The step may end by its timings: mature, no orderly stop or STEP in the way, and no hold applies (R61, R62, R64, R69; a NEXT that waits is in
the way, DESIGN CHOICE, unsafe; log entry 37). -/
def mayEnd (s : State) (p : Fin 8) : Bool :=
  stepMature s p && !s.eng.orderly && s.eng.stepReq.isNone && !holdStands s

/-- The minimum green of the running plan's current step has run (R60). -/
def minimumEndDue (s : State) : Bool := match s.eng.running with | some p => stepMature s p | none => false

/-- The current step gaps out (R61). -/
def gapOutDue (s : State) : Bool := match s.eng.running with | some p => mayEnd s p && gapped s p | none => false

/-- The current step maxes out (R62). -/
def maxOutDue (s : State) : Bool := match s.eng.running with | some p => mayEnd s p && maxed s p | none => false

/-- The minimum green has run: what fell due meanwhile takes effect (R60). -/
def takeMinimumEnd (s : State) : State :=
  match s.eng.running with
  | some p => if stepMature s p then judgeStepEnd s p else s
  | none => s

/-- The running plan's current step ends (R63). -/
def endRunning (s : State) : State := match s.eng.running with | some p => endStep s p | none => s

/-- The step ends by gap-out when it is due (R61). -/
def takeGapOut (s : State) : State := if gapOutDue s then endRunning s else s

/-- The step ends by max-out when it is due (R62). -/
def takeMaxOut (s : State) : State := if maxOutDue s then endRunning s else s

/-- The counter is read, and the step ends when its force-off has come (R64). -/
def takeForceOff (s : State) : State :=
  let s1 := readCounter s
  match s1.eng.running with
  | some p => if mayEnd s1 p && forced s1 p then endStep s1 p else s1
  | none => s1

/-! ## Meanings -/

/-- Power-on reset (R16 and the reset rule of each block). -/
def execPowerOnReset (s : State) : Out :=
  .next (por s)

/-- A frame with a bad length or CRC is discarded (R169). -/
def execCorruptFrame (_why : Corruption) (s : State) : Out :=
  .next (finish (huntAgain s))

/-- A pause inside a frame discards it (R169). -/
def execFramePauseTimeout (s : State) : Out :=
  .next (finish (huntAgain s))

/-- The transmitter finishes a frame and takes the next (R173). -/
def execFrameSent (s : State) : Out :=
  .next (finish (endFrame s))

/-- A rising edge on MAINS_REF (R94 to R96). -/
def execMainsEdge (period : Nat) (s : State) : Out :=
  .next (finish (takeEdge s period))

/-- 25 out-of-band periods raise MAINS_FREQUENCY (R94). -/
def execMainsFrequencyRaise (s : State) : Out :=
  .next (finish (takeFreqRaise s))

/-- 250 in-band periods clear MAINS_FREQUENCY (R94). -/
def execMainsFrequencyClear (s : State) : Out :=
  .next (finish (takeFreqClear s))

/-- A mains gap begins (R96). -/
def execMainsGapBegin (s : State) : Out :=
  .next (finish (gapBegins s))

/-- A gap reaches 3 nominal periods (R96). -/
def execMainsInterruptionRaise (s : State) : Out :=
  .next (finish (takeInterruption s))

/-- The 50th window start after a gap (R96). -/
def execMainsInterruptionClear (s : State) : Out :=
  .next (finish (takeInterruptionClear s))

/-- A window starts from the crystal (R95). -/
def execSubstituteWindowStart (s : State) : Out :=
  .next (finish (substituteStart s))

/-- A SENSE frame arrives (R112, R116). -/
def execSenseReceived (f : SenseFrame) (s : State) : Out :=
  .next (finish (senseArrives s f))

/-- The exchange with a unit brings no valid frame (R112). -/
def execSenseMiss (u : Fin 12) (s : State) : Out :=
  .next (finish (senseMissed s u))

/-- A miss of the unit awaited brings its miss count to the limit, and the unit is LOST (R112, R113). -/
def execFiuLost (u : Fin 12) (s : State) : Out :=
  .next (finish (if lostByMiss s u then senseMissed s u else s))

/-- A roll-call round falls due (R109). -/
def execRollCallRound (s : State) : Out :=
  .next (finish (goRound (takeRollRound s)))

/-- An IDENT arrives (R111). -/
def execIdentReceived (f : IdentFrame) (s : State) : Out :=
  .next (finish (identArrives s f))

/-- No IDENT came in time (R111). -/
def execIdentTimeout (u : Fin 12) (s : State) : Out :=
  .next (finish (identTimedOut s u))

/-- A unit's answer to PASS arrives (R119). -/
def execPassReplyReceived (f : PassFrame) (s : State) : Out :=
  .next (finish (passArrives s f))

/-- A group's observed-green run reaches its count (R37). -/
def execUnexpectedGreenRaise (g : Fin 32) (s : State) : Out :=
  .next (atWindow (fun s => takeGreenRaise s g) s)

/-- A group's quiet count reaches 25 (R38). -/
def execUnexpectedGreenClear (g : Fin 32) (s : State) : Out :=
  .next (atWindow (fun s => takeGreenClear s g) s)

/-- The decisecond pulse (R97). -/
def execDecisecondPulse (s : State) : Out :=
  .next (finish (pulse s))

/-- A held GREEN ends (R27). -/
def execClearanceStart (g : Fin 32) (s : State) : Out :=
  .next (atPulse (clearanceStartDue s g) (fun s => takeClearanceStart s g) s)

/-- AMBER ends (R27). -/
def execAmberEnd (g : Fin 32) (s : State) : Out :=
  .next (atPulse (amberEndDue s g) (fun s => takeAmberEnd s g) s)

/-- GREEN_FLASH ends (R27). -/
def execClearanceEnd (g : Fin 32) (s : State) : Out :=
  .next (atPulse (clearanceEndDue s g) (fun s => takeClearanceEnd s g) s)

/-- RED_AMBER ends (R28). -/
def execRedAmberEnd (g : Fin 32) (s : State) : Out :=
  .next (atPulse (redAmberEndDue s g) (fun s => takeRedAmberEnd s g) s)

/-- A flash run's step has run (R92). -/
def execPatternStep (r : RunName) (s : State) : Out :=
  .next (atPulse (patternStepDue s r) (fun s => takePatternStep s r) s)

/-- START_FLASH ends (R77). -/
def execStartFlashEnd (s : State) : Out :=
  .next (atPulse (startFlashDue s) takeStartFlashEnd s)

/-- START_RED ends (R78). -/
def execStartRedEnd (s : State) : Out :=
  .next (finish (takeStartRedEnd s))

/-- START_RED passes the start proving limit (R78). -/
def execStartProvingTimeout (s : State) : Out :=
  .next (atPulse (provingTimeoutDue s) takeProvingTimeout s)

/-- The link silence timeout runs in DIRECT_DRIVE (R87). -/
def execControllerSilent (s : State) : Out :=
  .next (atPulse (silentDue s) takeSilent s)

/-- A step's minimum green has run (R60). -/
def execMinimumGreenEnd (s : State) : Out :=
  .next (atPulse (minimumEndDue s) takeMinimumEnd s)

/-- A step gaps out (R61). -/
def execGapOut (s : State) : Out :=
  .next (atPulse (gapOutDue s) takeGapOut s)

/-- An isolated step maxes out (R62). -/
def execMaxOut (s : State) : Out :=
  .next (atPulse (maxOutDue s) takeMaxOut s)

/-- The cycle counter is read and a step's force-off comes (R64). -/
def execForceOff (s : State) : Out :=
  .next (atPulse s.eng.running.isSome takeForceOff s)

/-- The clock reaches a minute boundary (R98, R103). -/
def execMinuteBoundary (s : State) : Out :=
  .next (finish (evaluate (between s)))

/-- The ms of day reach 86,400,000 (R98). -/
def execMidnightRollover (s : State) : Out :=
  .next (finish (takeMidnight s))

/-- An input's disagreement count reaches its debounce (R49). -/
def execInputChange (e : Fin 64) (s : State) : Out :=
  .next (atFrame (frameStands s (inputUnit s e)) (fun s => takeInputChange s e) s)

/-- An input's active time reaches its stuck-on limit (R50). -/
def execDetectorStuck (e : Fin 64) (s : State) : Out :=
  .next (atPulse (stuckDue s e) (fun s => takeStuck s e) s)

/-- A circuit's run reaches its confirm count (R134, R143). -/
def execVerdictConfirm (c : Fin 96) (s : State) : Out :=
  .next (atFrame (frameWorked s FrameWork.judged c) (fun s => recomputeRed (takeConfirm s c)) s)

/-- A learning circuit's ring converges (R139). -/
def execLearnConverge (c : Fin 96) (s : State) : Out :=
  .next (atFrame (frameWorked s FrameWork.learned c) (fun s => takeConverge s c) s)

/-- A learning circuit reaches N_max unconverged (R139). -/
def execLearnUnstable (c : Fin 96) (s : State) : Out :=
  .next (atFrame (frameWorked s FrameWork.learned c) (fun s => takeUnstable s c) s)

/-- A circuit's mismatch run reaches the test confirm count (R149, R141). -/
def execCableFaultConfirm (c : Fin 96) (s : State) : Out :=
  .next (atFrame (frameWorked s FrameWork.tested c) (fun s => recomputeRed (takeCableFault s c)) s)

/-- A circuit's observed-lit run reaches its count (R151). -/
def execCrossFeedRaise (c : Fin 96) (s : State) : Out :=
  .next (atFrame (frameWorked s FrameWork.lit c) (fun s => takeCrossRaise s c) s)

/-- A circuit's quiet count reaches 25 (R151). -/
def execCrossFeedClear (c : Fin 96) (s : State) : Out :=
  .next (atFrame (frameWorked s FrameWork.lit c) (fun s => takeCrossClear s c) s)

/-- A circuit's retry delay has run (R153). -/
def execRetryRelease (c : Fin 96) (s : State) : Out :=
  .next (atPulse (releaseDue s c) (fun s => takeRelease s c) s)

/-- A circuit has run clean for the trip-clear time (R153). -/
def execTripCountClear (c : Fin 96) (s : State) : Out :=
  .next (atPulse (tripClearDue s c) (fun s => takeTripClear s c) s)

/-- A unit's leakage run reaches its count (R155). -/
def execEarthLeakageRaise (u : Fin 12) (s : State) : Out :=
  .next (atFrame (frameStands s (some u)) (fun s => takeLeakRaise s u) s)

/-- A unit's leakage quiet count reaches its count (R156). -/
def execEarthLeakageClear (u : Fin 12) (s : State) : Out :=
  .next (atFrame (frameStands s (some u)) (fun s => takeLeakClear s u) s)

/-- A unit's overtemp run reaches 10 (R117). -/
def execFiuOvertempRaise (u : Fin 12) (s : State) : Out :=
  .next (atFrame (frameStands s (some u)) (fun s => takeHotRaise s u) s)

/-- A unit's overtemp quiet count reaches 50 (R117). -/
def execFiuOvertempClear (u : Fin 12) (s : State) : Out :=
  .next (atFrame (frameStands s (some u)) (fun s => takeHotClear s u) s)

/-- A byte arrives while the receiver may be hunting (R169). -/
def execFrameBegins (b : Byte) (s : State) : Out :=
  .next (finish (byteArrives s b))

/-- A millisecond of the crystal (R99). -/
def execCrystalMillisecond (s : State) : Out :=
  .next (finish (takeCrystalMs s))

end Sys2Proof.Machine
end

