-- ==== Sys2Proof/Machine/Dispatch.lean ====
section
/-! DEFINITION. Dispatch: one arm for each command, each a direct call of its meaning. -/

namespace Sys2Proof.Machine

open Sys2Proof

def exec (i : Instr) (s : State) : Host.Outcome State Fault Refusal :=
  match i with
  | .powerOnReset => Sys2Proof.Machine.execPowerOnReset s
  | .configOpen x0 => Sys2Proof.Machine.execConfigOpen x0 s
  | .tableWriteFiu x0 x1 x2 => Sys2Proof.Machine.execTableWriteFiu x0 x1 x2 s
  | .tableWriteGroup x0 x1 x2 => Sys2Proof.Machine.execTableWriteGroup x0 x1 x2 s
  | .tableWriteCircuit x0 x1 x2 => Sys2Proof.Machine.execTableWriteCircuit x0 x1 x2 s
  | .tableWriteConflictMatrix x0 x1 x2 => Sys2Proof.Machine.execTableWriteConflictMatrix x0 x1 x2 s
  | .tableWriteStage x0 x1 x2 => Sys2Proof.Machine.execTableWriteStage x0 x1 x2 s
  | .tableWriteInputMap x0 x1 x2 => Sys2Proof.Machine.execTableWriteInputMap x0 x1 x2 s
  | .tableWritePattern x0 x1 x2 => Sys2Proof.Machine.execTableWritePattern x0 x1 x2 s
  | .tableWriteStartUpRecord x0 x1 x2 => Sys2Proof.Machine.execTableWriteStartUpRecord x0 x1 x2 s
  | .tableWritePlan x0 x1 x2 x3 => Sys2Proof.Machine.execTableWritePlan x0 x1 x2 x3 s
  | .tableWriteSchedule x0 x1 x2 => Sys2Proof.Machine.execTableWriteSchedule x0 x1 x2 s
  | .tableWriteReaction x0 x1 x2 => Sys2Proof.Machine.execTableWriteReaction x0 x1 x2 s
  | .tableWriteProvingParameters x0 x1 x2 => Sys2Proof.Machine.execTableWriteProvingParameters x0 x1 x2 s
  | .tableWriteCableParameters x0 x1 x2 => Sys2Proof.Machine.execTableWriteCableParameters x0 x1 x2 s
  | .tableWriteReference x0 x1 x2 => Sys2Proof.Machine.execTableWriteReference x0 x1 x2 s
  | .tableWriteLive x0 x1 x2 x3 => Sys2Proof.Machine.execTableWriteLive x0 x1 x2 x3 s
  | .tableRead x0 x1 x2 => Sys2Proof.Machine.execTableRead x0 x1 x2 s
  | .validatePlan x0 x1 => Sys2Proof.Machine.execValidatePlan x0 x1 s
  | .start x0 => Sys2Proof.Machine.execStart x0 s
  | .programIdentity x0 x1 => Sys2Proof.Machine.execProgramIdentity x0 x1 s
  | .readIdentity x0 => Sys2Proof.Machine.execReadIdentity x0 s
  | .selectPlan x0 x1 => Sys2Proof.Machine.execSelectPlan x0 x1 s
  | .releasePlan x0 => Sys2Proof.Machine.execReleasePlan x0 s
  | .hold x0 x1 => Sys2Proof.Machine.execHold x0 x1 s
  | .releaseHold x0 => Sys2Proof.Machine.execReleaseHold x0 s
  | .step x0 x1 => Sys2Proof.Machine.execStep x0 x1 s
  | .demand x0 x1 => Sys2Proof.Machine.execDemand x0 x1 s
  | .setDim x0 x1 => Sys2Proof.Machine.execSetDim x0 x1 s
  | .releaseDim x0 => Sys2Proof.Machine.execReleaseDim x0 s
  | .flash x0 x1 => Sys2Proof.Machine.execFlash x0 x1 s
  | .dark x0 x1 => Sys2Proof.Machine.execDark x0 x1 s
  | .resume x0 => Sys2Proof.Machine.execResume x0 s
  | .directEnter x0 => Sys2Proof.Machine.execDirectEnter x0 s
  | .directTarget x0 x1 => Sys2Proof.Machine.execDirectTarget x0 x1 s
  | .directExit x0 => Sys2Proof.Machine.execDirectExit x0 s
  | .syncPatterns x0 => Sys2Proof.Machine.execSyncPatterns x0 s
  | .learn x0 x1 x2 x3 x4 => Sys2Proof.Machine.execLearn x0 x1 x2 x3 x4 s
  | .learnCancel x0 x1 => Sys2Proof.Machine.execLearnCancel x0 x1 s
  | .ackFault x0 x1 => Sys2Proof.Machine.execAckFault x0 x1 s
  | .clearLatch x0 x1 => Sys2Proof.Machine.execClearLatch x0 x1 s
  | .readStatus x0 => Sys2Proof.Machine.execReadStatus x0 s
  | .forwardSet x0 x1 => Sys2Proof.Machine.execForwardSet x0 x1 s
  | .pass x0 x1 x2 x3 => Sys2Proof.Machine.execPass x0 x1 x2 x3 s
  | .setTime x0 x1 x2 => Sys2Proof.Machine.execSetTime x0 x1 x2 s
  | .trim x0 x1 x2 => Sys2Proof.Machine.execTrim x0 x1 x2 s
  | .engineRestart x0 => Sys2Proof.Machine.execEngineRestart x0 s
  | .malformedRequest x0 x1 => Sys2Proof.Machine.execMalformedRequest x0 x1 s
  | .busyRequest x0 x1 => Sys2Proof.Machine.execBusyRequest x0 x1 s
  | .corruptFrame x0 => Sys2Proof.Machine.execCorruptFrame x0 s
  | .framePauseTimeout => Sys2Proof.Machine.execFramePauseTimeout s
  | .frameSent => Sys2Proof.Machine.execFrameSent s
  | .mainsEdge x0 => Sys2Proof.Machine.execMainsEdge x0 s
  | .mainsFrequencyRaise => Sys2Proof.Machine.execMainsFrequencyRaise s
  | .mainsFrequencyClear => Sys2Proof.Machine.execMainsFrequencyClear s
  | .mainsGapBegin => Sys2Proof.Machine.execMainsGapBegin s
  | .mainsInterruptionRaise => Sys2Proof.Machine.execMainsInterruptionRaise s
  | .mainsInterruptionClear => Sys2Proof.Machine.execMainsInterruptionClear s
  | .substituteWindowStart => Sys2Proof.Machine.execSubstituteWindowStart s
  | .senseReceived x0 => Sys2Proof.Machine.execSenseReceived x0 s
  | .senseMiss x0 => Sys2Proof.Machine.execSenseMiss x0 s
  | .fiuLost x0 => Sys2Proof.Machine.execFiuLost x0 s
  | .rollCallRound => Sys2Proof.Machine.execRollCallRound s
  | .identReceived x0 => Sys2Proof.Machine.execIdentReceived x0 s
  | .identTimeout x0 => Sys2Proof.Machine.execIdentTimeout x0 s
  | .passReplyReceived x0 => Sys2Proof.Machine.execPassReplyReceived x0 s
  | .unexpectedGreenRaise x0 => Sys2Proof.Machine.execUnexpectedGreenRaise x0 s
  | .unexpectedGreenClear x0 => Sys2Proof.Machine.execUnexpectedGreenClear x0 s
  | .decisecondPulse => Sys2Proof.Machine.execDecisecondPulse s
  | .clearanceStart x0 => Sys2Proof.Machine.execClearanceStart x0 s
  | .amberEnd x0 => Sys2Proof.Machine.execAmberEnd x0 s
  | .clearanceEnd x0 => Sys2Proof.Machine.execClearanceEnd x0 s
  | .redAmberEnd x0 => Sys2Proof.Machine.execRedAmberEnd x0 s
  | .patternStep x0 => Sys2Proof.Machine.execPatternStep x0 s
  | .startFlashEnd => Sys2Proof.Machine.execStartFlashEnd s
  | .startRedEnd => Sys2Proof.Machine.execStartRedEnd s
  | .startProvingTimeout => Sys2Proof.Machine.execStartProvingTimeout s
  | .controllerSilent => Sys2Proof.Machine.execControllerSilent s
  | .minimumGreenEnd => Sys2Proof.Machine.execMinimumGreenEnd s
  | .gapOut => Sys2Proof.Machine.execGapOut s
  | .maxOut => Sys2Proof.Machine.execMaxOut s
  | .forceOff => Sys2Proof.Machine.execForceOff s
  | .minuteBoundary => Sys2Proof.Machine.execMinuteBoundary s
  | .midnightRollover => Sys2Proof.Machine.execMidnightRollover s
  | .inputChange x0 => Sys2Proof.Machine.execInputChange x0 s
  | .detectorStuck x0 => Sys2Proof.Machine.execDetectorStuck x0 s
  | .verdictConfirm x0 => Sys2Proof.Machine.execVerdictConfirm x0 s
  | .learnConverge x0 => Sys2Proof.Machine.execLearnConverge x0 s
  | .learnUnstable x0 => Sys2Proof.Machine.execLearnUnstable x0 s
  | .cableFaultConfirm x0 => Sys2Proof.Machine.execCableFaultConfirm x0 s
  | .crossFeedRaise x0 => Sys2Proof.Machine.execCrossFeedRaise x0 s
  | .crossFeedClear x0 => Sys2Proof.Machine.execCrossFeedClear x0 s
  | .retryRelease x0 => Sys2Proof.Machine.execRetryRelease x0 s
  | .tripCountClear x0 => Sys2Proof.Machine.execTripCountClear x0 s
  | .earthLeakageRaise x0 => Sys2Proof.Machine.execEarthLeakageRaise x0 s
  | .earthLeakageClear x0 => Sys2Proof.Machine.execEarthLeakageClear x0 s
  | .fiuOvertempRaise x0 => Sys2Proof.Machine.execFiuOvertempRaise x0 s
  | .fiuOvertempClear x0 => Sys2Proof.Machine.execFiuOvertempClear x0 s
  | .frameBegins x0 => Sys2Proof.Machine.execFrameBegins x0 s
  | .crystalMillisecond => Sys2Proof.Machine.execCrystalMillisecond s

end Sys2Proof.Machine
end

