-- ==== Sys2Proof/Machine/Codes.lean ====
section
/-! DEFINITION. Codes: the code of every enumerated field of a frame or a table entry (R181), and the fields of every entry and of the extended
status with what each is written as. -/

namespace Sys2Proof.Machine

open Sys2Proof

/-! ## Codes (R181): the position of a value, from 0, in the list where its rule first gives the values -/

/-- Code of a result, in the order of section 10.2.1 (R181). -/
def resultCode : Result → Nat
  | .done => 0
  | .clamped => 1
  | .busy => 2
  | .malformed => 3
  | .badIndex => 4
  | .badValue => 5
  | .inUse => 6
  | .badState => 7
  | .invalid => 8
  | .conflict => 9
  | .filtered => 10
  | .blankIdentity => 11
  | .noSlot => 12

/-- Code of a junction mode, in the order of R74 (R181). -/
def modeCode : Mode → Nat
  | .dark => 0
  | .startFlash => 1
  | .startRed => 2
  | .plan => 3
  | .directDrive => 4
  | .flash => 5

/-- Code of a reason, in the order of R74 (R181). -/
def reasonCode : Reason → Nat
  | .reset => 0
  | .restart => 1
  | .config => 2
  | .controller => 3
  | .schedule => 4
  | .fault => 5
  | .noPlan => 6
  | .mains => 7

/-- Code of the applied-dim summary (R182). -/
def dimCode : DimSummary → Nat
  | .allBright => 0
  | .allDim => 1
  | .mixed => 2

/-- Code of a dim tap (R183). -/
def tapCode : Tap → Nat
  | .bright => 0
  | .dim => 1

/-- Code of a PASS_REPLY status (R182). -/
def passStatusCode : PassStatus → Nat
  | .replied => 0
  | .timeout => 1
  | .abandoned => 2

/-- Code of a fault record's state (R184). -/
def faultStateCode : FaultState → Nat
  | .activeUnack => 1
  | .activeAck => 2
  | .clearedUnack => 3

/-- Code of a test class, in the order of R149 (R181). -/
def testClassCode : TestClass → Nat
  | .isOpen => 0
  | .low => 1
  | .high => 2

/-- Code of an aspect, in the order of R8 (R181). -/
def aspectCode : Aspect → Nat
  | .dark => 0
  | .red => 1
  | .redAmber => 2
  | .green => 3
  | .amber => 4
  | .flashAmber => 5
  | .greenFlash => 6

/-- Code of a target, in the order of R20 (R181). -/
def targetCode : Target → Nat
  | .go => 0
  | .stop => 1
  | .flash => 2
  | .dark => 3

/-- Code of a plan's state, in the order of R44 (R181). -/
def planStateCode : PlanState → Nat
  | .empty => 0
  | .loaded => 1
  | .valid => 2
  | .invalid => 3

/-- Code of a sub-state of the engine, in the order of R54 (R181). -/
def subCode : Sub → Nat
  | .idle => 0
  | .interstage => 1
  | .min => 2
  | .extend => 3
  | .rest => 4
  | .hold => 5
  | .dwell => 6

/-- Code of the controller hold, in the order of R54, whose list begins with none (R181). -/
def holdCode : Option HoldMode → Nat
  | none => 0
  | some .stage => 1
  | some .cycle => 2

/-- Code of the step request, in the order of R54: none, NEXT, a stage (R181). The stage's number stands beside it (DEDUCED, unsafe; log entry 66). -/
def stepReqCode : Option StepReq → Nat
  | none => 0
  | some .next => 1
  | some (.stage _) => 2

/-- The stage that a step request names, 0 for none (R181). -/
def stepReqStage : Option StepReq → Nat
  | some (.stage k) => num k
  | some .next | none => 0

/-- Code of the destination of a departure, in the order of R74 (R181). -/
def destCode : Dest → Nat
  | .flash => 0
  | .dark => 1
  | .startRed => 2

/-- Code of a schedule mode, in the order of R74 (R181). -/
def schedModeCode : SchedMode → Nat
  | .plan => 0
  | .flash => 1
  | .dark => 2

/-- Code of the state of the window timebase, in the order of R95 (R181). -/
def timebaseCode : Timebase → Nat
  | .locked => 0
  | .substitute => 1

/-- Code of a clock source, in the order of R98 (R181). -/
def sourceCode : Source → Nat
  | .mains => 0
  | .crystal => 1

/-- Code of the admission state of a unit, in the order of R107 (R181). -/
def unitStateCode : UnitState → Nat
  | .unused => 0
  | .expected => 1
  | .admitted => 2
  | .mismatch => 3
  | .lost => 4

/-- Code of a verdict, in the order of R125 (R181); the n of PARTIAL is `verdictPart`. -/
def verdictCode : Verdict → Nat
  | .unknown => 0
  | .ok => 1
  | .low => 2
  | .partialOf _ => 3
  | .high => 4
  | .out => 5
  | .present => 6
  | .absent => 7
  | .forced => 8

/-- The n of PARTIAL, 0 for another verdict (R125, R182). -/
def verdictPart : Verdict → Nat
  | .partialOf n => n
  | _ => 0

/-- Code of the candidate of a proving record (R125, R181): a verdict's code, and the free value for none (log entry 66). -/
def candCode : Option Verdict → Nat
  | some v => verdictCode v
  | none => Config.absentCode

/-- Code of the window verdict of a last measurement (R125, R181): a verdict's code, and a free value for SUPPLY_OOR, which is no verdict (log
entry 66). -/
def windowVerdictCode : Option Verdict → Nat
  | some v => verdictCode v
  | none => Config.supplyOorCode

/-- Code of the lamp fault a circuit holds raised, in the order of R125, whose list begins with none (R181). -/
def lampFaultCode : Option LampFault → Nat
  | none => 0
  | some .out => 1
  | some .part => 2
  | some .low => 3
  | some .high => 4

/-- Code of the state of a learn record, in the order of R138 (R181). -/
def learnStateCode : LearnState → Nat
  | .idle => 0
  | .learning => 1
  | .done => 2
  | .failed => 3

/-- Code of the failure reason of a learn record, in the order of R138 (R181). -/
def learnFailCode : LearnFail → Nat
  | .noLoad => 0
  | .noSupply => 1
  | .unstable => 2

/-- Code of the status of a red set, in the order of R142 (R181). -/
def setStatusCode : SetStatus → Nat
  | .gives => 0
  | .lost => 1
  | .unknown => 2

/-- Code of a red status, in the order of the table of R143 (R181). -/
def redStatusCode : RedStatus → Nat
  | .lost => 0
  | .unknown => 1
  | .proven => 2
  | .degraded => 3

/-- Code of a mismatch candidate, in the order of R146, whose list begins with none (R181). -/
def mismatchCode : Option Mismatch → Nat
  | none => 0
  | some .isOpen => 1
  | some .short => 2

/-- Code of a retry state, in the order of R146 (R181). -/
def retryCode : Retry → Nat
  | .normal => 0
  | .retryWait => 1
  | .latched => 2

/-- Code of the demanded mode, in the order of R166 (R181), which states it in prose: DARK, FLASH, none (DEDUCED, unsafe; log entry 66). -/
def demandedCode : Demanded → Nat
  | .dark => 0
  | .flash => 1
  | .none => 2

/-- Code of the state of the pass-through slot (R118, R119, R178): no rule lists the four states, so each has a free value (log entry 66). -/
def passSlotCode : PassSlot → Nat
  | .empty => Config.passSlotCode 0
  | .waiting _ _ => Config.passSlotCode 1
  | .listening _ => Config.passSlotCode 2
  | .answered _ _ _ => Config.passSlotCode 3

/-- The code of a field that can be absent, the free value where it is (R181; log entry 66). -/
def codeOr {α : Type} (f : α → Nat) : Option α → Nat
  | some x => f x
  | none => Config.absentCode

/-! ## Fields (R181) -/

/-- A field of a table entry or of the extended status, as R181 writes it. -/
inductive Field where
  /-- A field the table holds as the number it was written with. -/
  | wire (n : Nat)
  /-- An enumerated field, by its code. -/
  | code (n : Nat)
  /-- A yes/no or on/off field. -/
  | flag (b : Bool)
  /-- A numbered thing, 0 for none. -/
  | number (n : Nat)
  /-- A count, a time or a measurement, H'FFFF when absent. R181 does not list the quantities; which absent fields are taken as such is a DESIGN
  CHOICE, unsafe (log entry 75). -/
  | quantity (q : Option Nat)
  /-- The trim and its accumulator, which can be negative (DESIGN CHOICE, unsafe; log entry 79). -/
  | signed (n : Int)
  | groups (m : GroupSet)
  /-- A set of stages, or of steps of a plan (DEDUCED, unsafe; log entry 66). -/
  | stages (m : StageSet)
  | days (m : BitVec 8)
  /-- One bit for each terminal of a unit, by terminal number (DESIGN CHOICE, unsafe; log entry 79). -/
  | terminals (m : BitVec 8)
  /-- Circuits, by number, ascending (R184 for a suspect list; DESIGN CHOICE, unsafe, for a set; log entry 79). -/
  | circuits (ns : List Nat)
  | stamp (t : Stamp)
deriving DecidableEq, Repr

/-- The field of a numbered thing, 0 for none (R181). -/
def Field.thing {n : Nat} (k : Option (Fin n)) : Field := .number (match k with | some i => num i | none => 0)

/-- The field of a quantity that is present (R181). -/
def Field.count (n : Nat) : Field := .quantity (some n)

/-- A verdict: its code and, for PARTIAL, n (R125). -/
def verdictFields (code : Nat) (v : Option Verdict) : List Field :=
  [.code code, .number (match v with | some w => verdictPart w | none => 0)]

/-- The departure waiting: destination and reason (R74). -/
def departureFields (d : Option Departure) : List Field :=
  [.code (codeOr destCode (d.map Departure.dest)), .code (codeOr reasonCode (d.map Departure.reason))]

/-- The last measurement (R125). With none, its window number, Isum and Vsup are absent quantities (DESIGN CHOICE, unsafe; log entry 75). -/
def measFields (m : Option Meas) : List Field :=
  [.quantity (m.map Meas.window), .code (codeOr tapCode (m.map Meas.tap)), .quantity (m.map Meas.isum), .quantity (m.map Meas.vsup)] ++
    verdictFields (codeOr windowVerdictCode (m.map Meas.verdict)) (m.bind Meas.verdict) ++ [.quantity (m.bind Meas.q)]

/-- A proving record (R125). -/
def provFields (p : ProvRec) : List Field :=
  verdictFields (verdictCode p.verdict) (some p.verdict) ++ verdictFields (candCode p.cand) p.cand ++
    [.count p.run, .count p.onRun] ++ measFields p.last ++ [.code (lampFaultCode p.fault)]

/-- A cable record (R146). The window number of no test in flight and the residual of no last test are absent quantities (DESIGN CHOICE, unsafe;
log entry 75). -/
def cableFields (c : CableRec) : List Field :=
  [.count c.sinceTest, .quantity c.inFlight, .quantity (c.lastTest.map Prod.fst),
    .code (codeOr testClassCode (c.lastTest.map Prod.snd)), .code (mismatchCode c.cand), .count c.mrun, .count c.litRun,
    .count c.quiet, .code (retryCode c.retry), .count c.retryTimer, .count c.trips, .count c.cleanOn, .flag c.openRaised,
    .flag c.shortRaised, .flag c.crossRaised, .flag c.ovcRaised]

/-- A group record (R20). -/
def groupFields (g : GroupRec) : List Field :=
  [.code (aspectCode g.aspect), .code (targetCode g.target), .flag (goPending g), .count g.inAspect, .count g.sinceGreen,
    .flag g.inhibited, .count g.greenRun, .count g.quiet, .flag g.raised]

/-- A window record of the composition log (R114): the fields by terminal as masks by terminal number (R181 gives them no form; DESIGN CHOICE,
unsafe; log entry 79). -/
def winFields (w : WinRec) : List Field :=
  [.count w.window, .code (tapCode w.tap), .terminals w.on, .terminals w.test, .terminals w.bleed, .terminals w.called, .flag w.sent]

/-- A unit record (R107). A reported type and serial that are none are absent quantities (DESIGN CHOICE, unsafe; log entry 75). -/
def unitFields (u : UnitRec) : List Field :=
  [.code (unitStateCode u.state), .quantity u.typeCode, .quantity u.serial, .count u.miss, .count u.hotRun, .count u.hotQuiet,
    .code (tapCode u.dim), .flag u.lostRaised, .flag u.mismatchRaised, .flag u.hotRaised, .flag u.dimRaised] ++
    u.log.flatMap winFields

/-- A leakage record (R146): the suspect set as circuit numbers, ascending (R181 gives it no form; DESIGN CHOICE, unsafe; log entry 79). -/
def leakFields (l : LeakRec) : List Field := [.count l.run, .count l.quiet, .circuits (l.suspects.map num), .flag l.raised]

/-- The engine record (R54). Maximum elapsed not started is an absent quantity (DESIGN CHOICE, unsafe; log entry 75). -/
def engineFields (e : Engine) : List Field :=
  [.thing e.running, .thing e.pendingPlan, .number (num e.governing), .number (num e.cur), .code (subCode e.sub), .groups e.served,
    .groups e.gaining, .count e.minElapsed, .count e.ext, .quantity e.maxElapsed, .stages e.passed, .count e.lastReading, .flag e.dwell,
    .flag e.resync, .code (holdCode e.hold), .flag e.cycleReached, .code (stepReqCode e.stepReq), .number (stepReqStage e.stepReq),
    .flag e.orderly]

/-- The mode record (R74). -/
def modeFields (m : ModeRec) : List Field :=
  [.code (modeCode m.mode), .code (reasonCode m.reason), .flag m.started] ++ departureFields m.departure ++
    [.count m.timer, .flag m.provingTimeout, .code (schedModeCode m.schedMode), .count m.silence, .flag m.silent]

/-- The clock and the timebase (R95, R98, R99). -/
def clockFields (c : Clock) (m : Mains) : List Field :=
  [.number c.weekday, .count c.ms, .count c.day, .flag c.unset, .code (sourceCode c.preferred),
    .code (sourceCode (if c.preferred = .crystal ∨ m.timebase = .substitute then .crystal else .mains)), .signed c.trim, .signed c.acc,
    .code (timebaseCode m.timebase)]

/-- The schedule results and the overrides (R103 to R105). -/
def schedFields (r : SchedRec) : List Field :=
  [.code (schedModeCode r.mode), .number (num r.plan), .code (tapCode r.dim), .thing r.planOverride,
    .code (codeOr tapCode r.dimOverride), .number (num r.effPlan), .code (tapCode r.effDim)]

/-- A flash run: pattern, step and time in step (R92). A clearance run that does not exist has step 0, and its pattern
and its time are absent quantities (DESIGN CHOICE, unsafe; log entry 75). -/
def runFields (r : Option Run) : List Field :=
  [.quantity (r.map Run.pattern), .number (match r with | some x => x.step + 1 | none => 0), .quantity (r.map Run.time)]

/-- A learn record (R138). The mean, spread and Vsup mean of no result are absent quantities (DESIGN CHOICE, unsafe; log entry 75). -/
def learnFields (l : LearnRec) : List Field :=
  [.code (learnStateCode l.state), .code (codeOr learnFailCode l.fail), .code (tapCode l.tap), .count l.nMin, .count l.nMax,
    .count l.count] ++ l.ring.flatMap (fun p => [.count p.1, .count p.2]) ++
    [.quantity (l.result.map LearnResult.mean), .quantity (l.result.map LearnResult.spread), .quantity (l.result.map LearnResult.vmean)]

/-- Form and values of a fault record's detail (R184). -/
def detailFields : Detail → List Field
  | .absent => [.code 0]
  | .lampCount n => [.code 1, .count n]
  | .testClass c => [.code 2, .code (testClassCode c)]
  | .suspects cs => [.code 3, .circuits (cs.map num)]
  | .errIndex n => [.code 4, .number n]

/-- A fault table slot (R159, R184). -/
def faultFields : Option FaultRec → List Field
  | none => [.code 0]
  | some r =>
    [.code (faultStateCode r.state), .number (r.kind.index.val + 1), .number r.subject, .stamp r.first, .stamp r.last, .count r.count,
      .code r.reaction.severity] ++ detailFields r.detail

/-- A part of a reference entry (R129). -/
def refFields (p : RefPart) : List Field := [.wire p.held, .wire p.iref, .wire p.vref]

/-- The fields of an entry, in the order its rule names them, each as R181 writes it. What R181 does not fix of an entry that R184 does not lay
out (the order and the widths of its fields) stays open (log entry 5). -/
def entryFields : TableEntry → List Field
  | .fiu e => [.wire e.present, .wire e.typeCode, .wire e.order]
  | .group e =>
    [.wire e.type, .wire e.amber, .wire e.redAmber, .wire e.clearance, .wire e.pattern, .wire e.safetyMin, .wire e.minRed, .wire e.redSets]
  | .circuit e =>
    [.wire e.group, .wire e.fiu, .wire e.terminal, .wire e.role, .wire e.redSet, .wire e.loadClass, .wire e.k, .wire e.proving,
      .wire e.cableTest, .wire e.bleed]
  | .conflict ig => [.wire (ig.getD 255)]
  | .stage gs => [.groups gs]
  | .input e => [.wire e.fiu, .wire e.input, .wire e.kind, .stages e.demand, .stages e.extend, .wire e.debounce, .wire e.stuckLimit]
  | .pattern e => .wire e.steps :: e.slots.toList.flatMap fun x => [.wire x.level, .wire x.duration]
  | .startUp e =>
    [.wire e.mains, .wire e.startFlash, .wire e.startRed, .wire e.provingLimit, .wire e.restart, .wire e.silence, .wire e.pattern,
      .wire e.fallback]
  | .planHeader c o n => [.wire c, .wire o, .wire n]
  | .planStep x =>
    [.wire x.stage, .wire x.minGreen, .wire x.maxGreen, .wire x.unitExt, .flag x.demandDep, .flag x.recalled, .flag x.holdFlag,
      .wire x.forceOff]
  | .schedHeader p => [.wire p]
  | .sched e => [.days e.days, .wire e.hours, .wire e.minutes, .wire e.action, .wire e.plan]
  | .reaction r => [.code r.severity]
  | .proving p => [.wire p.tLo, .wire p.tHi, .wire p.failConfirm, .wire p.recoverConfirm, .wire p.presence, .wire p.spread]
  | .cable p =>
    [.wire p.openThreshold, .wire p.lowThreshold, .wire p.testInterval, .wire p.testConfirm, .wire p.vFix, .wire p.ratio, .wire p.mode,
      .wire p.offCurrent, .wire p.crossConfirm, .wire p.retryDelay, .wire p.maxRetries, .wire p.tripClear, .wire p.leakThreshold,
      .wire p.leakConfirm, .wire p.leakClear, .wire p.greenConfirm, .wire p.missLimit]
  | .reference e => refFields e.bright ++ refFields e.dim
  | .circuitLive p c => provFields p ++ cableFields c
  | .groupLive g red sets => groupFields g ++ [.code (redStatusCode red)] ++ sets.map fun x => .code (setStatusCode x)
  | .fiuLive u l => unitFields u ++ leakFields l
  | .fault r => faultFields r
  | .engine e m latched => engineFields e ++ modeFields m ++ [.stages latched]
  | .clock c m r d => clockFields c m ++ schedFields r ++ [.code (demandedCode d)]
  | .runs j cs => runFields (some j) ++ cs.toList.flatMap runFields
  | .planStatus st use es =>
    [.code (planStateCode st), .flag use] ++ es.flatMap fun x => [.number x.1.number, .number x.2]
  | .learn l => learnFields l

/-- The fields of the extended status, in the order of R178, each as R181 writes it. -/
def statusFields (x : Status) : List Field :=
  [.flag x.configOpen, .flag x.started] ++ departureFields x.departure ++
    [.code (demandedCode x.demanded), .code (codeOr Reaction.severity x.overflow), .number x.weekday, .count x.ms, .count x.day,
      .number (num x.effPlan), .code (tapCode x.effDim), .count x.reports, .count x.dropped, .code (passSlotCode x.slot),
      .number x.effSlot]

/-- The code of every enumerated field among some fields, in their order (R181). -/
def codesOf (fs : List Field) : List Nat := fs.filterMap fun f => match f with | .code n => some n | _ => none

end Sys2Proof.Machine
end

