-- ==== Sys2Proof/Machine/Frames.lean ====
section
/-! DEFINITION. Frames: the bytes of the link frames, the field bus frames and the records (R169, R181 to R184). The commands carry a frame's fields;
these functions give the bytes those fields are received from and sent as. -/

namespace Sys2Proof.Machine

open Sys2Proof

/-! ## Numbers (R181) -/

/-- A two-byte field, most significant byte first (R181). -/
def bytes2 (n : Nat) : List Byte := [BitVec.ofNat 8 (n / 256), BitVec.ofNat 8 n]

/-- A four-byte field, most significant byte first (R181). -/
def bytes4 (n : Nat) : List Byte := bytes2 (n / 65536) ++ bytes2 n

/-- A one-byte field (R181). -/
def byte1 (n : Nat) : Byte := BitVec.ofNat 8 n

/-- A set of groups as its four-byte mask, bit g−1 for group g (R181). -/
def groupSetBytes (m : GroupSet) : List Byte := bytes4 m.toNat

/-- A set of stages as its two-byte mask, bit s−1 for stage s (R181). -/
def stageSetBytes (m : StageSet) : List Byte := bytes2 m.toNat

/-- The set of groups that four bytes carry (R181). -/
def groupSetOf : List Byte → Option GroupSet
  | [a, b, c, d] => some (BitVec.ofNat 32 (65536 * be16 a b + be16 c d))
  | _ => none

/-- A yes/no or on/off field (R181). -/
def flagByte (b : Bool) : Byte := if b then 1 else 0

/-- A clock stamp: the day counter, then the ms of day (R181). -/
def stampBytes (t : Stamp) : List Byte := bytes2 t.day ++ bytes4 t.ms

/-- The verdict byte of an annotation (R182): the code of R125 in bits 0 to 3 and, for PARTIAL, n in bits 4 to 6. -/
def verdictByte (v : Verdict) : Byte := byte1 (verdictCode v + 16 * (verdictPart v % 8))

/-! ## The CRC (R169) -/

/-- The CRC after one bit: the polynomial x¹⁶+x¹²+x⁵+1, bits taken most significant first and not reflected (R169). -/
def crcBit (c : BitVec 16) (b : Bool) : BitVec 16 := if c.msb != b then (c <<< 1) ^^^ 0x1021 else c <<< 1

/-- The CRC after one byte (R169). -/
def crcByte (c : BitVec 16) (b : Byte) : BitVec 16 :=
  [7, 6, 5, 4, 3, 2, 1, 0].foldl (fun (c : BitVec 16) (i : Nat) => crcBit c (b.getLsbD i)) c

/-- The CRC of a run of bytes: initial value H'FFFF, no final inversion (R169). -/
def crc16 (bs : List Byte) : BitVec 16 := bs.foldl crcByte 0xFFFF

/-- The two CRC bytes of a run (R169, R181). -/
def crcBytes (bs : List Byte) : List Byte := bytes2 (crc16 bs).toNat

/-- A run with its CRC after it (R183). -/
def withCrc (bs : List Byte) : List Byte := bs ++ crcBytes bs

/-- The run ends with its CRC (R169, R183). -/
def crcOk (bs : List Byte) : Bool := decide (bs.drop (bs.length - 2) = crcBytes (bs.take (bs.length - 2)))

/-! ## Controller link frames (R169, R182) -/

/-- What the CRC of a link frame is formed over: every byte after the start byte up to the CRC (R169). -/
def linkBody (kind tag : Byte) (payload : List Byte) : List Byte := bytes2 (7 + payload.length) ++ [kind, tag] ++ payload

/-- A frame on the controller link (R182). -/
def linkFrame (kind tag : Byte) (payload : List Byte) : List Byte := 0x7E :: withCrc (linkBody kind tag payload)

/-- What the receiver makes of a run of bytes that begins in HUNTING (R169). -/
inductive LinkResult where
  /-- No byte, or the frame has not ended: RECEIVING. -/
  | incomplete
  /-- The first byte is not H'7E and is ignored. -/
  | ignored
  | discarded (why : Corruption)
  | intact (kind tag : Byte) (payload : List Byte)
deriving DecidableEq, Repr

/-- A frame whose length field has been received: `rest` follows the length field (R169). -/
def receiveBody (l1 l0 : Byte) (rest : List Byte) : LinkResult :=
  let n := be16 l1 l0
  if n < 7 ∨ 1024 < n then .discarded .badLength
  else if rest.length < n - 3 then .incomplete
  else if crcOk (l1 :: l0 :: rest.take (n - 3)) then
    match rest with
    | kind :: tag :: more => .intact kind tag (more.take (n - 7))
    | _ => .incomplete
  else .discarded .badCrc

/-- The receiver on a run of bytes, from HUNTING to the end of the first frame (R169). -/
def receiveLink (bs : List Byte) : LinkResult :=
  match bs with
  | [] => .incomplete
  | b :: more =>
    if b = 0x7E then
      match more with
      | l1 :: l0 :: rest => receiveBody l1 l0 rest
      | _ => .incomplete
    else .ignored

/-- The flags byte of the junction summary (R182). -/
def summaryFlags (x : Summary) : Byte :=
  byte1 ((if x.alarm then 1 else 0) + (if x.overflow then 2 else 0) + (if x.direct then 4 else 0) +
    (if x.learning then 8 else 0) + (if x.interstage then 16 else 0) + (if x.source = .crystal then 32 else 0) +
    (if x.unset then 64 else 0))

/-- The number of a plan, 0 for none (R181). -/
def planByte (p : Option (Fin 8)) : Byte := byte1 (match p with | some k => num k | none => 0)

/-- The seven bytes of the junction summary (R182). -/
def summaryBytes (x : Summary) : List Byte :=
  [byte1 (modeCode x.mode), byte1 (reasonCode x.reason), planByte x.running, byte1 (x.stage.getD 0), byte1 x.unack,
    summaryFlags x, byte1 (dimCode x.dim)]

/-- The reply header (R182). -/
def replyHeader (r : Result) (x : Summary) : List Byte := byte1 (resultCode r) :: summaryBytes x

/-- An entry of the data of INVALID (R182). -/
def errBytes (e : ErrEntry) : List Byte := [byte1 e.plan, byte1 e.kind] ++ bytes2 e.index

/-- The data of INVALID (R182). -/
def errorData (es : List ErrEntry) : List Byte := byte1 es.length :: es.flatMap errBytes

/-! ## Records (R184) -/

/-- A circuit entry (R184). -/
def circuitBytes (e : CircuitEntry) : List Byte :=
  [byte1 e.group, byte1 e.fiu, byte1 e.terminal, byte1 e.role, byte1 e.redSet, byte1 e.loadClass, byte1 e.k,
    byte1 e.proving, byte1 e.cableTest, byte1 e.bleed]

/-- The circuit entry that ten bytes carry (R184). -/
def circuitOf : List Byte → Option CircuitEntry
  | [g, f, t, r, rs, lc, k, p, ct, b] =>
    some ⟨g.toNat, f.toNat, t.toNat, r.toNat, rs.toNat, lc.toNat, k.toNat, p.toNat, ct.toNat, b.toNat⟩
  | _ => none

/-- A conflict entry (R184). -/
def conflictByte (ig : Option Nat) : Byte := byte1 (ig.getD 255)

/-- A plan header, padded with six zero bytes (R184). -/
def planHeaderBytes (h : PlanHeader) : List Byte :=
  bytes2 h.cycle ++ bytes2 h.offset ++ [byte1 h.steps, 0, 0, 0, 0, 0, 0]

/-- A plan step (R184). -/
def planStepBytes (x : PlanStep) : List Byte :=
  [byte1 x.stage] ++ bytes2 x.minGreen ++ bytes2 x.maxGreen ++
    [byte1 x.unitExt, flagByte x.demandDep, flagByte x.recalled, flagByte x.holdFlag] ++ bytes2 x.forceOff

/-- Form and bytes of a fault record's detail (R184). -/
def detailBytes : Detail → Nat × List Byte
  | .absent => (0, [])
  | .lampCount n => (1, [byte1 n])
  | .testClass c => (2, [byte1 (testClassCode c)])
  | .suspects cs => (3, cs.map fun c => byte1 (num c))
  | .errIndex n => (4, [byte1 n])

/-- A fault table slot (R184): an empty one is 27 zero bytes. -/
def faultBytes : Option FaultRec → List Byte
  | none => List.replicate 27 0
  | some r =>
    let d := detailBytes r.detail
    [byte1 (faultStateCode r.state), byte1 (r.kind.index.val + 1), byte1 r.subject] ++ stampBytes r.first ++
      stampBytes r.last ++ [byte1 r.count, byte1 r.reaction.severity, byte1 d.1, byte1 d.2.length] ++
      (d.2 ++ List.replicate 8 0).take 8

/-- The bytes of an entry, none for a table whose entry the manual does not lay out (DESIGN CHOICE, safe; log entry 5); `entryFields` gives what each
field of such an entry is written as. -/
def entryBytes : TableEntry → Option (List Byte)
  | .circuit e => some (circuitBytes e)
  | .conflict ig => some [conflictByte ig]
  | .planHeader c o n => some (planHeaderBytes ⟨c, o, n⟩)
  | .planStep x => some (planStepBytes x)
  | .fault r => some (faultBytes r)
  | .stage m => some (groupSetBytes m)
  | .fiu _ | .group _ | .input _ | .pattern _ | .startUp _ | .schedHeader _ | .sched _ | .reaction _
  | .proving _ | .cable _ | .reference _ | .circuitLive _ _ | .groupLive _ _ _ | .fiuLive _ _ | .engine _ _ _
  | .clock _ _ _ _ | .runs _ _ | .planStatus _ _ _ | .learn _ => none

/-! ## Field bus frames (R183) -/

/-- The address byte: the frame type in bits 4 to 7, the unit number in bits 0 to 3 (R183). -/
def addressByte (type unit : Nat) : Byte := byte1 (16 * (type % 16) + unit % 16)

/-- The frame type of an address byte (R183). -/
def frameType (b : Byte) : Nat := b.toNat / 16

/-- The unit number of an address byte (R183). -/
def frameUnit (b : Byte) : Nat := b.toNat % 16

/-- The bytes of a frame the part sends on the field bus (R183). -/
def busBytes : BusFrame → List Byte
  | .drive u w tap on test bleed => withCrc [addressByte 1 (num u), byte1 w, byte1 (tapCode tap), on, test, bleed]
  | .rollCall u => withCrc [addressByte 3 (num u)]
  | .pass u kind payload => withCrc ([addressByte 5 (num u), kind, byte1 payload.length] ++ payload)

/-- A sample of a SENSE frame (R183). -/
def sampleBytes (x : Sample) : List Byte :=
  bytes2 x.isum ++ [byte1 x.vterm, byte1 x.residual,
    byte1 ((if x.driven then 1 else 0) + (if x.ovc then 2 else 0) + (if x.tested then 4 else 0) + 8 * x.spare.toNat)]

/-- The SENSE header: its address byte, window number and the five per-unit bytes (R183). -/
def senseHeader (f : SenseFrame) : List Byte :=
  [addressByte 2 f.unit, byte1 f.window, byte1 f.vsup, f.tapByte, byte1 f.leakage, f.inputs,
    byte1 ((if f.overtemp then 1 else 0) + 2 * f.spare.toNat)]

/-- The 40 sample bytes of a SENSE frame (R183). -/
def senseSamples (f : SenseFrame) : List Byte := f.samples.toList.flatMap sampleBytes

/-- The bytes of a SENSE frame as a unit sends it (R183). -/
def senseBytes (f : SenseFrame) : List Byte := withCrc (senseHeader f ++ senseSamples f)

/-- Byte `i` of a run, 0 past its end. -/
def byteAt (bs : List Byte) (i : Nat) : Byte := bs.getD i 0

/-- The unit number of a received frame when its address byte has the type, 0 (no unit) when it has not (R183). -/
def unitOfType (type : Nat) (bs : List Byte) : Nat :=
  if frameType (byteAt bs 0) = type then frameUnit (byteAt bs 0) else 0

/-- The sample at a position, its five bytes from byte `7 + 5 p` (R183). -/
def sampleAt (bs : List Byte) (p : Fin 8) : Sample :=
  let b := fun i => byteAt bs (7 + 5 * p.val + i)
  { isum := be16 (b 0) (b 1), vterm := (b 2).toNat, residual := (b 3).toNat, driven := (b 4).getLsbD 0,
    ovc := (b 4).getLsbD 1, tested := (b 4).getLsbD 2
    spare := (b 4).extractLsb' 3 5 }

/-- The SENSE frame a run of bytes carries (R183): its address, CRC and size are what R112 checks. -/
def senseOf (bs : List Byte) : SenseFrame :=
  { unit := unitOfType 2 bs, crcGood := crcOk bs, sizeGood := decide (bs.length = 49), window := (byteAt bs 1).toNat,
    vsup := (byteAt bs 2).toNat, tapByte := byteAt bs 3, leakage := (byteAt bs 4).toNat,
    inputs := byteAt bs 5, overtemp := (byteAt bs 6).getLsbD 0
    spare := (byteAt bs 6).extractLsb' 1 7, samples := tab (sampleAt bs) }

/-- The bytes of an IDENT frame as a unit sends it (R183). -/
def identBytes (f : IdentFrame) : List Byte := withCrc ([addressByte 4 f.unit, byte1 f.typeCode] ++ bytes4 f.serial)

/-- The IDENT frame a run of bytes carries (R183). -/
def identOf (bs : List Byte) : IdentFrame :=
  { unit := unitOfType 4 bs, good := crcOk bs && decide (bs.length = 8), typeCode := (byteAt bs 1).toNat,
    serial := 65536 * be16 (byteAt bs 2) (byteAt bs 3) + be16 (byteAt bs 4) (byteAt bs 5) }

/-- The bytes of a unit's answer to PASS (R183). -/
def passAnswerBytes (f : PassFrame) : List Byte :=
  withCrc ([addressByte 5 f.unit, f.kind, byte1 f.payload.length] ++ f.payload)

/-- The PASS answer a run of bytes carries (R183): its size is 5 plus its payload length, 0 to 48. -/
def passOf (bs : List Byte) : PassFrame :=
  let n := (byteAt bs 2).toNat
  { unit := unitOfType 5 bs, good := crcOk bs && decide (bs.length = 5 + n) && decide (n ≤ 48), kind := byteAt bs 1,
    payload := (bs.drop 3).take n }

/-! ## Unsolicited frames and replies (R182) -/

/-- A q or other quantity, H'FFFF when absent (R181). -/
def qBytes (q : Option Nat) : List Byte := bytes2 (q.getD 65535)

/-- The bytes of a field whose width R181 gives: a yes/no field, a set of groups or of stages, a day set, a clock stamp and an absent quantity. The
width of any other field is its entry's layout (log entry 5). -/
def fieldBytes : Field → Option (List Byte)
  | .flag b => some [flagByte b]
  | .groups m => some (groupSetBytes m)
  | .stages m => some (stageSetBytes m)
  | .days m => some [m]
  | .stamp t => some (stampBytes t)
  | .quantity none => some (qBytes none)
  | .quantity (some _) | .wire _ | .code _ | .number _ | .signed _ | .terminals _ | .circuits _ => none

/-- One position of the annotation (R182). -/
def noteBytes (n : Note) : List Byte :=
  [byte1 n.terminal, match n.verdict with | some v => verdictByte v | none => 0xFF] ++ qBytes n.q

/-- The 38 bytes of the annotation (R182). -/
def annotation (r : Report) : List Byte := stampBytes r.stamp ++ r.notes.toList.flatMap noteBytes

/-- The bytes of a SENSE_REPORT (R182). -/
def reportBytes (r : Report) : List Byte :=
  linkFrame 0x82 0 (byte1 r.dropped :: (senseHeader r.frame ++ annotation r ++ senseSamples r.frame))

/-- The bytes of an ALERT (R182). -/
def alertBytes (a : Alert) : List Byte := linkFrame 0x80 0 (summaryBytes a.summary ++ [byte1 a.slot] ++ a.identity)

/-- The bytes of a PASS_REPLY (R182). -/
def passReplyBytes (m : PassMsg) (st : PassStatus) (payload : List Byte) : List Byte :=
  linkFrame 0x81 m.tag ([byte1 (num m.unit), m.kind, byte1 (passStatusCode st), byte1 payload.length] ++ payload)

/-- The data bytes of a reply, none where the manual does not lay them out (DESIGN CHOICE, safe; log entry 5). The list of a START answered DONE is
laid out as that of INVALID (DESIGN CHOICE, unsafe; log entry 63). -/
def replyDataBytes : ReplyData → Option (List Byte)
  | .none => some []
  | .errors es => some (errorData es)
  | .conflictGroup g => some [byte1 g]
  | .entries es => (es.mapM entryBytes).map List.flatten
  | .slot _ | .identity _ _ | .status _ => none

/-- The bytes of a frame the part sends on the controller link, none where the manual does not lay its data out. -/
def txBytes : TxFrame → Option (List Byte)
  | .reply r => (replyDataBytes r.data).map fun d => linkFrame r.kind r.tag (replyHeader r.result r.summary ++ d)
  | .alert a => some (alertBytes a)
  | .passReply m st pl => some (passReplyBytes m st pl)
  | .report r => some (reportBytes r)

end Sys2Proof.Machine
end

