-- ==== Sys2Proof/Safety.lean ====
section
/-! DEFINITION. Safety: the terms the statements use: the state a request is judged in, the reply it gets, what the hand-overs of a command leave
alone, and the laws of the device that every state must keep. -/

namespace Sys2Proof.Machine

open Sys2Proof

/-! ## What the hand-overs leave alone -/

/-- The observed-green fields of a group record (R36 to R38). -/
structure Marks where
  greenRun : Nat
  quiet : Nat
  seen : Bool
  raised : Bool
deriving DecidableEq, Repr

/-- The observed-green fields of a record. -/
def marksOf (r : GroupRec) : Marks := ⟨r.greenRun, r.quiet, r.seen, r.raised⟩

/-- The part of the state that the hand-overs after a command never touch: the tables, the circuit map, the observed-green fields, the
groups whose types act, the inputs, the mains supervisor, the clock, the schedule, the field bus but for the report queue, lamp proving, cable
supervision, the started flag and the schedule mode, the port but for its transmitter, its replies, its ALERT slot and its summary, and the event
that stands. -/
structure Kept where
  tables : Tables
  map : Option CircuitMap
  marks : Vector Marks 32
  acting : GroupSet
  inputs : Vector InputRec 64
  mains : Mains
  clock : Clock
  sched : SchedRec
  bus : Bus
  prov : Proving
  cable : Cable
  started : Bool
  schedMode : SchedMode
  receiver : Receiver
  inService : Option (Byte × Byte)
  busy : Bool
  configOpen : Bool
  identity : Vector (Option (List Byte)) 3
  inPulse : Bool
  moment : Moment
  pending : List Instr
deriving DecidableEq, Repr

/-- The kept part of a state. -/
def kept (s : State) : Kept :=
  { tables := s.tables, map := s.map, marks := tab fun g => marksOf s.groups[g], acting := s.acting, inputs := s.inputs, mains := s.mains,
    clock := s.clock, sched := s.sched, bus := { s.bus with queue := [] }, prov := s.prov, cable := s.cable,
    started := s.jm.started, schedMode := s.jm.schedMode, receiver := s.port.receiver, inService := s.port.inService,
    busy := s.port.busy, configOpen := s.port.configOpen, identity := s.port.identity, inPulse := s.inPulse,
    moment := s.moment, pending := s.pending }

/-! ## Requests -/

/-- The state in which a request is judged when it is taken into service (R87, R169, R170): the receiver hunts, the silence timer has
restarted, the request is in service, and no event stands. -/
def taken (kind tag : Byte) (s : State) : State := setPort (received s) fun p => { p with inService := some (kind, tag) }

/-- The state a request leaves when its rule has left `u` and answers `r` with data `d` (R170): the hand-overs are made, the reply is made
ready, and a free transmitter takes it. -/
def answered (kind tag : Byte) (u : State) (r : Result) (d : ReplyData) : State := finish (answer kind tag ⟨u, r, d⟩)

/-- What a request of the kind leaves of the kept part of a state when it changes nothing else (R169, R170). -/
def keptTaken (kind tag : Byte) (s : State) : Kept :=
  { kept s with receiver := .hunting, inService := some (kind, tag), moment := .between }

/-- The reply of the request of the kind and tag, with the result and the data, is being sent or is the last of those ready (R170, R173). -/
def Replied (t : State) (kind tag : Byte) (r : Result) (d : ReplyData) : Prop :=
  ∃ x : Reply, x.kind = kind ∧ x.tag = tag ∧ x.result = r ∧ x.data = d ∧ x.busy = false ∧
    (t.port.tx = some (.reply x) ∨ t.port.replies.getLast? = some x)

/-- Kind and tag of a request command (R181): the kinds are numbered H'01 to H'20 in the order of the request catalogue. Commands that are no
request have none. -/
def requestOf : Instr → Option (Byte × Byte)
  | .configOpen tag => some (0x01, tag)
  | .tableWriteFiu tag _ _ => some (0x02, tag)
  | .tableWriteGroup tag _ _ => some (0x02, tag)
  | .tableWriteCircuit tag _ _ => some (0x02, tag)
  | .tableWriteConflictMatrix tag _ _ => some (0x02, tag)
  | .tableWriteStage tag _ _ => some (0x02, tag)
  | .tableWriteInputMap tag _ _ => some (0x02, tag)
  | .tableWritePattern tag _ _ => some (0x02, tag)
  | .tableWriteStartUpRecord tag _ _ => some (0x02, tag)
  | .tableWritePlan tag _ _ _ => some (0x02, tag)
  | .tableWriteSchedule tag _ _ => some (0x02, tag)
  | .tableWriteReaction tag _ _ => some (0x02, tag)
  | .tableWriteProvingParameters tag _ _ => some (0x02, tag)
  | .tableWriteCableParameters tag _ _ => some (0x02, tag)
  | .tableWriteReference tag _ _ => some (0x02, tag)
  | .tableWriteLive tag _ _ _ => some (0x02, tag)
  | .tableRead tag _ _ => some (0x03, tag)
  | .validatePlan tag _ => some (0x04, tag)
  | .start tag => some (0x05, tag)
  | .programIdentity tag _ => some (0x06, tag)
  | .readIdentity tag => some (0x07, tag)
  | .selectPlan tag _ => some (0x08, tag)
  | .releasePlan tag => some (0x09, tag)
  | .hold tag _ => some (0x0A, tag)
  | .releaseHold tag => some (0x0B, tag)
  | .step tag _ => some (0x0C, tag)
  | .demand tag _ => some (0x0D, tag)
  | .setDim tag _ => some (0x0E, tag)
  | .releaseDim tag => some (0x0F, tag)
  | .flash tag _ => some (0x10, tag)
  | .dark tag _ => some (0x11, tag)
  | .resume tag => some (0x12, tag)
  | .directEnter tag => some (0x13, tag)
  | .directTarget tag _ => some (0x14, tag)
  | .directExit tag => some (0x15, tag)
  | .syncPatterns tag => some (0x16, tag)
  | .learn tag _ _ _ _ => some (0x17, tag)
  | .learnCancel tag _ => some (0x18, tag)
  | .ackFault tag _ => some (0x19, tag)
  | .clearLatch tag _ => some (0x1A, tag)
  | .readStatus tag => some (0x1B, tag)
  | .forwardSet tag _ => some (0x1C, tag)
  | .pass tag _ _ _ => some (0x1D, tag)
  | .setTime tag _ _ => some (0x1E, tag)
  | .trim tag _ _ => some (0x1F, tag)
  | .engineRestart tag => some (0x20, tag)
  | .malformedRequest kind tag | .busyRequest kind tag => some (kind, tag)
  | .powerOnReset | .corruptFrame _ | .framePauseTimeout | .frameSent | .mainsEdge _ | .mainsFrequencyRaise
  | .mainsFrequencyClear | .mainsGapBegin | .mainsInterruptionRaise | .mainsInterruptionClear
  | .substituteWindowStart | .senseReceived _ | .senseMiss _ | .fiuLost _ | .rollCallRound | .identReceived _
  | .identTimeout _ | .passReplyReceived _ | .unexpectedGreenRaise _ | .unexpectedGreenClear _
  | .decisecondPulse | .clearanceStart _ | .amberEnd _ | .clearanceEnd _ | .redAmberEnd _ | .patternStep _
  | .startFlashEnd | .startRedEnd | .startProvingTimeout | .controllerSilent | .minimumGreenEnd | .gapOut
  | .maxOut | .forceOff | .minuteBoundary | .midnightRollover | .inputChange _ | .detectorStuck _
  | .verdictConfirm _ | .learnConverge _ | .learnUnstable _ | .cableFaultConfirm _ | .crossFeedRaise _
  | .crossFeedClear _ | .retryRelease _ | .tripCountClear _ | .earthLeakageRaise _ | .earthLeakageClear _
  | .fiuOvertempRaise _ | .fiuOvertempClear _ | .frameBegins _ | .crystalMillisecond => none

/-! ## The conflict check of DIRECT_TARGET -/

/-- Group `i` has GO pending after the entries `b` of a list (R34): the last entry for it, if there is one, is GO (code 0), and otherwise its record
has target GO in RED, AMBER or GREEN_FLASH. -/
def pendingAfter (s : State) (b : List (Nat × Nat)) (i : Fin 32) : Bool :=
  match (b.filter fun e => decide (e.1 = num i)).getLast? with
  | some e => decide (e.2 = 0)
  | none => decide (s.groups[i].target = .go ∧
      (s.groups[i].aspect = .red ∨ s.groups[i].aspect = .amber ∨ s.groups[i].aspect = .greenFlash))

/-- A GO for group `g` after the entries `b` is in conflict (R34): some group that conflicts with `g` is GREEN or RED_AMBER, or has GO pending. -/
abbrev GoRefused (s : State) (b : List (Nat × Nat)) (g : Fin 32) : Prop :=
  ∃ i : Fin 32, conflicts s i g = true ∧
    (s.groups[i].aspect = .green ∨ s.groups[i].aspect = .redAmber ∨ pendingAfter s b i = true)

/-! ## Leaving a step -/

/-- The place of step `k` in the search order after step `cur` of a plan of `n` steps, from 0; step `cur` itself comes last (R53). -/
def searchPlace (n : Nat) (cur k : Fin 16) : Nat := (k.val + n - 1 - cur.val) % n

/-- The next wanted step after the current one in search order, when another step is wanted (R53). -/
def NextWanted (s : State) (p : Fin 8) (b : Fin 16) : Prop :=
  b.val < nSteps s p ∧ b ≠ s.eng.cur ∧ wanted s p b = true ∧
    ∀ k : Fin 16, k.val < nSteps s p → wanted s p k = true →
      searchPlace (nSteps s p) s.eng.cur b ≤ searchPlace (nSteps s p) s.eng.cur k

/-- The interstage to step `b` of plan `p` has begun in `u` (R56): a served group that is not of the new stage's has target STOP and is losing;
a group of the new stage that is not served and not inhibited has target GO, is served and gaining; every other group keeps its target and its
place in the served set. -/
structure BegunFrom (s u : State) (p : Fin 8) (b : Fin 16) : Prop where
  sub : u.eng.sub = .interstage
  cur : u.eng.cur = b
  off : u.eng.stageOn = false
  groups : ∀ g : Fin 32, live s g = true →
    if mem s.eng.served g = true ∧ ¬ mem (greenSet s (stepOf s p b).stage) g = true then
      u.groups[g].target = .stop ∧ mem u.eng.served g = false ∧ mem u.eng.losing g = true
    else if mem s.eng.served g = false ∧ mem (greenSet s (stepOf s p b).stage) g = true ∧
        s.groups[g].inhibited = false then
      u.groups[g].target = .go ∧ mem u.eng.served g = true ∧ mem u.eng.gaining g = true
    else u.groups[g].target = s.groups[g].target ∧ mem u.eng.served g = mem s.eng.served g

/-- The outcome of a search for a step that passes a test, over a plan of `n` steps, from the step after step `cur` and round to `cur` (R53): the step
found is the first in search order that passes, none is found where none passes, and `one` says that step 1 was among the steps looked at. -/
structure Searched (n : Nat) (cur : Fin 16) (f : Fin 16 → Bool) (found : Option (Fin 16)) (one : Bool) : Prop where
  first : ∀ k : Fin 16, found = some k → k.val < n ∧ f k = true ∧
    ∀ j : Fin 16, j.val < n → f j = true → searchPlace n cur k ≤ searchPlace n cur j
  nothing : found = none → ∀ j : Fin 16, j.val < n → f j = false
  one : one = true ↔ ∀ k : Fin 16, found = some k → searchPlace n cur 0 ≤ searchPlace n cur k

/-- The outcome of a search from step 1, step 1 included, over a plan of `n` steps (R55, R67). -/
structure FirstFrom (n : Nat) (f : Fin 16 → Bool) (found : Option (Fin 16)) : Prop where
  first : ∀ k : Fin 16, found = some k → k.val < n ∧ f k = true ∧ ∀ j : Fin 16, j < k → f j = false
  nothing : found = none → ∀ j : Fin 16, j.val < n → f j = false

/-- From `s` the next wanted step after the current one is sought, and the interstage to a step found has begun in `t` (R58). A return to step 1 is
kept for a CYCLE hold (log entry 35). -/
def SoughtFrom (s : State) (p : Fin 8) (t : State) : Prop :=
  ∃ (found : Option (Fin 16)) (one : Bool) (l : State),
    Searched (nSteps s p) s.eng.cur (wanted s p) found one ∧
    l = { s with eng := { s.eng with returned := s.eng.returned || one } } ∧
    t = match found with
      | some b => beginInterstage l p b
      | none => l

/-- The current step has ended in `s` and the search for a step that passes the test has been answered in `t` (R63, R64, R67, R71): the end of the
hold step empties the passed set and clears dwell, a pending plan takes over where the search reached step 1, and otherwise the interstage to the
step found begins. -/
def EndedBy (s : State) (p : Fin 8) (f : Fin 16 → Bool) (req : Option StepReq) (t : State) : Prop :=
  ∃ (found : Option (Fin 16)) (one : Bool) (l : State),
    Searched (nSteps s p) s.eng.cur f found one ∧
    l = { s with eng := { s.eng with
      passed := if isHoldStep s p s.eng.cur then 0 else s.eng.passed
      dwell := if isHoldStep s p s.eng.cur then false else s.eng.dwell
      returned := s.eng.returned || one } } ∧
    (∀ q : Fin 8, one = true → s.eng.pendingPlan = some q → t = takeover l q req) ∧
    (one = false ∨ s.eng.pendingPlan = none → t = match found with
      | some b => beginInterstage l p b
      | none => l)

/-- STOP has been handed to every group of the served set of `s`, and `w` rests with nothing served (R67, R72). -/
def StoppedServed (s w : State) : Prop :=
  w = { s with
    groups := w.groups, clearRuns := w.clearRuns
    eng := { s.eng with served := 0, gaining := 0, losing := 0, sub := .rest, stageOn := false } } ∧
  ∀ g : Fin 32, w.groups[g] = (if mem s.eng.served g then (handTarget s g .stop).groups[g] else s.groups[g]) ∧
    w.clearRuns[g] = if mem s.eng.served g then (handTarget s g .stop).clearRuns[g] else s.clearRuns[g]

/-- The timers of a group record that has gone from `a` to `b`, at a pulse or between two (R21): a change of aspect restarts the time in aspect, and
leaving GREEN the time since GREEN ended, each marked fresh between pulses; what does not restart is kept. -/
structure Retimed (inPulse : Bool) (a b : GroupRec) : Prop where
  changed : b.aspect ≠ a.aspect → b.inAspect = 0 ∧ b.inAspectFresh = !inPulse
  stayed : b.aspect = a.aspect → b.inAspect = a.inAspect ∧ b.inAspectFresh = a.inAspectFresh
  cut : a.aspect = .green → b.aspect ≠ .green → b.sinceGreen = 0 ∧ b.sinceGreenFresh = !inPulse
  kept : (a.aspect = .green ↔ b.aspect = .green) → b.sinceGreen = a.sinceGreen ∧ b.sinceGreenFresh = a.sinceGreenFresh

/-- The summary and the ALARM line are those of the rest of the state (R167, R171). -/
def Fresh (s : State) : Prop := s.coll.alarm = alarmNow s ∧ s.port.summary = summaryNow s

/-- The units to which a DRIVE frame has been sent in the present round, in order (R109). -/
def drivesOf (s : State) : List (Fin 12) :=
  s.bus.sent.filterMap fun f =>
    match f with
    | .drive u _ _ _ _ _ => some u
    | .rollCall _ | .pass _ _ _ => none

/-! ## Conditions held raised -/

/-- A fault of a kind and subject that the field bus controller, lamp proving, cable supervision or the plan engine's input evaluation holds
raised, and so clears at CONFIG_OPEN (R50, R122, R144, R158, R177). -/
def HeldRaised (s : State) (k : Kind) (n : Nat) : Prop :=
  (∃ u : Fin 12, n = num u ∧
    ((k = .fiuLost ∧ s.bus.units[u].lostRaised = true) ∨ (k = .fiuMismatch ∧ s.bus.units[u].mismatchRaised = true) ∨
     (k = .fiuOvertemp ∧ s.bus.units[u].hotRaised = true) ∨ (k = .dimUnlearned ∧ s.bus.units[u].dimRaised = true) ∨
     (k = .earthLeakage ∧ s.cable.leak[u].raised = true))) ∨
  (∃ c : Fin 96, n = num c ∧
    ((∃ f : LampFault, s.prov.circuits[c].fault = some f ∧ k = LampFault.kind f) ∨
     (k = .cableOpen ∧ s.cable.circuits[c].openRaised = true) ∨ (k = .cableShort ∧ s.cable.circuits[c].shortRaised = true) ∨
     (k = .crossFeed ∧ s.cable.circuits[c].crossRaised = true) ∨ (k = .overcurrent ∧ s.cable.circuits[c].ovcRaised = true))) ∨
  (∃ g : Fin 32, n = num g ∧ k = .redLost ∧ s.prov.red[g] = .lost) ∨
  ∃ e : Fin 64, n = num e ∧ k = .detectorStuck ∧ s.inputs[e].stuck = true

/-! ## INHIBIT reactions in force -/

/-- A record's INHIBIT applies to group `g`, by its subject (R165): with no circuit map, that of a circuit or a unit applies to none. -/
def InhibitApplies (s : State) (r : FaultRec) (g : Fin 32) : Prop :=
  match r.kind.subjectType with
  | .circuit => ∃ c : Fin 96, r.subject = num c ∧ inMap s c = true ∧ s.tables.circuit[c].group = num g
  | .unit => ∃ (m : CircuitMap) (k : Fin 12) (t : Fin 8) (c : Fin 96), s.map = some m ∧ r.subject = num k ∧
      m.terminal[k][t] = some c ∧ s.tables.circuit[c].group = num g
  | .group => r.subject = num g
  | .input | .plan | .nothing => False

/-- One or more INHIBIT reactions in force among the records of a fault table apply to group `g` (R165, R166). -/
def Inhibiting (s : State) (slots : Vector (Option FaultRec) 64) (g : Fin 32) : Prop :=
  ∃ (i : Fin 64) (r : FaultRec), slots[i] = some r ∧ (r.state ≠ .clearedUnack ∨ r.kind.latching = true) ∧
    r.reaction = .inhibit ∧ InhibitApplies s r g

/-- From collector `a` to `b`, the inhibit demand that stood as CONFIG_OPEN left it goes on standing just when the fault table is as it was
(R41, R167). -/
def StandsOn (a b : Collector) : Prop := b.demandStands = true ↔ a.demandStands = true ∧ b.slots = a.slots

/-! ## The laws of the device -/

/-- The law of R30 with what carries it from step to step. Two groups that conflict are never both GREEN or RED_AMBER. With configuration
closed the matrix is symmetric over the groups in use, as START has found it (R13). In mode DARK every group is DARK, the engine runs no plan and
no departure waits (R72, R75). A group of type UNUSED is DARK (R1). With configuration open the mode is DARK, started is no, and the reason is
one that nothing but START leaves (R77, R83, R93, R177). -/
structure Lawful (s : State) : Prop where
  apart : ∀ i j : Fin 32, conflicts s i j = true → ¬ (going s.groups[i] = true ∧ going s.groups[j] = true)
  symmetric : s.port.configOpen = false → ∀ i j : Fin 32, conflicts s i j = true → conflicts s j i = true
  darkness : s.jm.mode = .dark →
    (∀ g : Fin 32, s.groups[g].aspect = .dark) ∧ s.eng.running = none ∧ s.jm.departure = none
  unusedDark : ∀ g : Fin 32, live s g = false → s.groups[g].aspect = .dark
  configuring : s.port.configOpen = true →
    s.jm.mode = .dark ∧ s.jm.started = false ∧
      (s.jm.reason = .reset ∨ s.jm.reason = .restart ∨ s.jm.reason = .config)

/-- The law of R88 with what carries it from step to step: the demanded mode handed to the mode machine is the one the fault table and the
overflow latch give, the junction mode is that mode or a more severe one, and the start red time is above 0 (R76). -/
structure Obeyed (s : State) : Prop where
  handed : s.coll.demanded = demandedNow s
  dark : demandedNow s = .dark → s.jm.mode = .dark
  flash : demandedNow s = .flash → s.jm.mode = .flash ∨ s.jm.mode = .dark
  startRed : 0 < s.tables.startUp.startRed

/-- The law of R159: no two records of the fault table have the same kind and subject. -/
def OneRecordEach (s : State) : Prop :=
  ∀ (i j : Fin 64) (a b : FaultRec), s.coll.slots[i] = some a → s.coll.slots[j] = some b →
    a.kind = b.kind → a.subject = b.subject → i = j

/-- The capacities of R114, R121 and R138: four records in each composition log, 16 reports in the report queue with a dropped count of at most
255, and 8 pairs in each learning ring. -/
def WithinCapacity (s : State) : Prop :=
  (∀ u : Fin 12, s.bus.units[u].log.length ≤ 4) ∧ s.bus.queue.length ≤ 16 ∧ s.bus.dropped ≤ 255 ∧
    ∀ c : Fin 96, s.prov.learn[c].ring.length ≤ 8

end Sys2Proof.Machine
end

