-- ==== Sys2Proof/WellFormed.lean ====
section
/-! DEFINITION. WellFormed: which commands the wire can carry. A field fits the bytes R183 and R184 give it; where the manual lays out no
bytes for a field, it fits the largest width the manual uses for a number of its kind (DESIGN CHOICE, safe; log entry 6). -/

namespace Sys2Proof

/-- The number fits one byte. -/
def byteOk (n : Nat) : Bool := n < 256

/-- The number fits two bytes. -/
def wordOk (n : Nat) : Bool := n < 65536

/-- The table form fits the wire: a two-byte start index, a one-byte count and a one-byte stride code. -/
def TableArgs.wellFormed (a : TableArgs) : Bool := wordOk a.start && byteOk a.count && byteOk a.stride

/-- Every field of the entry is one byte. -/
def FiuEntry.wellFormed (e : FiuEntry) : Bool := byteOk e.present && byteOk e.typeCode && byteOk e.order

/-- Codes are one byte, times two. -/
def GroupEntry.wellFormed (e : GroupEntry) : Bool :=
  byteOk e.type && wordOk e.amber && wordOk e.redAmber && wordOk e.clearance && byteOk e.pattern && wordOk e.safetyMin &&
  wordOk e.minRed && byteOk e.redSets

/-- Every field of the entry is one byte (R184). -/
def CircuitEntry.wellFormed (e : CircuitEntry) : Bool :=
  byteOk e.group && byteOk e.fiu && byteOk e.terminal && byteOk e.role && byteOk e.redSet && byteOk e.loadClass &&
  byteOk e.k && byteOk e.proving && byteOk e.cableTest && byteOk e.bleed

/-- Codes are one byte, the stuck-on limit two. -/
def InputEntry.wellFormed (e : InputEntry) : Bool :=
  byteOk e.fiu && byteOk e.input && byteOk e.kind && byteOk e.debounce && wordOk e.stuckLimit

/-- Each number of the pattern entry is one byte. -/
def PatternEntry.wellFormed (e : PatternEntry) : Bool :=
  byteOk e.steps && e.slots.toList.all fun s => byteOk s.level && byteOk s.duration

/-- Codes are one byte, times two. -/
def StartUp.wellFormed (e : StartUp) : Bool :=
  byteOk e.mains && wordOk e.startFlash && wordOk e.startRed && wordOk e.provingLimit && wordOk e.restart &&
  wordOk e.silence && byteOk e.pattern && byteOk e.fallback

/-- Each number of the schedule form is one byte. -/
def SchedRaw.wellFormed : SchedRaw → Bool
  | .header p => byteOk p
  | .entry e => byteOk e.hours && byteOk e.minutes && byteOk e.action && byteOk e.plan

/-- Each parameter fits two bytes. -/
def ProvingParams.wellFormed (e : ProvingParams) : Bool :=
  wordOk e.tLo && wordOk e.tHi && wordOk e.failConfirm && wordOk e.recoverConfirm && wordOk e.presence && wordOk e.spread

/-- Each parameter fits two bytes, the threshold mode code one. -/
def CableParams.wellFormed (e : CableParams) : Bool :=
  wordOk e.openThreshold && wordOk e.lowThreshold && wordOk e.testInterval && wordOk e.testConfirm && wordOk e.vFix &&
  wordOk e.ratio && byteOk e.mode && wordOk e.offCurrent && wordOk e.crossConfirm && wordOk e.retryDelay &&
  wordOk e.maxRetries && wordOk e.tripClear && wordOk e.leakThreshold && wordOk e.leakConfirm && wordOk e.leakClear &&
  wordOk e.greenConfirm && wordOk e.missLimit

/-- The held flag is one byte, Iref and Vref two. -/
def RefPart.wellFormed (p : RefPart) : Bool := byteOk p.held && wordOk p.iref && wordOk p.vref

/-- Both parts fit the wire. -/
def RefEntry.wellFormed (e : RefEntry) : Bool := e.bright.wellFormed && e.dim.wellFormed

/-- A sample's fields fit R183's five bytes. -/
def Sample.wellFormed (s : Sample) : Bool := wordOk s.isum && byteOk s.vterm && byteOk s.residual

/-- A SENSE frame's fields fit R183's bytes; the unit number is the low half of the address byte. -/
def SenseFrame.wellFormed (f : SenseFrame) : Bool :=
  decide (f.unit < 16) && byteOk f.window && byteOk f.vsup && byteOk f.leakage && f.samples.toList.all Sample.wellFormed

/-- An IDENT frame's fields fit R183's bytes. -/
def IdentFrame.wellFormed (f : IdentFrame) : Bool :=
  decide (f.unit < 16) && byteOk f.typeCode && decide (f.serial < 4294967296)

/-- A PASS answer's fields fit R183's bytes. -/
def PassFrame.wellFormed (f : PassFrame) : Bool := decide (f.unit < 16) && decide (f.payload.length ≤ 48)

/-- The circuit numbers are one byte each. -/
def CircuitList.wellFormed : CircuitList → Bool
  | .all => true
  | .list cs => cs.all byteOk

/-- The command is one the wire can carry. -/
def Instr.wellFormed : Instr → Bool
  | .tableWriteFiu _ a es => a.wellFormed && es.all FiuEntry.wellFormed
  | .tableWriteGroup _ a es => a.wellFormed && es.all GroupEntry.wellFormed
  | .tableWriteCircuit _ a es => a.wellFormed && es.all CircuitEntry.wellFormed
  | .tableWriteConflictMatrix _ a es => a.wellFormed && es.all byteOk
  | .tableWriteStage _ a _ => a.wellFormed
  | .tableWriteInputMap _ a es => a.wellFormed && es.all InputEntry.wellFormed
  | .tableWritePattern _ a es => a.wellFormed && es.all PatternEntry.wellFormed
  | .tableWriteStartUpRecord _ a es => a.wellFormed && es.all StartUp.wellFormed
  | .tableWritePlan _ p a es => byteOk p && a.wellFormed && es.all fun bs => decide (bs.length ≤ 11)
  | .tableWriteSchedule _ a es => a.wellFormed && es.all SchedRaw.wellFormed
  | .tableWriteReaction _ a es => a.wellFormed && es.all byteOk
  | .tableWriteProvingParameters _ a es => a.wellFormed && es.all ProvingParams.wellFormed
  | .tableWriteCableParameters _ a es => a.wellFormed && es.all CableParams.wellFormed
  | .tableWriteReference _ a es => a.wellFormed && es.all RefEntry.wellFormed
  | .tableWriteLive _ id a n => byteOk id && a.wellFormed && byteOk n
  | .tableRead _ id a => byteOk id && a.wellFormed
  | .validatePlan _ p | .selectPlan _ p => byteOk p
  | .programIdentity _ bs => decide (bs.length ≤ 1017)
  | .hold _ m | .setDim _ m | .flash _ m | .dark _ m => byteOk m
  | .step _ (.stage n) => byteOk n
  | .demand _ ss => ss.all byteOk
  | .directTarget _ es => es.all fun e => byteOk e.1 && byteOk e.2
  | .learn _ cs t a b => cs.wellFormed && byteOk t && wordOk a && wordOk b
  | .learnCancel _ cs => cs.wellFormed
  | .ackFault _ (.one k s) => byteOk k && byteOk s
  | .clearLatch _ c => byteOk c
  | .forwardSet _ us => us.all byteOk
  | .pass _ u _ bs => byteOk u && decide (bs.length ≤ 1017)
  | .setTime _ d ms => byteOk d && decide (ms < 4294967296)
  | .trim _ t s => decide (-32768 ≤ t) && decide (t < 32768) && byteOk s
  | .senseReceived f => f.wellFormed
  | .identReceived f => f.wellFormed
  | .passReplyReceived f => f.wellFormed
  | .powerOnReset | .configOpen _ | .start _ | .readIdentity _ | .releasePlan _ | .releaseHold _ | .step _ .next
  | .releaseDim _ | .resume _ | .directEnter _ | .directExit _ | .syncPatterns _ | .ackFault _ .all
  | .ackFault _ .neither | .readStatus _ | .engineRestart _ | .malformedRequest _ _ | .busyRequest _ _ | .corruptFrame _
  | .framePauseTimeout | .frameSent | .mainsEdge _ | .mainsFrequencyRaise | .mainsFrequencyClear | .mainsGapBegin
  | .mainsInterruptionRaise | .mainsInterruptionClear | .substituteWindowStart | .senseMiss _ | .fiuLost _
  | .rollCallRound | .identTimeout _ | .unexpectedGreenRaise _ | .unexpectedGreenClear _ | .decisecondPulse
  | .clearanceStart _ | .amberEnd _ | .clearanceEnd _ | .redAmberEnd _ | .patternStep _ | .startFlashEnd | .startRedEnd
  | .startProvingTimeout | .controllerSilent | .minimumGreenEnd | .gapOut | .maxOut | .forceOff | .minuteBoundary
  | .midnightRollover | .inputChange _ | .detectorStuck _ | .verdictConfirm _ | .learnConverge _ | .learnUnstable _
  | .cableFaultConfirm _ | .crossFeedRaise _ | .crossFeedClear _ | .retryRelease _ | .tripCountClear _
  | .earthLeakageRaise _ | .earthLeakageClear _ | .fiuOvertempRaise _ | .fiuOvertempClear _ | .frameBegins _
  | .crystalMillisecond => true

end Sys2Proof
end

