-- ==== Sys2Proof/Certificates/Slice0/Obligations.lean ====
section
/-! DEFINITION. Obligations: the statements for the provers, from the numbered rules of spec/. -/

open Sys2Proof Sys2Proof.Machine

/-- For every state whose queue is c followed by rest, step answers what exec answers for c on the state with the
queue rest. With an empty queue the part idles (the model's choice, log entry 1). (95_what_each_step_holds, section
3.) -/
def Obligations.StepTakesFront : Prop :=
  ∀ s : State,
    (∀ (c : Instr) (rest : List Instr), s.pending = c :: rest → step s = exec c { s with pending := rest }) ∧
    (s.pending = [] → step s = .next s)

/-- In the reset state every group entry is UNUSED with amber 30, red-amber 0, clearance 30, pattern 1, safety minimum
40, minimum red 0 and one red set; every circuit entry has group 0, unit 1, terminal 1, role RED, red set 1,
INCANDESCENT, k 1, proving and cable test on and bleed off; every unit entry is not present, type 0, DIRECT; there is
no circuit map; and START with an identity programmed is refused INVALID with NO_GROUPS in its list, whatever the
other tables hold. That 1 is on and 0 is off, and not present, is the model's reading (log entry 13). (R16.) -/
def Obligations.ResetTables : Prop :=
  (∀ g : Fin 32, State.reset.tables.group[g] =
    { type := 0, amber := 30, redAmber := 0, clearance := 30, pattern := 1, safetyMin := 40, minRed := 0,
      redSets := 1 }) ∧
  (∀ c : Fin 96, State.reset.tables.circuit[c] =
    { group := 0, fiu := 1, terminal := 1, role := 0, redSet := 1, loadClass := 0, k := 1, proving := 1,
      cableTest := 1, bleed := 0 }) ∧
  (∀ u : Fin 12, State.reset.tables.fiu[u] = { present := 0, typeCode := 0, order := 0 }) ∧
  State.reset.map = none ∧
  ∀ (s : State) (tag : Byte), s.port.inService = none → (taken 0x05 tag s).jm.mode = .dark →
    s.port.configOpen = true → effSlot s ≠ 0 →
    (∀ g : Fin 32, s.tables.group[g] = State.reset.tables.group[g]) →
    ∃ (u : State) (es : List ErrEntry),
      exec (.start tag) s = .next (answered 0x05 tag u .invalid (.errors es)) ∧ (⟨0, 1, 0⟩ : ErrEntry) ∈ es

/-- From every state POWER_ON_RESET answers the reset state with the identity slots and the waiting commands of the
state before, and with the ALERT of the end of POR, which carries the POR summary and the effective identity, being
sent. That the waiting commands stay and that the free transmitter has taken the ALERT by then are the model's choice
and reading (log entry 29). (R172, R173, R180, R168.) -/
def Obligations.PowerOnReset : Prop :=
  ∀ s : State, exec .powerOnReset s = .next
    { State.reset with
      pending := s.pending
      port := { State.reset.port with
        identity := s.port.identity, tx := some (.alert ⟨State.reset.port.summary, effSlot s, effIdentity s⟩) } }

/-- For every request command c with its kind and tag, MALFORMED_REQUEST and BUSY_REQUEST among them, in every state
with a request in service: exec answers a next state in which the kept part is unchanged but for the receiver and the
BUSY slot, the request in service is as before, and with the BUSY slot free one answer with result BUSY and the
request's own kind and tag joins the replies, while with the BUSY slot held none does. That BUSY_REQUEST with no
request in service changes nothing is the model's choice (log entry 31). For every request command but BUSY_REQUEST,
in every state with no request in service, exec answers a next state in which the request is in service and its reply,
with its kind and tag, is being sent or is the last of the replies ready. (R170, R181, R173.) -/
def Obligations.RequestsAnswered : Prop :=
  (∀ (c : Instr) (kind tag : Byte) (s : State), requestOf c = some (kind, tag) →
    (s.port.inService.isSome = true →
      ∃ u : State, exec c s = .next (finish u) ∧ kept u = { kept s with receiver := .hunting, busy := true } ∧
        u.port.tx = s.port.tx ∧
        (s.port.busy = true → u = received s) ∧
        (s.port.busy = false → ∃ x : Reply, x.kind = kind ∧ x.tag = tag ∧ x.result = .busy ∧ x.data = .none ∧
          x.busy = true ∧ u = setPort (received s) fun p => { p with busy := true, replies := p.replies ++ [x] })) ∧
    (s.port.inService = none → exec (.busyRequest kind tag) s = .next s)) ∧
  ∀ (c : Instr) (kind tag : Byte) (s : State), requestOf c = some (kind, tag) →
    (∀ k t, c ≠ .busyRequest k t) → s.port.inService = none →
    ∃ (t : State) (r : Result) (d : ReplyData), exec c s = .next t ∧ Replied t kind tag r d ∧
      t.port.inService = some (kind, tag)

/-- With no request in service, READ_STATUS answers DONE with the extended status, READ_IDENTITY DONE with the three
slots and the effective slot's number, MALFORMED_REQUEST answers MALFORMED, and TABLE_READ answers by R176: MALFORMED
for a bad count or stride, BAD_INDEX for an unknown id or an index out of range, MALFORMED for a reply above 1024
bytes, and otherwise DONE with the entries addressed, in order, as they stand. None of them leaves anything else
changed. The size of an entry that chapter 11 does not lay out is a free value (log entry 5). That the 1024-byte check
comes after the others is the model's reading (log entry 31). (R176, R178, R180, R169, R174.) -/
def Obligations.ReadsAnswer : Prop :=
  ∀ (s : State) (tag kind : Byte) (id : Nat) (a : TableArgs), s.port.inService = none →
    exec (.readStatus tag) s =
      .next (answered 0x1B tag (taken 0x1B tag s) .done (.status (statusNow (taken 0x1B tag s)))) ∧
    exec (.readIdentity tag) s =
      .next (answered 0x07 tag (taken 0x07 tag s) .done (.identity s.port.identity (effSlot s))) ∧
    exec (.malformedRequest kind tag) s = .next (answered kind tag (taken kind tag s) .malformed .none) ∧
    exec (.tableRead tag id a) s = .next
      (if ¬ (1 ≤ a.count ∧ a.count ≤ 64 ∧ a.stride ≤ 2) then answered 0x03 tag (taken 0x03 tag s) .malformed .none
       else match tableRange id with
        | none => answered 0x03 tag (taken 0x03 tag s) .badIndex .none
        | some n =>
          if ∃ i ∈ addressed a, n ≤ i then answered 0x03 tag (taken 0x03 tag s) .badIndex .none
          else if 1024 < 15 + a.count * entrySize id then answered 0x03 tag (taken 0x03 tag s) .malformed .none
          else answered 0x03 tag (taken 0x03 tag s) .done
            (.entries ((addressed a).filterMap (readEntry (taken 0x03 tag s) id))))

/-- With no request in service, each TABLE_WRITE command that fails a check of R175 answers the first that applies, in
the order form, indices, permission, fields and whole table, and leaves the tables as they were. A live table is never
written: with a good form and good indices the answer is IN_USE. An id of no table is BAD_INDEX after the form.
Entries of a plan that are not 11 bytes and a schedule header or entry at the other's index count as a bad form (the
model's reading, log entry 14). A bad form or index at a live table's id, and a plan number outside 1 to 8, are not
stated here (log entry 12). The last write at an index stands and an index that no write names keeps its entry. A
field is refused exactly so: group entries by type, a circuit in use by group, unit, terminal, role, red set of a RED,
load class or an on/off field above 1, a unit present by its order, an input in use by its unit, input and kind, an
intergreen above 250 other than 255, a pattern by its steps and the steps in use, the start-up record by its ranges, a
plan header above 16 steps, a plan step by stage, times and flags, a schedule header above plan 8, a schedule entry
with a weekday by time, action and plan, and a reference held by its ranges; the schedule as a whole where two entries
of one class share a time and a weekday. That 1 is yes and that a held code above 1 is BAD_VALUE are the model's
reading and choice (log entries 13 and 15). An UNUSED group and an empty circuit or input entry are stored as written;
red sets and k are set to the nearer end of 1 to 4, a debounce of 1 to 15 and a stuck-on limit other than 0 of 10 to
3600. (R174, R175, R2, R4, R6, R19, R48, R91, R76, R43, R102, R129.) -/
def Obligations.WriteRefusals : Prop :=
  ((∀ (a : TableArgs) (n range : Nat) (allowed badField badTable : Bool),
    firstRefusal (writeChecks a n range allowed badField badTable) =
      if ¬ (1 ≤ a.count ∧ a.count ≤ 64 ∧ a.stride ≤ 2 ∧ n = a.count) then some .malformed
      else if ∃ i ∈ addressed a, range ≤ i then some .badIndex
      else if allowed = false then some .inUse
      else if badField = true ∨ badTable = true then some .badValue
      else none) ∧
  (∀ st n : Nat, addressed ⟨st, n, 0⟩ = List.replicate n st ∧
    addressed ⟨st, n, 1⟩ = (List.range n).map (fun i => st + i) ∧
    addressed ⟨st, n, 2⟩ = (List.range n).map (fun i => st + 32 * i)) ∧
  ∀ (s : State) (tag : Byte) (a : TableArgs) (r : Result), s.port.inService = none →
    (∀ es : List FiuEntry,
      firstRefusal (writeChecks a es.length 12 s.port.configOpen (es.any badFiu) false) = some r →
      exec (.tableWriteFiu tag a es) s = .next (answered 0x02 tag (taken 0x02 tag s) r .none)) ∧
    (∀ es : List GroupEntry,
      firstRefusal (writeChecks a es.length 32 s.port.configOpen (es.any badGroup) false) = some r →
      exec (.tableWriteGroup tag a es) s = .next (answered 0x02 tag (taken 0x02 tag s) r .none)) ∧
    (∀ es : List CircuitEntry,
      firstRefusal (writeChecks a es.length 96 s.port.configOpen (es.any badCircuit) false) = some r →
      exec (.tableWriteCircuit tag a es) s = .next (answered 0x02 tag (taken 0x02 tag s) r .none)) ∧
    (∀ es : List Nat,
      firstRefusal (writeChecks a es.length 1024 s.port.configOpen (es.any badConflict) false) = some r →
      exec (.tableWriteConflictMatrix tag a es) s = .next (answered 0x02 tag (taken 0x02 tag s) r .none)) ∧
    (∀ es : List GroupSet,
      firstRefusal (writeChecks a es.length 16 s.port.configOpen false false) = some r →
      exec (.tableWriteStage tag a es) s = .next (answered 0x02 tag (taken 0x02 tag s) r .none)) ∧
    (∀ es : List InputEntry,
      firstRefusal (writeChecks a es.length 64 s.port.configOpen (es.any badInput) false) = some r →
      exec (.tableWriteInputMap tag a es) s = .next (answered 0x02 tag (taken 0x02 tag s) r .none)) ∧
    (∀ es : List PatternEntry,
      firstRefusal (writeChecks a es.length 4 s.port.configOpen (es.any badPattern) false) = some r →
      exec (.tableWritePattern tag a es) s = .next (answered 0x02 tag (taken 0x02 tag s) r .none)) ∧
    (∀ es : List StartUp,
      firstRefusal (writeChecks a es.length 1 s.port.configOpen (es.any badStartUp) false) = some r →
      exec (.tableWriteStartUpRecord tag a es) s = .next (answered 0x02 tag (taken 0x02 tag s) r .none)) ∧
    (∀ (p : Nat) (k : Fin 8) (es : List (List Byte)), ofNum 8 p = some k →
      firstRefusal (writeChecks a (if es.all (fun bs => decide (bs.length = 11)) then es.length else 0) 17
        (!inUse (taken 0x02 tag s) k) (((addressed a).zip es).any fun w => badPlanEntry w.1 w.2) false) = some r →
      exec (.tableWritePlan tag p a es) s = .next (answered 0x02 tag (taken 0x02 tag s) r .none)) ∧
    (∀ es : List Nat,
      firstRefusal (writeChecks a es.length 21 true (es.any badReaction) false) = some r →
      exec (.tableWriteReaction tag a es) s = .next (answered 0x02 tag (taken 0x02 tag s) r .none)) ∧
    (∀ es : List ProvingParams,
      firstRefusal (writeChecks a es.length 1 true false false) = some r →
      exec (.tableWriteProvingParameters tag a es) s = .next (answered 0x02 tag (taken 0x02 tag s) r .none)) ∧
    (∀ es : List CableParams,
      firstRefusal (writeChecks a es.length 1 true (es.any badCable) false) = some r →
      exec (.tableWriteCableParameters tag a es) s = .next (answered 0x02 tag (taken 0x02 tag s) r .none)) ∧
    (∀ es : List RefEntry,
      firstRefusal (writeChecks a es.length 96 true (es.any badRef) false) = some r →
      exec (.tableWriteReference tag a es) s = .next (answered 0x02 tag (taken 0x02 tag s) r .none)) ∧
    (∀ (es : List SchedRaw) (t : Tables), t = ((addressed a).zip es).foldl writeSchedEntry s.tables →
      firstRefusal (writeChecks a (if ((addressed a).zip es).all schedForm then es.length else 0) 49 true
        (es.any badSched) (schedClash t.sched.toList)) = some r →
      exec (.tableWriteSchedule tag a es) s = .next (answered 0x02 tag (taken 0x02 tag s) r .none)) ∧
    (∀ id n range : Nat, tableRange id = some range → isLive id = true → formOk a = true → n = a.count →
      (∀ i ∈ addressed a, i < range) →
      exec (.tableWriteLive tag id a n) s = .next (answered 0x02 tag (taken 0x02 tag s) .inUse .none)) ∧
    (∀ id n : Nat, tableRange id = none → formOk a = true → n = a.count →
      exec (.tableWriteLive tag id a n) s = .next (answered 0x02 tag (taken 0x02 tag s) .badIndex .none))) ∧
  (∀ (α : Type) (n : Nat) (t : Vector α n) (ws : List (Nat × α)),
    (∀ (i : Fin n) (x : α), (writeAt t (ws ++ [(i.val, x)]))[i] = x ∧
      ∀ j : Fin n, j ≠ i → (writeAt t (ws ++ [(i.val, x)]))[j] = (writeAt t ws)[j]) ∧
    ∀ j : Fin n, (∀ w ∈ ws, w.1 ≠ j.val) → (writeAt t ws)[j] = t[j]) ∧
  (∀ e : GroupEntry,
    (badGroup e = true ↔
      2 < e.type ∨
      (e.type = 1 ∧ (e.amber < 30 ∨ 60 < e.amber ∨ (e.redAmber ≠ 0 ∧ (e.redAmber < 10 ∨ 30 < e.redAmber)))) ∨
      (e.type = 2 ∧ (e.clearance < 30 ∨ 300 < e.clearance ∨ e.pattern < 1 ∨ 3 < e.pattern)) ∨
      ((e.type = 1 ∨ e.type = 2) ∧ (e.safetyMin < 40 ∨ 200 < e.safetyMin ∨ 100 < e.minRed))) ∧
    clampGroup e =
      if e.type = 0 then e
      else { e with redSets := if e.redSets < 1 then 1 else if 4 < e.redSets then 4 else e.redSets }) ∧
  (∀ e : CircuitEntry, badCircuit e = true ↔ e.group ≠ 0 ∧
    (32 < e.group ∨ e.fiu = 0 ∨ 12 < e.fiu ∨ e.terminal = 0 ∨ 8 < e.terminal ∨ 2 < e.role ∨
      (e.role = 0 ∧ (e.redSet = 0 ∨ 4 < e.redSet)) ∨ 2 < e.loadClass ∨ 1 < e.proving ∨ 1 < e.cableTest ∨
      1 < e.bleed)) ∧
  (∀ e : CircuitEntry, clampCircuit e =
    if e.group = 0 then e else { e with k := if e.k < 1 then 1 else if 4 < e.k then 4 else e.k }) ∧
  (∀ e : FiuEntry, badFiu e = true ↔ 1 < e.present ∨ (e.present = 1 ∧ 2 < e.order)) ∧
  (∀ e : InputEntry,
    (badInput e = true ↔ e.fiu ≠ 0 ∧ (12 < e.fiu ∨ e.input = 0 ∨ 8 < e.input ∨ 2 < e.kind)) ∧
    clampInput e = if e.fiu = 0 then e else { e with
      debounce := if e.debounce < 1 then 1 else if 15 < e.debounce then 15 else e.debounce
      stuckLimit := if e.stuckLimit = 0 then 0 else if e.stuckLimit < 10 then 10
        else if 3600 < e.stuckLimit then 3600 else e.stuckLimit }) ∧
  (∀ n : Nat, badConflict n = true ↔ 250 < n ∧ n ≠ 255) ∧
  (∀ e : PatternEntry, badPattern e = true ↔ e.steps < 2 ∨ 8 < e.steps ∨
    ∃ k : Fin 8, k.val < e.steps ∧ (1 < e.slots[k].level ∨ e.slots[k].duration = 0 ∨ 50 < e.slots[k].duration)) ∧
  (∀ e : StartUp, badStartUp e = true ↔ 1 < e.mains ∨ 300 < e.startFlash ∨ e.startRed < 30 ∨ 300 < e.startRed ∨
    e.provingLimit < 50 ∨ 600 < e.provingLimit ∨ e.restart = 0 ∨ 100 < e.restart ∨ e.silence < 10 ∨ 600 < e.silence ∨
    3 < e.pattern ∨ e.fallback = 0 ∨ 8 < e.fallback) ∧
  (∀ (i : Nat) (a b c d e f g h k l m : Byte),
    (badPlanEntry 0 [a, b, c, d, e, f, g, h, k, l, m] = true ↔ 16 < e.toNat) ∧
    (i ≠ 0 → (badPlanEntry i [a, b, c, d, e, f, g, h, k, l, m] = true ↔
      a.toNat = 0 ∨ 16 < a.toNat ∨ 1200 < 256 * b.toNat + c.toNat ∨ 1200 < 256 * d.toNat + e.toNat ∨
      100 < f.toNat ∨ 1 < g.toNat ∨ 1 < h.toNat ∨ 1 < k.toNat))) ∧
  (∀ p : Nat, badSched (.header p) = true ↔ 8 < p) ∧
  (∀ e : SchedEntry, badSched (.entry e) = true ↔ (∃ d : Nat, d < 7 ∧ mem e.days d = true) ∧
    (23 < e.hours ∨ 59 < e.minutes ∨ 4 < e.action ∨ (e.action = 0 ∧ (e.plan = 0 ∨ 8 < e.plan)))) ∧
  (∀ t : Vector SchedEntry 48, schedClash t.toList = true ↔ ∃ i j : Fin 48, i < j ∧
    (t[i].action ≤ 2 ↔ t[j].action ≤ 2) ∧ t[i].hours = t[j].hours ∧ t[i].minutes = t[j].minutes ∧
    ∃ d : Nat, d < 7 ∧ mem t[i].days d = true ∧ mem t[j].days d = true) ∧
  ∀ e : RefEntry, badRef e = true ↔ ∃ p : RefPart, (p = e.bright ∨ p = e.dim) ∧
    (1 < p.held ∨ (p.held = 1 ∧ (p.iref < 32 ∨ 32736 < p.iref ∨ p.vref < 50 ∨ 255 < p.vref)))

/-- With no request in service, configuration open, a good form, as many entries as counted, every index in range and
no field refused: TABLE_WRITE of the FIU, group, circuit, stage and input tables writes the entries at the indices
addressed, and of the conflict matrix leaves at each position addressed the last value the request writes there (255
as NONE) and every other position as it was. A group's red sets, a circuit's k and an input's debounce and stuck-on
limit are stored clamped, and the reply is CLAMPED when one was clamped and DONE otherwise. A write of the pattern
table writes the entries, restarts at step 1 each run of a pattern written and leaves every other run. A write of the
start-up record stores its last entry, restarts the junction flash run in the pattern written (also where that is the
one before, the model's reading, log entry 17), sets the period counts and the window count to 0 when it changes the
mains nominal, and forms the schedule mode, plan and dim and the effective values afresh. Beyond that the clock, the
proving, cable and input records, the map, the field bus but for its report queue, the identity slots and the open
flag stay, and in a lawful state so do the latched demands, the clearance runs, the mode and its reason, and every
group but for the inhibit set; the schedule mode and the governing plan follow the results that have changed. (R2, R4,
R6, R19, R42, R48, R175, R91, R76, R92, R94, R103.) -/
def Obligations.ConfigTablesWritten : Prop :=
  ∀ (s : State) (tag : Byte) (a : TableArgs), s.port.inService = none → s.port.configOpen = true → formOk a = true →
    (∀ es : List FiuEntry, es.length = a.count → (∀ i ∈ addressed a, i < 12) → (∀ e ∈ es, badFiu e = false) →
      exec (.tableWriteFiu tag a es) s = .next (answered 0x02 tag
        { taken 0x02 tag s with
          tables := { s.tables with fiu := writeAt s.tables.fiu ((addressed a).zip es) } } .done .none)) ∧
    (∀ es : List GroupEntry, es.length = a.count → (∀ i ∈ addressed a, i < 32) → (∀ e ∈ es, badGroup e = false) →
      exec (.tableWriteGroup tag a es) s = .next (answered 0x02 tag
        { taken 0x02 tag s with
          tables := { s.tables with group := writeAt s.tables.group ((addressed a).zip (es.map clampGroup)) } }
        (if ∃ e ∈ es, clampGroup e ≠ e then .clamped else .done) .none)) ∧
    (∀ es : List CircuitEntry, es.length = a.count → (∀ i ∈ addressed a, i < 96) → (∀ e ∈ es, badCircuit e = false) →
      exec (.tableWriteCircuit tag a es) s = .next (answered 0x02 tag
        { taken 0x02 tag s with
          tables := { s.tables with circuit := writeAt s.tables.circuit ((addressed a).zip (es.map clampCircuit)) } }
        (if ∃ e ∈ es, clampCircuit e ≠ e then .clamped else .done) .none)) ∧
    (∀ es : List Nat, es.length = a.count → (∀ i ∈ addressed a, i < 1024) → (∀ e ∈ es, badConflict e = false) →
      ∃ m : Vector (Vector (Option Nat) 32) 32,
        exec (.tableWriteConflictMatrix tag a es) s = .next (answered 0x02 tag
          { taken 0x02 tag s with tables := { s.tables with matrix := m } } .done .none) ∧
        (∀ i j : Fin 32, 32 * i.val + j.val ∉ addressed a → m[i][j] = s.tables.matrix[i][j]) ∧
        ∀ (i j : Fin 32) (n : Nat) (before after : List (Nat × Nat)),
          (addressed a).zip es = before ++ (32 * i.val + j.val, n) :: after →
          (∀ w ∈ after, w.1 ≠ 32 * i.val + j.val) → m[i][j] = if n = 255 then none else some n) ∧
    (∀ es : List GroupSet, es.length = a.count → (∀ i ∈ addressed a, i < 16) →
      exec (.tableWriteStage tag a es) s = .next (answered 0x02 tag
        { taken 0x02 tag s with
          tables := { s.tables with stage := writeAt s.tables.stage ((addressed a).zip es) } } .done .none)) ∧
    (∀ es : List InputEntry, es.length = a.count → (∀ i ∈ addressed a, i < 64) → (∀ e ∈ es, badInput e = false) →
      exec (.tableWriteInputMap tag a es) s = .next (answered 0x02 tag
        { taken 0x02 tag s with
          tables := { s.tables with input := writeAt s.tables.input ((addressed a).zip (es.map clampInput)) } }
        (if ∃ e ∈ es, clampInput e ≠ e then .clamped else .done) .none)) ∧
    (∀ es : List PatternEntry, es.length = a.count → (∀ i ∈ addressed a, i < 4) → (∀ e ∈ es, badPattern e = false) →
      ∃ u : State, exec (.tableWritePattern tag a es) s = .next (answered 0x02 tag u .done .none) ∧
        u = { taken 0x02 tag s with
          tables := { s.tables with pattern := writeAt s.tables.pattern ((addressed a).zip es) }
          junctionRun := u.junctionRun, clearRuns := u.clearRuns } ∧
        u.junctionRun =
          (if (taken 0x02 tag s).junctionRun.pattern ∈ addressed a then
            { pattern := (taken 0x02 tag s).junctionRun.pattern, step := 0, time := 0, fresh := !s.inPulse }
           else (taken 0x02 tag s).junctionRun) ∧
        ∀ g : Fin 32, u.clearRuns[g] = (taken 0x02 tag s).clearRuns[g].map fun r =>
          if r.pattern ∈ addressed a then { pattern := r.pattern, step := 0, time := 0, fresh := !s.inPulse } else r) ∧
    (∀ (es : List StartUp) (e : StartUp), es.length = a.count → es.getLast? = some e → (∀ i ∈ addressed a, i < 1) →
      (∀ x ∈ es, badStartUp x = false) →
      ∃ t : State, exec (.tableWriteStartUpRecord tag a es) s = .next t ∧ Replied t 0x02 tag .done .none ∧
        t.tables = { s.tables with startUp := e } ∧
        t.mains = (if e.mains = s.tables.startUp.mains then s.mains
          else { s.mains with outOfBand := 0, inBand := 0, windowCount := 0 }) ∧
        t.junctionRun = { pattern := e.pattern, step := 0, time := 0, fresh := !s.inPulse } ∧
        t.sched = { s.sched with
          mode := schedModeNow t, plan := schedPlanNow t, dim := schedDimNow t
          effPlan := s.sched.planOverride.getD (schedPlanNow t), effDim := s.sched.dimOverride.getD (schedDimNow t) } ∧
        t.clock = s.clock ∧ t.prov = s.prov ∧ t.cable = s.cable ∧ t.inputs = s.inputs ∧ t.map = s.map ∧
        t.bus = { s.bus with queue := t.bus.queue } ∧ t.port.identity = s.port.identity ∧ t.port.configOpen = true ∧
        (Lawful s →
          t.latched = s.latched ∧ t.clearRuns = s.clearRuns ∧
          t.jm = { s.jm with
            silence := 0, silenceFresh := !s.inPulse, silent := false
            schedMode := if t.sched.mode = s.sched.mode then s.jm.schedMode else t.sched.mode } ∧
          t.eng = { s.eng with
            governing := if t.sched.effPlan = s.sched.effPlan then s.eng.governing else t.sched.effPlan
            invalidRaised := t.eng.invalidRaised } ∧
          ∀ g : Fin 32, { t.groups[g] with inhibited := s.groups[g].inhibited } = s.groups[g]))

/-- With no request in service and the request good: a write of a plan that is not in use writes its entries, sets the
plan LOADED with an empty error list and changes no other plan; a write of the schedule writes the entries in list
order and evaluates the schedule, the header at index 0 setting the default plan and the entry at index i the schedule
entry i alone, with all else of the tables as it was; a write of the reaction table stores each reaction, raised to
its kind's floor, and forms afresh the reaction applied of every record held of a kind written (an INHIBIT on a
subject of no group as ALARM), leaving the rest of each record, the other records and the overflow latch, after which
the inhibit demand is owed afresh (R167); a write of the proving or the cable parameters stores the last record
clamped; and a write of the reference table writes its entries, aborts a LEARNING record and drops the candidate of
each circuit written, the red status and the last windows staying as they were. The reply is CLAMPED when a value was
clamped and DONE otherwise. The ranges to whose nearer end each proving and each cable parameter is set are those of
their tables, and only a threshold mode above 2 is refused; a reaction code above 4 is refused, and a reaction is
stored as the code says, but never below the floor: DARK for UNEXPECTED_GREEN, INHIBIT for FIU_LOST and FIU_MISMATCH,
ALARM for RED_LOST, CROSS_FEED, OVERCURRENT, FIU_OVERTEMP and START_PROVING_TIMEOUT. A plan header entry gives cycle,
offset and steps and a step entry its step, numbers of two bytes with the most significant first and a flag byte of 1
for yes (the model's reading, log entry 13). (R43, R44, R102, R160, R124, R145, R129, R140, R165, R167.) -/
def Obligations.OpenTablesWritten : Prop :=
  (∀ (s : State) (tag : Byte) (a : TableArgs), s.port.inService = none → formOk a = true →
    (∀ (p : Nat) (k : Fin 8) (es : List (List Byte)), ofNum 8 p = some k → inUse (taken 0x02 tag s) k = false →
      es.length = a.count → (∀ bs ∈ es, bs.length = 11) → (∀ i ∈ addressed a, i < 17) →
      (∀ w ∈ (addressed a).zip es, badPlanEntry w.1 w.2 = false) →
      exec (.tableWritePlan tag p a es) s = .next (answered 0x02 tag
        { taken 0x02 tag s with
          tables := { s.tables with
            plan := put s.tables.plan k
              { ((addressed a).zip es).foldl writePlanEntry s.tables.plan[k] with state := .loaded, errors := [] } } }
        .done .none)) ∧
    (∀ (es : List SchedRaw) (t : Tables), t = ((addressed a).zip es).foldl writeSchedEntry s.tables →
      es.length = a.count → (∀ w ∈ (addressed a).zip es, schedForm w = true) → (∀ i ∈ addressed a, i < 49) →
      (∀ e ∈ es, badSched e = false) → schedClash t.sched.toList = false →
      exec (.tableWriteSchedule tag a es) s =
        .next (answered 0x02 tag (evaluate { taken 0x02 tag s with tables := t }) .done .none)) ∧
    (∀ es : List Nat, es.length = a.count → (∀ i ∈ addressed a, i < 21) → (∀ e ∈ es, badReaction e = false) →
      ∃ u : State, exec (.tableWriteReaction tag a es) s = .next (answered 0x02 tag u
          (if ∃ w ∈ (addressed a).zip es, Reaction.ofCode w.2 ≠ some (reactionStored w.1 w.2) then .clamped else .done)
          .none) ∧
        u = { taken 0x02 tag s with tables := u.tables, coll := u.coll } ∧
        u.tables = { s.tables with
          reaction := writeAt s.tables.reaction (((addressed a).zip es).map fun w => (w.1, reactionStored w.1 w.2)) } ∧
        u.coll = { (taken 0x02 tag s).coll with slots := u.coll.slots, demandStands := false } ∧
        ∀ i : Fin 64, u.coll.slots[i] = (taken 0x02 tag s).coll.slots[i].map fun r =>
          if r.kind.index.val ∈ addressed a then { r with
            reaction := if u.tables.reaction[r.kind.index] = .inhibit ∧
                (r.kind.subjectType = .nothing ∨ r.kind.subjectType = .input ∨ r.kind.subjectType = .plan) then .alarm
              else u.tables.reaction[r.kind.index] }
          else r) ∧
    (∀ (es : List ProvingParams) (e : ProvingParams), es.length = a.count → es.getLast? = some e →
      (∀ i ∈ addressed a, i < 1) →
      exec (.tableWriteProvingParameters tag a es) s = .next (answered 0x02 tag
        { taken 0x02 tag s with tables := { s.tables with proving := clampProving e } }
        (if ∃ x ∈ es, clampProving x ≠ x then .clamped else .done) .none)) ∧
    (∀ (es : List CableParams) (e : CableParams), es.length = a.count → es.getLast? = some e →
      (∀ i ∈ addressed a, i < 1) → (∀ x ∈ es, badCable x = false) →
      exec (.tableWriteCableParameters tag a es) s = .next (answered 0x02 tag
        { taken 0x02 tag s with tables := { s.tables with cable := clampCable e } }
        (if ∃ x ∈ es, clampCable x ≠ x then .clamped else .done) .none)) ∧
    (∀ es : List RefEntry, es.length = a.count → (∀ i ∈ addressed a, i < 96) → (∀ e ∈ es, badRef e = false) →
      ∃ u : State, exec (.tableWriteReference tag a es) s = .next (answered 0x02 tag u .done .none) ∧
        u = { taken 0x02 tag s with
          tables := { s.tables with reference := writeAt s.tables.reference ((addressed a).zip es) }, prov := u.prov } ∧
        u.prov = { s.prov with circuits := u.prov.circuits, learn := u.prov.learn } ∧
        (∀ c : Fin 96, c.val ∈ addressed a →
          u.prov.circuits[c] = { s.prov.circuits[c] with cand := none, run := 0 } ∧
          u.prov.learn[c] = (if s.prov.learn[c].state = .learning then LearnRec.aborted s.prov.learn[c]
            else s.prov.learn[c])) ∧
        ∀ c : Fin 96, c.val ∉ addressed a →
          u.prov.circuits[c] = s.prov.circuits[c] ∧ u.prov.learn[c] = s.prov.learn[c])) ∧
  (∀ near : Nat → Nat → Nat → Nat,
    (∀ lo hi n : Nat, near lo hi n = if n < lo then lo else if hi < n then hi else n) →
    (∀ e : ProvingParams, clampProving e =
      { tLo := near 50 300 e.tLo, tHi := near 50 500 e.tHi, failConfirm := near 2 50 e.failConfirm,
        recoverConfirm := near 5 200 e.recoverConfirm, presence := near 16 255 e.presence,
        spread := near 10 200 e.spread }) ∧
    ∀ e : CableParams, clampCable e =
      { openThreshold := near 128 255 e.openThreshold, lowThreshold := near 0 127 e.lowThreshold,
        testInterval := near 100 6000 e.testInterval, testConfirm := near 1 10 e.testConfirm,
        vFix := near 10 120 e.vFix, ratio := near 100 500 e.ratio, mode := e.mode,
        offCurrent := near 1 255 e.offCurrent, crossConfirm := near 1 20 e.crossConfirm,
        retryDelay := near 5 100 e.retryDelay, maxRetries := near 1 10 e.maxRetries,
        tripClear := near 10 600 e.tripClear, leakThreshold := near 10 255 e.leakThreshold,
        leakConfirm := near 2 50 e.leakConfirm, leakClear := near 10 200 e.leakClear,
        greenConfirm := near 1 4 e.greenConfirm, missLimit := near 2 10 e.missLimit }) ∧
  (∀ e : CableParams, badCable e = true ↔ 2 < e.mode) ∧ (∀ n : Nat, badReaction n = true ↔ 4 < n) ∧
  (∀ (i : Fin 21) (n : Nat) (r : Reaction), Reaction.ofCode n = some r → reactionStored i.val n =
    (match i.val + 1 with
      | 6 => .dark
      | 12 | 13 => if n < 2 then .inhibit else r
      | 5 | 7 | 10 | 14 | 19 => if n = 0 then .alarm else r
      | _ => r)) ∧
  (∀ (t : Tables) (p : Nat), writeSchedEntry t (0, .header p) = { t with schedDefault := p }) ∧
  (∀ (t : Tables) (i : Fin 48) (e : SchedEntry),
    writeSchedEntry t (i.val + 1, .entry e) = { t with sched := put t.sched i e }) ∧
  (∀ (i p : Nat) (e : SchedEntry), (schedForm (i, .header p) = true ↔ i = 0) ∧ (schedForm (i, .entry e) = true ↔ i ≠ 0)) ∧
  ∀ (p : Plan) (a b c d e f g h k l m : Byte),
    writePlanEntry p (0, [a, b, c, d, e, f, g, h, k, l, m]) =
      { p with cycle := 256 * a.toNat + b.toNat, offset := 256 * c.toNat + d.toNat, steps := e.toNat } ∧
    ∀ i : Fin 16, writePlanEntry p (i.val + 1, [a, b, c, d, e, f, g, h, k, l, m]) =
      { p with
        entries := put p.entries i
          { stage := a.toNat, minGreen := 256 * b.toNat + c.toNat, maxGreen := 256 * d.toNat + e.toNat,
            unitExt := f.toNat, demandDep := decide (g = 1), recalled := decide (h = 1), holdFlag := decide (k = 1),
            forceOff := 256 * l.toNat + m.toNat } }

/-- With no request in service and the mode DARK, CONFIG_OPEN answers DONE: configuration is open, the reason is
CONFIG and started is no, the circuit map is withdrawn, every unit is UNUSED with its type and serial kept, every plan
not EMPTY is LOADED, every input is INACTIVE and no demand is latched, every verdict is UNKNOWN, no learn record is
LEARNING, every cable record is at its POR value and a PASS waiting or listened for is ABANDONED; every fault that the
field bus controller, lamp proving, cable supervision or the inputs hold raised is cleared at the table (an
unacknowledged record becomes CLEARED_UNACK with the present stamp, an acknowledged one is removed), and every other
record and the overflow latch stay; the inhibit set is then those of the groups in use at the last accepted START (log
entry 19) to which the INHIBIT reactions left in force apply in the map withdrawn, or, with no map to withdraw and no
change of the table since an earlier CONFIG_OPEN withdrew it, the inhibit demand as it stood, and it stands till the
next change of the table (the model's choice between R41 and R165, log entry 33); the mode, the other tables, the
clock and the mains supervisor are as they were. In any other mode it answers BAD_STATE and changes nothing. That the
clock and the mains supervisor stand as they were is the model's reading of R106 (log entry 18), and that the error
lists are emptied with the plans' state its choice (log entry 34). The demanded mode is left to the hand-over of the
table so changed (log entry 58). (R177, R93, R165, R41, R44, R49, R106, R119, R122, R144, R158, R163.) -/
def Obligations.ConfigOpens : Prop :=
  ∀ (s : State) (tag : Byte), s.port.inService = none →
    ((taken 0x01 tag s).jm.mode ≠ .dark →
      exec (.configOpen tag) s = .next (answered 0x01 tag (taken 0x01 tag s) .badState .none)) ∧
    ((taken 0x01 tag s).jm.mode = .dark →
      ∃ u : State, exec (.configOpen tag) s = .next (answered 0x01 tag u .done .none) ∧
        u.port.configOpen = true ∧ u.jm = { (taken 0x01 tag s).jm with reason := .config, started := false } ∧
        u.map = none ∧ u.latched = 0 ∧ u.groups = (taken 0x01 tag s).groups ∧ u.clock = s.clock ∧ u.mains = s.mains ∧
        u.sched = s.sched ∧ u.tables = { s.tables with plan := u.tables.plan } ∧
        (∀ p : Fin 8, u.tables.plan[p] =
          if s.tables.plan[p].state = .empty then s.tables.plan[p]
          else { s.tables.plan[p] with state := .loaded, errors := [] }) ∧
        (∀ k : Fin 12, u.bus.units[k] =
          { State.reset.bus.units[k] with typeCode := s.bus.units[k].typeCode, serial := s.bus.units[k].serial }) ∧
        (∀ e : Fin 64, u.inputs[e] = State.reset.inputs[e]) ∧
        u.prov.circuits = State.reset.prov.circuits ∧ u.prov.red = State.reset.prov.red ∧
        (∀ c : Fin 96, u.prov.learn[c].state = .idle) ∧ u.cable = State.reset.cable ∧
        u.bus.slot = (match s.bus.slot with
          | .waiting m _ => .answered m .abandoned []
          | .listening m => .answered m .abandoned []
          | x => x) ∧
        u.coll = { (taken 0x01 tag s).coll with
          slots := u.coll.slots, inhibitDemand := u.coll.inhibitDemand, demandStands := true } ∧
        (s.map ≠ none ∨ s.coll.demandStands = false ∨ u.coll.slots ≠ (taken 0x01 tag s).coll.slots →
          ∀ g : Fin 32, mem u.coll.inhibitDemand g = true ↔ Inhibiting s u.coll.slots g) ∧
        (s.map = none → s.coll.demandStands = true → u.coll.slots = (taken 0x01 tag s).coll.slots →
          u.coll.inhibitDemand = (taken 0x01 tag s).coll.inhibitDemand) ∧
        u.acting = s.acting ∧
        (∀ g : Fin 32, (answered 0x01 tag u .done .none).groups[g].inhibited =
          (mem s.acting g && mem u.coll.inhibitDemand g)) ∧
        (OneRecordEach s → ∀ i : Fin 64,
          ((taken 0x01 tag s).coll.slots[i] = none → u.coll.slots[i] = none) ∧
          ∀ r : FaultRec, (taken 0x01 tag s).coll.slots[i] = some r →
            (HeldRaised s r.kind r.subject → u.coll.slots[i] = (match r.state with
              | .activeUnack => some { r with state := .clearedUnack, last := stamp s }
              | .activeAck => none
              | .clearedUnack => some r)) ∧
            (¬ HeldRaised s r.kind r.subject → u.coll.slots[i] = some r)))

/-- With no request in service ENGINE_RESTART answers DONE: the mode is DARK with reason RESTART and started no, no
departure waits, the engine is IDLE, every group in use has target DARK and aspect DARK, its time in aspect restarted
where that changes, its time since GREEN ended restarted where it was GREEN and kept otherwise, the inhibit demand is
empty, every unit marked present is EXPECTED and every other UNUSED, every verdict is UNKNOWN, no learn record is
LEARNING, no circuit is forced off, the forward set and the report queue are empty and the pass-through slot is EMPTY,
the overflow latch is clear and every record the fault table holds is one of a mains fault held raised, and each such
fault has its record, ACTIVE_UNACK with count 1; the latched demands are clear and the inputs at their values after
reset; and the tables, the circuit map, the groups that act on the monitor, the clock, the schedule record with its
overrides, the mains supervisor, the identity and the configuration-open flag are kept. (R179, R17, R40, R93, R106,
R122, R144, R158, R168, R73, R21.) -/
def Obligations.EngineRestarts : Prop :=
  ∀ (s : State) (tag : Byte), s.port.inService = none →
    ∃ u : State, exec (.engineRestart tag) s = .next (answered 0x20 tag u .done .none) ∧
      u.jm.mode = .dark ∧ u.jm.reason = .restart ∧ u.jm.started = false ∧ u.jm.departure = none ∧
      u.jm.timer = 0 ∧ u.jm.silence = 0 ∧ u.jm.provingTimeout = false ∧ u.jm.silent = false ∧
      u.jm.schedMode = s.jm.schedMode ∧ u.eng.sub = .idle ∧ u.eng.running = none ∧ u.eng.pendingPlan = none ∧
      (∀ g : Fin 32, live s g = true → u.groups[g].target = .dark ∧ u.groups[g].aspect = .dark ∧
        Retimed s.inPulse s.groups[g] u.groups[g]) ∧
      u.coll.inhibitDemand = 0 ∧
      (∀ g : Fin 32, marksOf u.groups[g] = ⟨0, 0, false, false⟩) ∧
      (∀ k : Fin 12, u.bus.units[k].state = if present s k = true then .expected else .unused) ∧
      (∀ c : Fin 96, u.prov.circuits[c].verdict = .unknown ∧ u.prov.learn[c].state = .idle ∧ forcedOff u c = false) ∧
      u.latched = 0 ∧ (∀ e : Fin 64, u.inputs[e] = State.reset.inputs[e]) ∧
      (s.mains.freqRaised = true → ∃ (i : Fin 64) (r : FaultRec), u.coll.slots[i] = some r ∧
        r.kind = .mainsFrequency ∧ r.subject = 0 ∧ r.state = .activeUnack ∧ r.count = 1 ∧
        r.first = stamp s ∧ r.last = stamp s) ∧
      (s.mains.interRaised = true → ∃ (i : Fin 64) (r : FaultRec), u.coll.slots[i] = some r ∧
        r.kind = .mainsInterruption ∧ r.subject = 0 ∧ r.state = .activeUnack ∧ r.count = 1 ∧
        r.first = stamp s ∧ r.last = stamp s) ∧
      u.bus.forward = 0 ∧ u.bus.queue = [] ∧ u.bus.slot = .empty ∧ u.coll.overflow = none ∧
      (∀ (i : Fin 64) (r : FaultRec), u.coll.slots[i] = some r →
        (r.kind = .mainsFrequency ∧ s.mains.freqRaised = true) ∨
        (r.kind = .mainsInterruption ∧ s.mains.interRaised = true)) ∧
      u.tables = s.tables ∧ u.map = s.map ∧ u.acting = s.acting ∧ u.clock = s.clock ∧ u.sched = s.sched ∧ u.mains = s.mains ∧
      u.port.identity = s.port.identity ∧ u.port.configOpen = s.port.configOpen

/-- With no request in service, mode DARK, configuration open or reason RESTART, and an identity programmed: when the
structural checks find errors, START answers INVALID with the structural entries first and then the first error of
each INVALID plan, and changes only the plans it has validated and their faults; when they find none it answers DONE,
configuration is closed, started is yes, the circuit map is built from the tables, the groups in use now act on the
monitor, every unit marked present is EXPECTED and every other UNUSED, a roll call and the cable tests are due, the
schedule is evaluated and its mode and governing plan named whether or not they have changed, and START_FLASH is
entered with reason CONTROLLER through the rule of entry. The clock, the mains supervisor, the identity, the
overrides, the inputs and the proving records are kept, and so is the rest of each unit and cable record;
UNEXPECTED_GREEN is marked not raised for a group UNUSED, its seen mark, run and quiet count standing (the model's
reading, log entry 19); and in a lawful state in DARK the engine, the demands, the flash runs and the groups stand as
they were at the entry, but for the inhibit set. In another mode, or with configuration closed and another reason, the
answer is BAD_STATE, and with every slot blank BLANK_IDENTITY. That the clear of UNEXPECTED_GREEN comes before the
entry is the model's choice (log entry 77). (R77, R10, R15, R180, R107, R146, R103, R41.) -/
def Obligations.StartTaken : Prop :=
  ∀ (s : State) (tag : Byte), s.port.inService = none →
    (¬ ((taken 0x05 tag s).jm.mode = .dark ∧
        (s.port.configOpen = true ∨ (taken 0x05 tag s).jm.reason = .restart)) →
      exec (.start tag) s = .next (answered 0x05 tag (taken 0x05 tag s) .badState .none)) ∧
    ((taken 0x05 tag s).jm.mode = .dark → s.port.configOpen = true ∨ (taken 0x05 tag s).jm.reason = .restart →
      (effSlot s = 0 →
        exec (.start tag) s = .next (answered 0x05 tag (taken 0x05 tag s) .blankIdentity .none)) ∧
      (effSlot s ≠ 0 → structuralErrors s ≠ [] →
        ∃ u : State, exec (.start tag) s =
            .next (answered 0x05 tag u .invalid (.errors (structuralErrors s ++ planEntries (validateAll s)))) ∧
          u.tables = (validateAll s).tables ∧ u = { taken 0x05 tag s with
            tables := u.tables, coll := u.coll, eng := { (taken 0x05 tag s).eng with
              invalidRaised := u.eng.invalidRaised } }) ∧
      (effSlot s ≠ 0 → structuralErrors s = [] →
        ∃ v : State, exec (.start tag) s =
            .next (answered 0x05 tag (enterMode v .startFlash .controller) .done
              (.errors (planEntries (validateAll s)))) ∧
          v.tables = (validateAll s).tables ∧ v.port.configOpen = false ∧ v.jm.started = true ∧
          v.map = some (buildMap s) ∧ v.bus.sinceRoll = 60 ∧ (∀ g : Fin 32, mem v.acting g = live s g) ∧
          (∀ k : Fin 12, v.bus.units[k] = { s.bus.units[k] with
            state := if present s k = true then .expected else .unused }) ∧
          v.bus = { s.bus with units := v.bus.units, sinceRoll := 60, round := State.reset.bus.round } ∧
          (∀ c : Fin 96, v.cable.circuits[c] = { s.cable.circuits[c] with sinceTest := 65535 }) ∧
          v.cable.leak = s.cable.leak ∧ v.prov = s.prov ∧ v.inputs = s.inputs ∧ v.clock = s.clock ∧ v.mains = s.mains ∧
          v.port.identity = s.port.identity ∧
          v.sched = { s.sched with
            mode := schedModeNow v, plan := schedPlanNow v, dim := schedDimNow v
            effPlan := s.sched.planOverride.getD (schedPlanNow v)
            effDim := s.sched.dimOverride.getD (schedDimNow v) } ∧
          v.jm.schedMode = v.sched.mode ∧ v.eng.governing = v.sched.effPlan ∧
          (∀ g : Fin 32, marksOf v.groups[g] =
            if live s g = true then marksOf s.groups[g] else { marksOf s.groups[g] with raised := false }) ∧
          (Lawful s → s.jm.mode = .dark →
            (s.jm.reason = .reset ∨ s.jm.reason = .restart ∨ s.jm.reason = .config) →
            v.jm = { s.jm with
              silence := 0, silenceFresh := !s.inPulse, silent := false, started := true, schedMode := v.sched.mode } ∧
            v.eng = { s.eng with governing := v.sched.effPlan, invalidRaised := v.eng.invalidRaised } ∧
            v.latched = s.latched ∧ v.clearRuns = s.clearRuns ∧ v.junctionRun = s.junctionRun ∧
            ∀ g : Fin 32, { v.groups[g] with
              inhibited := s.groups[g].inhibited, raised := s.groups[g].raised } = s.groups[g])))

/-- Entering DARK, START_FLASH, START_RED or FLASH with no demand for a more severe mode (START_FLASH with a start
flash time above 0): mode and reason are as named, no departure waits, the engine is IDLE, and every group in use has
the mode's target and aspect: DARK gives DARK; FLASH and START_FLASH a vehicle FLASH_AMBER and a pedestrian DARK;
START_RED gives STOP, with RED for a group DARK or FLASH_AMBER and other aspects kept; a change of aspect restarts the
time in aspect, a cut from GREEN the time since GREEN ended. An entry that leaves START_RED clears
START_PROVING_TIMEOUT at the collector where it was raised there, changes nothing else of the collector and marks it
not raised, as an entry to START_RED does. START_FLASH and START_RED set the mode timer to 0, FLASH and START_FLASH
restart the junction flash run. With a start flash time of 0 START_FLASH is START_RED with timer 0 (reading, log entry
21). With DARK or FLASH demanded and more severe, that mode is entered with reason FAULT in the same way, and where it
is the mode already the reason alone becomes FAULT (for FLASH the model's choice, log entry 39). RESUME, with no
request in service: in FLASH or DARK with reason CONTROLLER and no mode demanded it answers DONE; with schedule mode
PLAN it enters START_RED from FLASH and START_FLASH from DARK (START_RED with a start flash time of 0), timer 0, with
reason CONTROLLER; with schedule mode FLASH or DARK it enters that mode with reason SCHEDULE, or, where it is the mode
already, changes the reason alone. In another mode, with another reason, or with a mode demanded, it answers BAD_STATE
and changes nothing. (R75, R77, R81, R84, R88, R24, R26, R21.) -/
def Obligations.ModeEntry : Prop :=
  (∀ (s : State) (m : Mode) (r : Reason), (m = .dark ∨ m = .startFlash ∨ m = .startRed ∨ m = .flash) →
    (belowDemand s m = false → (m = .startFlash → s.tables.startUp.startFlash ≠ 0) →
      (enterMode s m r).jm.mode = m ∧ (enterMode s m r).jm.reason = r ∧ (enterMode s m r).jm.departure = none ∧
      (enterMode s m r).eng.sub = .idle ∧ (enterMode s m r).eng.running = none ∧
      (enterMode s m r).eng.pendingPlan = none ∧
      (enterMode s m r).coll = (if s.jm.mode = .startRed ∧ m ≠ .startRed ∧ s.jm.provingTimeout = true
        then (takeClear s .startProvingTimeout 0).coll else s.coll) ∧
      (enterMode s m r).jm.provingTimeout =
        (if s.jm.mode = .startRed ∨ m = .startRed then false else s.jm.provingTimeout) ∧
      (m = .startFlash ∨ m = .startRed → (enterMode s m r).jm.timer = 0) ∧
      (m = .startFlash ∨ m = .flash → (enterMode s m r).junctionRun =
        { pattern := s.tables.startUp.pattern, step := 0, time := 0, fresh := !s.inPulse }) ∧
      ∀ g : Fin 32, live s g = true →
        (enterMode s m r).groups[g].target = (match m with
          | .dark => .dark
          | .startRed => .stop
          | _ => .flash) ∧
        (enterMode s m r).groups[g].aspect = (match m with
          | .dark => .dark
          | .startRed =>
            if s.groups[g].aspect = .dark ∨ s.groups[g].aspect = .flashAmber then .red else s.groups[g].aspect
          | _ => if groupType s g = .vehicle then .flashAmber else .dark) ∧
        Retimed s.inPulse s.groups[g] (enterMode s m r).groups[g]) ∧
    (belowDemand s .startFlash = false → s.tables.startUp.startFlash = 0 →
      (enterMode s .startFlash r).jm.mode = .startRed ∧ (enterMode s .startFlash r).jm.reason = r ∧
      (enterMode s .startFlash r).jm.timer = 0 ∧ (enterMode s .startFlash r).jm.provingTimeout = false ∧
      (enterMode s .startFlash r).coll = (if s.jm.mode = .startRed ∧ s.jm.provingTimeout = true
        then (takeClear s .startProvingTimeout 0).coll else s.coll)) ∧
    (belowDemand s m = true → ∀ d : Mode, demandMode (demandedNow s) = some d →
      (s.jm.mode = d → enterMode s m r = { s with jm := { s.jm with reason := .fault } }) ∧
      (s.jm.mode ≠ d →
        (enterMode s m r).jm.mode = d ∧ (enterMode s m r).jm.reason = .fault ∧ (enterMode s m r).jm.departure = none ∧
        (enterMode s m r).eng.sub = .idle ∧ (enterMode s m r).eng.running = none ∧
        (enterMode s m r).coll = (if s.jm.mode = .startRed ∧ s.jm.provingTimeout = true
          then (takeClear s .startProvingTimeout 0).coll else s.coll) ∧
        (enterMode s m r).jm.provingTimeout = (if s.jm.mode = .startRed then false else s.jm.provingTimeout) ∧
        ∀ g : Fin 32, live s g = true →
          (enterMode s m r).groups[g].target = (if d = .dark then .dark else .flash) ∧
          (enterMode s m r).groups[g].aspect =
            (if d = .flash ∧ groupType s g = .vehicle then .flashAmber else .dark) ∧
          Retimed s.inPulse s.groups[g] (enterMode s m r).groups[g]))) ∧
  ∀ (s : State) (tag : Byte), s.port.inService = none →
    (stoppedFor (taken 0x12 tag s) .controller = false ∨ (taken 0x12 tag s).coll.demanded ≠ .none →
      exec (.resume tag) s = .next (answered 0x12 tag (taken 0x12 tag s) .badState .none)) ∧
    ((taken 0x12 tag s).jm.reason = .controller → (taken 0x12 tag s).coll.demanded = .none →
      demandedNow (taken 0x12 tag s) = .none →
      ((taken 0x12 tag s).jm.mode = .flash ∨ (taken 0x12 tag s).jm.mode = .dark) →
      ∃ u : State, exec (.resume tag) s = .next (answered 0x12 tag u .done .none) ∧
        (s.jm.schedMode = .plan → u.jm.reason = .controller ∧ u.jm.timer = 0 ∧ u.jm.mode =
          if (taken 0x12 tag s).jm.mode = .flash ∨ s.tables.startUp.startFlash = 0 then .startRed else .startFlash) ∧
        ∀ m : Mode, schedTarget s.jm.schedMode = some m →
          ((taken 0x12 tag s).jm.mode ≠ m → u = enterMode (taken 0x12 tag s) m .schedule) ∧
          ((taken 0x12 tag s).jm.mode = m →
            u = { taken 0x12 tag s with jm := { (taken 0x12 tag s).jm with reason := .schedule } }))

/-- With no request in service, configuration closed and the plan numbered k not EMPTY: while it is in use the answer
is DONE and nothing changes; otherwise an empty error list makes it VALID with reply DONE, and a list that is not
empty makes it INVALID, kept with the plan, with reply INVALID carrying the list; every other plan and every other
table is as it was. Configuration open is BAD_STATE, a number outside 1 to 8 BAD_INDEX and an EMPTY plan BAD_STATE.
The error list of a plan holds, in ascending kind and each kind once, the kinds of R46 that fail, each with the lowest
step number at which it fails or 0 for a check on the header, the interstage time from one stage to another being the
largest intergreen from a group that loses its green to one that gains it. A plan that becomes VALID first clears
PLAN_INVALID of each plan that is VALID or is neither the governing plan nor, with that not VALID, the fallback plan,
an unacknowledged record becoming CLEARED_UNACK with the present stamp and an acknowledged one being removed (that the
clears come first is the model's choice, log entry 68); then, where the engine runs and it is the governing plan, it
becomes the pending plan; and where it is the governing or the fallback plan it is the NO_PLAN trigger, and everything
else but the silence timer and the request in service is as it was. (R45, R46, R182, R66, R84.) -/
def Obligations.PlanValidated : Prop :=
  (∀ (s : State) (p : Plan) (n : Nat) (st : Nat → PlanStep) (inter : Nat → Nat → Nat) (fails : PlanError → Nat → Prop),
    n = min p.steps 16 → (∀ k : Fin 16, st (num k) = p.entries[k]) →
    (∀ a b m : Nat, m ≤ inter a b ↔ m = 0 ∨ ∃ (i j : Fin 32) (x : Nat),
      mem (greenSet s a) i = true ∧ mem (greenSet s b) i = false ∧ mem (greenSet s b) j = true ∧
      mem (greenSet s a) j = false ∧ conflicts s i j = true ∧ s.tables.matrix[i][j] = some x ∧ m ≤ x) →
    (∀ (e : PlanError) (i : Nat), fails e i ↔ match e with
      | .emptySequence => i = 0 ∧ p.steps = 0
      | .cycleRange => i = 0 ∧ p.cycle ≠ 0 ∧ (p.cycle < 300 ∨ 2400 < p.cycle)
      | .offsetRange => i = 0 ∧ 0 < p.cycle ∧ p.cycle ≤ p.offset
      | .badStage => 1 ≤ i ∧ i ≤ n ∧ greenSet s (st i).stage = 0
      | .repeatStage => 1 ≤ i ∧ i ≤ n ∧ 2 ≤ p.steps ∧ (st i).stage = (st (if i = 1 then n else i - 1)).stage
      | .minGtMax => 1 ≤ i ∧ i ≤ n ∧ (st i).maxGreen < (st i).minGreen
      | .minBelowFloor => 1 ≤ i ∧ i ≤ n ∧ ∃ g : Fin 32, live s g = true ∧ mem (greenSet s (st i).stage) g = true ∧
          (st i).minGreen < s.tables.group[g].safetyMin
      | .forceOrder => 1 ≤ i ∧ i ≤ n ∧ 0 < p.cycle ∧
          ((2 ≤ i ∧ (st i).forceOff ≤ (st (i - 1)).forceOff) ∨ p.cycle ≤ (st i).forceOff)
      | .noHold => i = 0 ∧ 0 < p.cycle ∧ ∀ k : Nat, 1 ≤ k → k ≤ n → (st k).holdFlag = false
      | .twoHold => 1 ≤ i ∧ i ≤ n ∧ 0 < p.cycle ∧ (st i).holdFlag = true ∧
          ∃ k : Nat, 1 ≤ k ∧ k < i ∧ (st k).holdFlag = true
      | .cycleTooShort => i = 0 ∧ 300 ≤ p.cycle ∧ p.cycle ≤ 2400 ∧
          (∀ k : Nat, 1 ≤ k → k ≤ n → greenSet s (st k).stage ≠ 0) ∧
          p.cycle < ((List.range n).map fun k => (st (k + 1)).minGreen +
            inter (st (k + 1)).stage (st (if k + 1 = n then 1 else k + 2)).stage).sum) →
    (planErrors s p).Pairwise (fun x y => x.1.number < y.1.number) ∧
    ∀ (e : PlanError) (i : Nat), (e, i) ∈ planErrors s p ↔ fails e i ∧ ∀ j : Nat, j < i → ¬ fails e j) ∧
  ∀ (s : State) (tag : Byte) (p : Nat), s.port.inService = none →
    (s.port.configOpen = true →
      exec (.validatePlan tag p) s = .next (answered 0x04 tag (taken 0x04 tag s) .badState .none)) ∧
    (s.port.configOpen = false → ofNum 8 p = none →
      exec (.validatePlan tag p) s = .next (answered 0x04 tag (taken 0x04 tag s) .badIndex .none)) ∧
    ∀ k : Fin 8, s.port.configOpen = false → ofNum 8 p = some k →
      (s.tables.plan[k].state = .empty →
        exec (.validatePlan tag p) s = .next (answered 0x04 tag (taken 0x04 tag s) .badState .none)) ∧
      (s.tables.plan[k].state ≠ .empty → inUse (taken 0x04 tag s) k = true →
        exec (.validatePlan tag p) s = .next (answered 0x04 tag (taken 0x04 tag s) .done .none)) ∧
      (s.tables.plan[k].state ≠ .empty → inUse (taken 0x04 tag s) k = false →
        (planErrors s s.tables.plan[k] = [] → ∃ u v w x : State,
          exec (.validatePlan tag p) s = .next (answered 0x04 tag u .done .none) ∧
          u.tables = { s.tables with
            plan := put s.tables.plan k
              { s.tables.plan[k] with state := .valid, errors := [] } } ∧
          x = taken 0x04 tag s ∧
          w = { x with
            tables := u.tables
            coll := { x.coll with slots := w.coll.slots, demandStands := w.coll.demandStands }
            eng := { x.eng with invalidRaised := w.eng.invalidRaised } } ∧ StandsOn x.coll w.coll ∧
          (∀ q : Fin 8, mem w.eng.invalidRaised q = true ↔ mem x.eng.invalidRaised q = true ∧
            w.tables.plan[q].state ≠ .valid ∧
            (q = x.eng.governing ∨ (q = fallback s ∧ w.tables.plan[x.eng.governing].state ≠ .valid))) ∧
          (OneRecordEach x → ∀ i : Fin 64,
            (x.coll.slots[i] = none → w.coll.slots[i] = none) ∧
            ∀ r : FaultRec, x.coll.slots[i] = some r → w.coll.slots[i] =
              if r.kind = .planInvalid ∧ (∃ q : Fin 8, r.subject = num q ∧ mem x.eng.invalidRaised q = true ∧
                  mem w.eng.invalidRaised q = false) then
                (match r.state with
                  | .activeUnack => some { r with state := .clearedUnack, last := stamp s }
                  | .activeAck => none
                  | .clearedUnack => some r)
              else some r) ∧
          v = (if s.eng.running ≠ none ∧ s.eng.governing = k then { w with eng := { w.eng with pendingPlan := some k } }
            else w) ∧
          u = (if k = s.eng.governing ∨ k = fallback s then noPlanExit v else v)) ∧
        (planErrors s s.tables.plan[k] ≠ [] →
          exec (.validatePlan tag p) s = .next (answered 0x04 tag
            { taken 0x04 tag s with
              tables := { s.tables with
                plan := put s.tables.plan k
                  { s.tables.plan[k] with state := .invalid, errors := planErrors s s.tables.plan[k] } } }
            .invalid (.errors ((planErrors s s.tables.plan[k]).map fun e => ⟨num k, e.1.number, e.2⟩)))))

/-- The structural error list holds, in ascending kind and each kind once, the kinds that fail, each with the lowest
index at which it fails: no group in use; a used circuit on the unit and terminal of a lower-numbered one; a circuit
whose group is UNUSED, whose role its group's type has not, or whose red set is beyond the red sets used; a group
without a role its type needs, with more than 8 circuits of a role, or with an empty red set, counting the circuits
whose role check passes; a circuit on a unit not present; a group in conflict with itself; one of a pair of
intergreens missing, an intergreen below the clearance of its first group, in matrix order; a stage with two groups
that conflict; an input entry of a unit not present or naming an undefined stage; and a start red time below the
largest intergreen. The circuit map gives each terminal the lowest-numbered used circuit there, or none, and each
group its circuits by role and red set, ascending. That a present of 1 is yes is the model's reading (log entry 13).
(R10, R11, R12, R13, R14, R15.) -/
def Obligations.StructureChecked : Prop :=
  ∀ (s : State) (fails : Nat → Nat → Prop) (passes : Role → Fin 32 → Fin 96 → Prop),
    (∀ (r : Role) (g : Fin 32) (c : Fin 96), passes r g c ↔
      s.tables.circuit[c].group = num g ∧ Role.ofCode s.tables.circuit[c].role = some r ∧ live s g = true ∧
      ¬ (r = .amber ∧ groupType s g = .pedestrian) ∧
      ¬ (r = .red ∧ s.tables.group[g].redSets < s.tables.circuit[c].redSet)) →
    (∀ kind i : Nat, fails kind i ↔ match kind with
      | 1 => i = 0 ∧ ∀ g : Fin 32, live s g = false
      | 2 => ∃ c d : Fin 96, i = num c ∧ d < c ∧ (groupOf s c).isSome = true ∧ (groupOf s d).isSome = true ∧
          s.tables.circuit[d].fiu = s.tables.circuit[c].fiu ∧ s.tables.circuit[d].terminal = s.tables.circuit[c].terminal
      | 3 => ∃ (c : Fin 96) (g : Fin 32), i = num c ∧ s.tables.circuit[c].group = num g ∧ (live s g = false ∨
          (Role.ofCode s.tables.circuit[c].role = some .amber ∧ groupType s g = .pedestrian) ∨
          (Role.ofCode s.tables.circuit[c].role = some .red ∧ s.tables.group[g].redSets < s.tables.circuit[c].redSet))
      | 4 => ∃ g : Fin 32, i = num g ∧ live s g = true ∧ ∃ r : Role, (r = .amber → groupType s g = .vehicle) ∧
          ∀ c : Fin 96, ¬ passes r g c
      | 5 => ∃ g : Fin 32, i = num g ∧ live s g = true ∧ ∃ (r : Role) (cs : List (Fin 96)),
          cs.Nodup ∧ cs.length = 9 ∧ ∀ c ∈ cs, passes r g c
      | 6 => ∃ g : Fin 32, i = num g ∧ live s g = true ∧ ∃ k : Nat, 1 ≤ k ∧ k ≤ s.tables.group[g].redSets ∧
          ∀ c : Fin 96, passes .red g c → s.tables.circuit[c].redSet ≠ k
      | 7 => ∃ c : Fin 96, i = num c ∧ (groupOf s c).isSome = true ∧
          ∀ u : Fin 12, s.tables.circuit[c].fiu = num u → s.tables.fiu[u].present ≠ 1
      | 8 => ∃ g : Fin 32, i = num g ∧ live s g = true ∧ s.tables.matrix[g][g] ≠ none
      | 9 => ∃ a b : Fin 32, i = 32 * a.val + b.val ∧ live s a = true ∧ live s b = true ∧
          ¬ (s.tables.matrix[a][b] = none ↔ s.tables.matrix[b][a] = none)
      | 10 => ∃ (a b : Fin 32) (n : Nat), i = 32 * a.val + b.val ∧ live s a = true ∧ live s b = true ∧ a ≠ b ∧
          s.tables.matrix[a][b] = some n ∧
          n < if groupType s a = .vehicle then s.tables.group[a].amber else s.tables.group[a].clearance
      | 11 => ∃ k : Fin 16, i = num k ∧ ∃ a b : Fin 32, conflicts s a b = true ∧
          mem s.tables.stage[k] a = true ∧ mem s.tables.stage[k] b = true
      | 12 => ∃ (e : Fin 64) (u : Fin 12), i = num e ∧ s.tables.input[e].fiu = num u ∧ (s.tables.fiu[u].present ≠ 1 ∨
          ∃ k : Fin 16, s.tables.stage[k] = 0 ∧
            (mem s.tables.input[e].demand k = true ∨ mem s.tables.input[e].extend k = true))
      | 13 => i = 0 ∧ ∃ (a b : Fin 32) (n : Nat), live s a = true ∧ live s b = true ∧
          s.tables.matrix[a][b] = some n ∧ s.tables.startUp.startRed < n
      | _ => False) →
    (structuralErrors s).Pairwise (fun x y => x.kind < y.kind) ∧
    (∀ e : ErrEntry, e ∈ structuralErrors s ↔
      e.plan = 0 ∧ fails e.kind e.index ∧ ∀ i : Nat, i < e.index → ¬ fails e.kind i) ∧
    (∀ (u : Fin 12) (t : Fin 8) (c : Fin 96), (buildMap s).terminal[u][t] = some c ↔
      (groupOf s c).isSome = true ∧ s.tables.circuit[c].fiu = num u ∧ s.tables.circuit[c].terminal = num t ∧
      ∀ d : Fin 96, d < c → ¬ ((groupOf s d).isSome = true ∧ s.tables.circuit[d].fiu = num u ∧
        s.tables.circuit[d].terminal = num t)) ∧
    ∀ g : Fin 32, live s g = true →
      (∀ c : Fin 96, (c ∈ (buildMap s).groups[g].red ↔ passes .red g c) ∧
        (c ∈ (buildMap s).groups[g].amber ↔ passes .amber g c) ∧
        (c ∈ (buildMap s).groups[g].green ↔ passes .green g c) ∧
        ∀ k : Fin 4, c ∈ (buildMap s).groups[g].redSets[k] ↔ passes .red g c ∧ s.tables.circuit[c].redSet = num k) ∧
      (buildMap s).groups[g].red.Pairwise (· < ·) ∧ (buildMap s).groups[g].amber.Pairwise (· < ·) ∧
      (buildMap s).groups[g].green.Pairwise (· < ·) ∧ ∀ k : Fin 4, (buildMap s).groups[g].redSets[k].Pairwise (· < ·)

/-- With no request in service: a payload that is not 8 bytes is MALFORMED; with configuration closed the answer is
BAD_STATE; with every slot programmed it is NO_SLOT; and otherwise the lowest-numbered blank slot takes the 8 bytes,
no other slot changes, nothing else changes, and the answer is DONE with the slot's number. READ_IDENTITY answers DONE
in every mode with the three slots and the number of the effective slot, the highest-numbered one programmed, or 0
with every slot blank, and START, past its check of mode and configuration, is then refused with BLANK_IDENTITY. No
command changes or blanks a programmed slot, and none but PROGRAM_IDENTITY changes any, POWER_ON_RESET,
ENGINE_RESTART, CONFIG_OPEN and the mains events included; and a slot holds 8 bytes. A change of mode, count or ALARM
puts the effective slot and its bytes, or the blank identity, into the ALERT slot. (R180.) -/
def Obligations.IdentityProgrammed : Prop :=
  (∀ (s : State) (tag : Byte) (bytes : List Byte), s.port.inService = none →
    (bytes.length ≠ 8 →
      exec (.programIdentity tag bytes) s = .next (answered 0x06 tag (taken 0x06 tag s) .malformed .none)) ∧
    (bytes.length = 8 → s.port.configOpen = false →
      exec (.programIdentity tag bytes) s = .next (answered 0x06 tag (taken 0x06 tag s) .badState .none)) ∧
    (bytes.length = 8 → s.port.configOpen = true → (∀ k : Fin 3, s.port.identity[k] ≠ none) →
      exec (.programIdentity tag bytes) s = .next (answered 0x06 tag (taken 0x06 tag s) .noSlot .none)) ∧
    (∀ k : Fin 3, bytes.length = 8 → s.port.configOpen = true → s.port.identity[k] = none →
      (∀ j : Fin 3, j < k → s.port.identity[j] ≠ none) →
      exec (.programIdentity tag bytes) s = .next (answered 0x06 tag
        (setPort (taken 0x06 tag s) fun p => { p with identity := put s.port.identity k (some bytes) }) .done
        (.slot (num k)))) ∧
    ∃ n : Nat, exec (.readIdentity tag) s = .next (answered 0x07 tag (taken 0x07 tag s) .done (.identity s.port.identity n)) ∧
      (∀ k : Fin 3, n = num k ↔ s.port.identity[k] ≠ none ∧ ∀ j : Fin 3, k < j → s.port.identity[j] = none) ∧
      (n = 0 ↔ ∀ k : Fin 3, s.port.identity[k] = none) ∧
      (n = 0 → (taken 0x05 tag s).jm.mode = .dark → s.port.configOpen = true ∨ (taken 0x05 tag s).jm.reason = .restart →
        exec (.start tag) s = .next (answered 0x05 tag (taken 0x05 tag s) .blankIdentity .none))) ∧
  (∀ (c : Instr) (s t : State), exec c s = .next t →
    ((∀ (tag : Byte) (bytes : List Byte), c ≠ .programIdentity tag bytes) → t.port.identity = s.port.identity) ∧
    (∀ (k : Fin 3) (b : List Byte), s.port.identity[k] = some b → t.port.identity[k] = some b) ∧
    ((∀ (k : Fin 3) (b : List Byte), s.port.identity[k] = some b → b.length = 8) →
      ∀ (k : Fin 3) (b : List Byte), t.port.identity[k] = some b → b.length = 8)) ∧
  ∀ s : State,
    ((summaryNow s).mode ≠ s.port.summary.mode ∨ (summaryNow s).unack ≠ s.port.summary.unack ∨
        (summaryNow s).alarm ≠ s.port.summary.alarm →
      ∃ a : Alert, (refreshSummary s).port.alert = some a ∧
        (∀ (k : Fin 3) (b : List Byte), s.port.identity[k] = some b → (∀ j : Fin 3, k < j → s.port.identity[j] = none) →
          a.slot = num k ∧ a.identity = b) ∧
        ((∀ k : Fin 3, s.port.identity[k] = none) → a.slot = 0 ∧ a.identity = List.replicate 8 0))

/-- With no request in service, SELECT_PLAN of a plan 1 to 8 and RELEASE_PLAN answer DONE: the override is that plan
or none, the effective governing plan is the override or, with none, the schedule plan, and the rest of the schedule
record is kept. When the effective plan has changed it is named to the engine as its governing plan, which deals with
it by R66 while it runs, and to the mode machine as the NO_PLAN trigger; when it has not, nothing else changes. A
number outside 1 to 8 is BAD_INDEX. With no request in service: SET_DIM with the code of BRIGHT or DIM answers DONE,
the override and the effective demand are that state; any other code is BAD_VALUE and changes nothing; RELEASE_DIM
answers DONE, the override is none and the effective demand is the schedule dim. Nothing else changes. (R104, R105,
R66, R84.) -/
def Obligations.OverridesSet : Prop :=
  (∀ (s : State) (tag : Byte) (p : Nat), s.port.inService = none →
    (ofNum 8 p = none →
      exec (.selectPlan tag p) s = .next (answered 0x08 tag (taken 0x08 tag s) .badIndex .none)) ∧
    (∀ k : Fin 8, ofNum 8 p = some k → ∃ u : State,
      exec (.selectPlan tag p) s = .next (answered 0x08 tag u .done .none) ∧
      u.sched = { s.sched with planOverride := some k, effPlan := k } ∧
      (k ≠ s.sched.effPlan → u.eng.governing = k ∧
        u = noPlanExit (nameGoverning { taken 0x08 tag s with sched := u.sched } k)) ∧
      (k = s.sched.effPlan → u = { taken 0x08 tag s with sched := u.sched })) ∧
    ∃ u : State, exec (.releasePlan tag) s = .next (answered 0x09 tag u .done .none) ∧
      u.sched = { s.sched with planOverride := none, effPlan := s.sched.plan } ∧
      (s.sched.plan ≠ s.sched.effPlan → u.eng.governing = s.sched.plan ∧
        u = noPlanExit (nameGoverning { taken 0x09 tag s with sched := u.sched } s.sched.plan)) ∧
      (s.sched.plan = s.sched.effPlan → u = { taken 0x09 tag s with sched := u.sched })) ∧
  ∀ (s : State) (tag : Byte) (code : Nat), s.port.inService = none →
    (∀ t : Tap, Tap.ofCode code = some t → exec (.setDim tag code) s = .next (answered 0x0E tag
      { taken 0x0E tag s with sched := { s.sched with dimOverride := some t, effDim := t } } .done .none)) ∧
    (Tap.ofCode code = none →
      exec (.setDim tag code) s = .next (answered 0x0E tag (taken 0x0E tag s) .badValue .none)) ∧
    exec (.releaseDim tag) s = .next (answered 0x0F tag
      { taken 0x0F tag s with sched := { s.sched with dimOverride := none, effDim := s.sched.dim } } .done .none)

/-- With no request in service: a mode code other than STAGE and CYCLE is BAD_VALUE, a junction mode other than PLAN
BAD_STATE, and otherwise HOLD sets the controller hold and clears cycle hold reached with reply DONE; RELEASE_HOLD in
any mode sets the hold to none and clears cycle hold reached with reply DONE. Resync is set when a hold that applied
to the current step stops applying while a coordinated plan runs. A hold released in the INTERSTAGE after a STEP
applies to no step there and sets no resync: the model's choice (log entry 36). Nothing else changes. With no request
in service and a plan running in PLAN, with a hold that applies to the current step and the sub-state MIN or HOLD:
STEP NEXT with another wanted step, and STEP to a stage 1 to 16 that another step of the plan names, that is not the
current stage and that has a group outside the inhibit set, answer DONE and set the step request to NEXT or to the
stage, and nothing else changes. A stage number outside 1 to 16 is BAD_INDEX. STEP with no plan running, outside PLAN,
with no hold that applies or in another sub-state answers BAD_STATE, NEXT with no other wanted step and a stage with
every group in the inhibit set too, and a stage that no other step names or that is the current one BAD_VALUE. A hold
applies to the current step, other than in IDLE and INTERSTAGE, while the STAGE hold is set, the CYCLE hold is set and
reached, or an input entry in use of kind PANEL_HOLD is ACTIVE. (R68, R69, R70, R71.) -/
def Obligations.HoldsSet : Prop :=
  (∀ (s : State) (tag : Byte) (code : Nat), s.port.inService = none →
    (HoldMode.ofCode code = none →
      exec (.hold tag code) s = .next (answered 0x0A tag (taken 0x0A tag s) .badValue .none)) ∧
    (∀ h : HoldMode, HoldMode.ofCode code = some h → (taken 0x0A tag s).jm.mode ≠ .plan →
      exec (.hold tag code) s = .next (answered 0x0A tag (taken 0x0A tag s) .badState .none)) ∧
    (∀ h : HoldMode, HoldMode.ofCode code = some h → (taken 0x0A tag s).jm.mode = .plan → ∃ u : State,
      exec (.hold tag code) s = .next (answered 0x0A tag u .done .none) ∧
      u = { taken 0x0A tag s with eng := { (taken 0x0A tag s).eng with
        hold := some h, cycleReached := false, resync := u.eng.resync } } ∧
      (u.eng.resync = true ↔ (taken 0x0A tag s).eng.resync = true ∨
        (holdApplies (taken 0x0A tag s) = true ∧ holdApplies u = false ∧ runsCoordinated u = true))) ∧
    ∃ u : State, exec (.releaseHold tag) s = .next (answered 0x0B tag u .done .none) ∧
      u = { taken 0x0B tag s with eng := { (taken 0x0B tag s).eng with
        hold := none, cycleReached := false, resync := u.eng.resync } } ∧
      (u.eng.resync = true ↔ (taken 0x0B tag s).eng.resync = true ∨
        (holdApplies (taken 0x0B tag s) = true ∧ holdApplies u = false ∧ runsCoordinated u = true))) ∧
  (∀ s : State, holdApplies s = true ↔ s.eng.sub ≠ .idle ∧ s.eng.sub ≠ .interstage ∧
    (s.eng.hold = some .stage ∨ (s.eng.hold = some .cycle ∧ s.eng.cycleReached = true) ∨
      ∃ (e : Fin 64) (u : Fin 12), s.tables.input[e].fiu = num u ∧ s.tables.input[e].kind = 2 ∧
        s.inputs[e].active = true)) ∧
  (∀ (s : State) (p : Fin 8) (st : Fin 16),
    (stepNames s p st = true ↔ s.tables.plan[p].entries[s.eng.cur].stage ≠ num st ∧
      ∃ k : Fin 16, k.val < s.tables.plan[p].steps ∧ k ≠ s.eng.cur ∧ s.tables.plan[p].entries[k].stage = num st) ∧
    (stageOpen s st = true ↔ ∃ g : Fin 32, live s g = true ∧ mem s.tables.stage[st] g = true ∧
      s.groups[g].inhibited = false)) ∧
  ∀ (s : State) (tag : Byte) (p : Fin 8), s.port.inService = none →
    (∀ n : Nat, ofNum 16 n = none →
      exec (.step tag (.stage n)) s = .next (answered 0x0C tag (taken 0x0C tag s) .badIndex .none)) ∧
    ((taken 0x0C tag s).eng.running = none ∨ (taken 0x0C tag s).jm.mode ≠ .plan ∨
        holdApplies (taken 0x0C tag s) = false ∨
        ((taken 0x0C tag s).eng.sub ≠ .min ∧ (taken 0x0C tag s).eng.sub ≠ .hold) →
      exec (.step tag .next) s = .next (answered 0x0C tag (taken 0x0C tag s) .badState .none) ∧
      ∀ n : Nat, ofNum 16 n ≠ none →
        exec (.step tag (.stage n)) s = .next (answered 0x0C tag (taken 0x0C tag s) .badState .none)) ∧
    ((taken 0x0C tag s).eng.running = some p → (taken 0x0C tag s).jm.mode = .plan →
      holdApplies (taken 0x0C tag s) = true →
      ((taken 0x0C tag s).eng.sub = .min ∨ (taken 0x0C tag s).eng.sub = .hold) →
      (anotherWanted (taken 0x0C tag s) p = true →
        exec (.step tag .next) s = .next (answered 0x0C tag
          { taken 0x0C tag s with eng := { (taken 0x0C tag s).eng with stepReq := some .next } } .done .none)) ∧
      (anotherWanted (taken 0x0C tag s) p = false →
        exec (.step tag .next) s = .next (answered 0x0C tag (taken 0x0C tag s) .badState .none)) ∧
      ∀ (n : Nat) (st : Fin 16), ofNum 16 n = some st →
        (stepNames (taken 0x0C tag s) p st = false →
          exec (.step tag (.stage n)) s = .next (answered 0x0C tag (taken 0x0C tag s) .badValue .none)) ∧
        (stepNames (taken 0x0C tag s) p st = true → stageOpen (taken 0x0C tag s) st = false →
          exec (.step tag (.stage n)) s = .next (answered 0x0C tag (taken 0x0C tag s) .badState .none)) ∧
        (stepNames (taken 0x0C tag s) p st = true → stageOpen (taken 0x0C tag s) st = true →
          exec (.step tag (.stage n)) s = .next (answered 0x0C tag
            { taken 0x0C tag s with eng := { (taken 0x0C tag s).eng with stepReq := some (.stage st) } }
            .done .none)))

/-- With no request in service: a list that does not hold 1 to 16 entries is MALFORMED; configuration open is
BAD_STATE; a stage number outside 1 to 16 is BAD_INDEX; an undefined stage is BAD_VALUE; and otherwise the answer is
DONE and a stage has its latched demand exactly when it had it or the list names it, and nothing else changes. A
refused request sets none. (R52.) -/
def Obligations.DemandLatched : Prop :=
  ∀ (s : State) (tag : Byte) (stages : List Nat), s.port.inService = none →
    (¬ (1 ≤ stages.length ∧ stages.length ≤ 16) →
      exec (.demand tag stages) s = .next (answered 0x0D tag (taken 0x0D tag s) .malformed .none)) ∧
    (1 ≤ stages.length ∧ stages.length ≤ 16 →
      (s.port.configOpen = true →
        exec (.demand tag stages) s = .next (answered 0x0D tag (taken 0x0D tag s) .badState .none)) ∧
      (s.port.configOpen = false → (∃ n ∈ stages, n = 0 ∨ 16 < n) →
        exec (.demand tag stages) s = .next (answered 0x0D tag (taken 0x0D tag s) .badIndex .none)) ∧
      (s.port.configOpen = false → (∀ n ∈ stages, 1 ≤ n ∧ n ≤ 16) → (∃ n ∈ stages, greenSet s n = 0) →
        exec (.demand tag stages) s = .next (answered 0x0D tag (taken 0x0D tag s) .badValue .none)) ∧
      (s.port.configOpen = false → (∀ n ∈ stages, 1 ≤ n ∧ n ≤ 16) → (∀ n ∈ stages, greenSet s n ≠ 0) →
        ∃ u : State, exec (.demand tag stages) s = .next (answered 0x0D tag u .done .none) ∧
          u = { taken 0x0D tag s with latched := u.latched } ∧
          ∀ k : Fin 16, mem u.latched k = true ↔ mem (taken 0x0D tag s).latched k = true ∨ num k ∈ stages))

/-- With no request in service, FLASH or DARK with an option above 1 is BAD_VALUE, with started no BAD_STATE, and
FLASH with DARK demanded BAD_STATE. Otherwise, with no mode demanded or with FLASH, and DARK with DARK demanded too,
the answer is DONE. In PLAN and DIRECT_DRIVE, ORDERLY (option 1) sets a departure to that mode with reason CONTROLLER
and keeps the mode: from DIRECT_DRIVE with STOP handed to every group in use, from PLAN with the orderly stop set,
which in an INTERSTAGE hands STOP at once to every group of the served set that is not GREEN, and otherwise leaves
every group as it was; and IMMEDIATE (option 0) enters the mode. In START_FLASH and START_RED either option enters it;
in FLASH or DARK the mode is entered, or where it is the mode already the reason alone becomes CONTROLLER. An entry,
also where FLASH is demanded, has the reason CONTROLLER, withdraws any departure, stops the engine and gives every
group in use the mode's target. That an ORDERLY request hands STOP to every group also where it replaces a departure
waiting in DIRECT_DRIVE is the model's reading (log entry 20), and that the groups given STOP in an INTERSTAGE leave
the served and the gaining set at once is its choice (log entry 38). (R80, R81, R82, R26, R72, R88.) -/
def Obligations.StopsTaken : Prop :=
  ∀ (s x : State) (tag : Byte) (option : Nat) (c : Instr) (k : Byte) (m : Mode) (d : Dest), s.port.inService = none →
    (c = .flash tag option ∧ k = 0x10 ∧ m = .flash ∧ d = .flash) ∨
      (c = .dark tag option ∧ k = 0x11 ∧ m = .dark ∧ d = .dark) → x = taken k tag s →
    (1 < option → exec c s = .next (answered k tag x .badValue .none)) ∧
    (option ≤ 1 → s.jm.started = false → exec c s = .next (answered k tag x .badState .none)) ∧
    (option ≤ 1 → s.jm.started = true → m = .flash → x.coll.demanded = .dark →
      exec c s = .next (answered k tag x .badState .none)) ∧
    (option ≤ 1 → s.jm.started = true → m = .dark ∨ x.coll.demanded ≠ .dark →
      ∃ u : State, exec c s = .next (answered k tag u .done .none) ∧
        (option = 1 → x.jm.mode = .directDrive →
          u = { x with
            jm := { x.jm with departure := some ⟨d, .controller⟩ }, groups := u.groups, clearRuns := u.clearRuns } ∧
          ∀ g : Fin 32, u.groups[g] = (handTarget x g .stop).groups[g] ∧
            u.clearRuns[g] = (handTarget x g .stop).clearRuns[g]) ∧
        (option = 1 → x.jm.mode = .plan →
          u = { x with
            jm := { x.jm with departure := some ⟨d, .controller⟩ }, groups := u.groups, clearRuns := u.clearRuns
            eng := { x.eng with orderly := true, served := u.eng.served, gaining := u.eng.gaining } } ∧
          ∀ g : Fin 32,
            (x.eng.sub = .interstage ∧ mem x.eng.served g = true ∧ x.groups[g].aspect ≠ .green →
              u.groups[g] = (handTarget x g .stop).groups[g] ∧ u.clearRuns[g] = (handTarget x g .stop).clearRuns[g] ∧
              mem u.eng.served g = false ∧ mem u.eng.gaining g = false) ∧
            (¬ (x.eng.sub = .interstage ∧ mem x.eng.served g = true ∧ x.groups[g].aspect ≠ .green) →
              u.groups[g] = x.groups[g] ∧ u.clearRuns[g] = x.clearRuns[g] ∧
              mem u.eng.served g = mem x.eng.served g ∧ mem u.eng.gaining g = mem x.eng.gaining g)) ∧
        (x.jm.mode = m → u = { x with jm := { x.jm with reason := .controller } }) ∧
        (x.jm.mode ≠ m → ¬ (option = 1 ∧ (x.jm.mode = .plan ∨ x.jm.mode = .directDrive)) →
          u = enterMode x m .controller ∧
          (m = .dark ∨ demandedNow x ≠ .dark →
            u.jm.mode = m ∧ u.jm.reason = .controller ∧ u.jm.departure = none ∧ u.eng.sub = .idle ∧
            u.eng.running = none ∧
            ∀ g : Fin 32, live s g = true →
              u.groups[g].target = (if m = .dark then .dark else .flash) ∧
              u.groups[g].aspect = (if m = .flash ∧ groupType s g = .vehicle then .flashAmber else .dark))))

/-- With no request in service: DIRECT_ENTER in PLAN with no departure and no demanded mode answers DONE, the mode is
DIRECT_DRIVE with reason CONTROLLER, the engine is IDLE, the governing plan, the latched demands and every group's
aspect and target are kept; otherwise it answers BAD_STATE. DIRECT_EXIT in DIRECT_DRIVE with no departure answers DONE
and sets a departure to START_RED with reason CONTROLLER, with STOP to every group in use; with that departure waiting
it answers DONE and changes nothing; with a departure to FLASH or DARK waiting, or in another mode, it answers
BAD_STATE. A departure completes when every group in use is RED, and not before: its destination is entered with its
reason, and one with reason SCHEDULE that finds the schedule mode back at PLAN is followed at once by the exit,
START_RED from FLASH and START_FLASH from DARK. (R85, R86, R82, R83, R84.) -/
def Obligations.DirectDriveEntered : Prop :=
  (∀ (s : State) (tag : Byte), s.port.inService = none →
      ((taken 0x13 tag s).jm.mode ≠ .plan ∨ (taken 0x13 tag s).jm.departure ≠ none →
        exec (.directEnter tag) s = .next (answered 0x13 tag (taken 0x13 tag s) .badState .none)) ∧
      ((taken 0x13 tag s).jm.mode = .plan → (taken 0x13 tag s).jm.departure = none →
        demandedNow (taken 0x13 tag s) = .none →
        ∃ u : State, exec (.directEnter tag) s = .next (answered 0x13 tag u .done .none) ∧
          u.jm = { (taken 0x13 tag s).jm with mode := .directDrive, reason := .controller } ∧
          u.eng.sub = .idle ∧ u.eng.running = none ∧ u.eng.governing = (taken 0x13 tag s).eng.governing ∧
          u.latched = (taken 0x13 tag s).latched ∧ u.groups = (taken 0x13 tag s).groups ∧ u.inputs = s.inputs) ∧
      ((taken 0x15 tag s).jm.mode ≠ .directDrive →
        exec (.directExit tag) s = .next (answered 0x15 tag (taken 0x15 tag s) .badState .none)) ∧
      (∀ d : Departure, (taken 0x15 tag s).jm.mode = .directDrive → (taken 0x15 tag s).jm.departure = some d →
        exec (.directExit tag) s = .next (answered 0x15 tag (taken 0x15 tag s)
          (if d.dest = .startRed then .done else .badState) .none)) ∧
      ((taken 0x15 tag s).jm.mode = .directDrive → (taken 0x15 tag s).jm.departure = none →
        ∃ u : State, exec (.directExit tag) s = .next (answered 0x15 tag u .done .none) ∧
          u.jm = { (taken 0x15 tag s).jm with departure := some ⟨.startRed, .controller⟩ } ∧
          ∀ g : Fin 32, live s g = true → u.groups[g].target = .stop)) ∧
  ∀ (s w : State) (d : Departure),
    (s.jm.departure = none ∨ (∃ g : Fin 32, live s g = true ∧ s.groups[g].aspect ≠ .red) → judgeDeparture s = s) ∧
    (s.jm.departure = some d → (∀ g : Fin 32, live s g = true → s.groups[g].aspect = .red) →
      w = enterMode s (match d.dest with
        | .flash => .flash
        | .dark => .dark
        | .startRed => .startRed) d.reason →
      (d.reason = .schedule → s.jm.schedMode = .plan → w.jm.mode = .flash ∨ w.jm.mode = .dark → w.jm.reason = .schedule →
        judgeDeparture s = enterMode w (if w.jm.mode = .flash then .startRed else .startFlash) .schedule) ∧
      (¬ (d.reason = .schedule ∧ s.jm.schedMode = .plan ∧ (w.jm.mode = .flash ∨ w.jm.mode = .dark) ∧
          w.jm.reason = .schedule) →
        judgeDeparture s = w))

/-- With no request in service, in DIRECT_DRIVE, with 1 to 32 entries that each name a group 1 to 32 of type VEHICLE
or PEDESTRIAN and one of the four target codes: with the entries judged in list order, a GO is in conflict where a
group that conflicts with its group is GREEN or RED_AMBER or has GO pending, an earlier GO of the list setting that
and an earlier STOP, FLASH or DARK removing it; when no GO is in conflict the answer is DONE, the targets are handed
one after another in list order, each on the state the one before has left, and every group named holds the last
target the list names for it, while every group not named keeps its record; when one is, the answer is CONFLICT with
the group of the first entry refused and nothing changes. Outside 1 to 32 entries it is MALFORMED, outside
DIRECT_DRIVE BAD_STATE. A target handed to a group in use becomes its target: GO and STOP take it from DARK or
FLASH_AMBER to RED at once and leave every other aspect, FLASH takes a vehicle to FLASH_AMBER and a pedestrian to
DARK, and DARK takes any to DARK. A change of aspect restarts the time in aspect, fresh between two pulses, a cut from
GREEN the time since GREEN ended likewise, which is kept otherwise, and one from GREEN_FLASH ends the clearance run;
in the aspect already the group's timers go on. A target for a group UNUSED has no effect. (R34, R35, R21, R23, R24,
R25, R26.) -/
def Obligations.TargetsHanded : Prop :=
  (∀ (s : State) (tag : Byte) (es : List (Nat × Nat)), s.port.inService = none →
      (¬ (1 ≤ es.length ∧ es.length ≤ 32) →
        exec (.directTarget tag es) s = .next (answered 0x14 tag (taken 0x14 tag s) .malformed .none)) ∧
      (1 ≤ es.length → es.length ≤ 32 → (taken 0x14 tag s).jm.mode ≠ .directDrive →
        exec (.directTarget tag es) s = .next (answered 0x14 tag (taken 0x14 tag s) .badState .none)) ∧
      (1 ≤ es.length → es.length ≤ 32 → (taken 0x14 tag s).jm.mode = .directDrive →
        ((∃ e ∈ es, e.1 = 0 ∨ 32 < e.1) →
          exec (.directTarget tag es) s = .next (answered 0x14 tag (taken 0x14 tag s) .badIndex .none)) ∧
        ((∀ e ∈ es, 1 ≤ e.1 ∧ e.1 ≤ 32) → (∃ e ∈ es, badTarget s e = true) →
          exec (.directTarget tag es) s = .next (answered 0x14 tag (taken 0x14 tag s) .badValue .none)) ∧
        ((∀ e ∈ es, 1 ≤ e.1 ∧ e.1 ≤ 32) → (∀ e ∈ es, badTarget s e = false) →
          (∀ (g : Fin 32) (before after : List (Nat × Nat)), es = before ++ (num g, 0) :: after →
            GoRefused (taken 0x14 tag s) before g →
            (∀ (h : Fin 32) (b c : List (Nat × Nat)), before = b ++ (num h, 0) :: c → ¬ GoRefused (taken 0x14 tag s) b h) →
            exec (.directTarget tag es) s =
              .next (answered 0x14 tag (taken 0x14 tag s) .conflict (.conflictGroup (num g)))) ∧
          ((∀ (g : Fin 32) (before after : List (Nat × Nat)), es = before ++ (num g, 0) :: after →
              ¬ GoRefused (taken 0x14 tag s) before g) →
            ∃ u : State, exec (.directTarget tag es) s = .next (answered 0x14 tag u .done .none) ∧
              u = { taken 0x14 tag s with groups := u.groups, clearRuns := u.clearRuns } ∧
              (∀ hand : State → Nat × Nat → State,
                (∀ (x : State) (g : Fin 32) (code : Nat) (t : Target), Target.ofCode code = some t →
                  hand x (num g, code) = handTarget x g t) →
                u = es.foldl hand (taken 0x14 tag s)) ∧
              (∀ (g : Fin 32) (t : Target) (before : List (Nat × Nat)) (after : List (Nat × Nat)) (code : Nat),
                es = before ++ (num g, code) :: after → Target.ofCode code = some t → (∀ e ∈ after, e.1 ≠ num g) →
                u.groups[g].target = t) ∧
              ∀ g : Fin 32, (∀ e ∈ es, e.1 ≠ num g) →
                u.groups[g] = (taken 0x14 tag s).groups[g] ∧ u.clearRuns[g] = (taken 0x14 tag s).clearRuns[g])))) ∧
  ∀ (s : State) (g : Fin 32) (t : Target) (r : GroupRec) (a : Aspect), r = s.groups[g] →
    (a = match t with
      | .go | .stop => if r.aspect = .dark ∨ r.aspect = .flashAmber then .red else r.aspect
      | .flash => if groupType s g = .vehicle then .flashAmber else .dark
      | .dark => .dark) →
    (live s g = false → handTarget s g t = s) ∧
    (live s g = true → a = r.aspect → handTarget s g t = { s with groups := put s.groups g { r with target := t } }) ∧
    (live s g = true → a ≠ r.aspect → handTarget s g t = { s with
      groups := put s.groups g { r with
        target := t, aspect := a, inAspect := 0, inAspectFresh := !s.inPulse
        sinceGreen := if r.aspect = .green then 0 else r.sinceGreen
        sinceGreenFresh := if r.aspect = .green then !s.inPulse else r.sinceGreenFresh }
      clearRuns := if r.aspect = .greenFlash then put s.clearRuns g none else s.clearRuns })

/-- SYNC_PATTERNS, taken into service in any mode, answers DONE and starts the junction flash run at step 1 of the
junction flash pattern, marked fresh between pulses; the clearance runs and everything else are as they were.
PATTERN_STEP, while a pulse stands, of a run whose time in step has reached the duration of its step moves it to the
next step, from the last to step 1, with time 0. A run short of its duration, a clearance run that is absent, and a
PATTERN_STEP after the pulse change nothing (the model's choice, log entry 2). (R92.) -/
def Obligations.PatternsSynced : Prop :=
  (∀ (s : State) (tag : Byte), s.port.inService = none →
    exec (.syncPatterns tag) s = .next (answered 0x16 tag
      { taken 0x16 tag s with
        junctionRun := { pattern := s.tables.startUp.pattern, step := 0, time := 0, fresh := !s.inPulse } }
      .done .none)) ∧
  ∀ s : State,
    (pulseStands s = true →
      ((runSlot s s.junctionRun).duration ≤ s.junctionRun.time →
        exec (.patternStep .junction) s = .next { finish { s with
          junctionRun := { s.junctionRun with
            step := if s.junctionRun.step + 1 < (patternAt s s.junctionRun.pattern).steps then s.junctionRun.step + 1 else 0
            time := 0 }
          inPulse := true } with inPulse := s.inPulse }) ∧
      ∀ (g : Fin 32) (r : Run), s.clearRuns[g] = some r → (runSlot s r).duration ≤ r.time →
        exec (.patternStep (.clearance g)) s = .next { finish { s with
          clearRuns := put s.clearRuns g (some { r with
            step := if r.step + 1 < (patternAt s r.pattern).steps then r.step + 1 else 0, time := 0 })
          inPulse := true } with inPulse := s.inPulse }) ∧
    (pulseStands s = false ∨ s.junctionRun.time < (runSlot s s.junctionRun).duration →
      exec (.patternStep .junction) s = .next (finish s)) ∧
    ∀ g : Fin 32,
      (pulseStands s = false ∨ s.clearRuns[g] = none ∨
        (∃ r : Run, s.clearRuns[g] = some r ∧ r.time < (runSlot s r).duration) →
        exec (.patternStep (.clearance g)) s = .next (finish s))

/-- With no request in service, LEARN is answered with the first that applies: MALFORMED for a list that does not hold
1 to 96 entries (ALL never is), BAD_INDEX for a number outside 1 to 96, BAD_STATE with no circuit map or with a
circuit named that is not in it, and BAD_VALUE for a code of no tap state or for N_min above N_max, each set to the
nearer end of 8 to 255 and of 1 to 1000. Otherwise it sets each circuit named to LEARNING at that tap with those
limits, count 0 and an empty ring and leaves every other learn record; the reply is CLAMPED when N_min or N_max was
set into its range and DONE otherwise. ALL names the circuits in the map. LEARN_CANCEL has the same two refusals of
its list, and otherwise sets each circuit named that is LEARNING to IDLE, with count 0 and an empty ring and its tap
and limits kept, leaves every other record, and answers DONE. Nothing else changes. (R137, R138, R140.) -/
def Obligations.LearningSet : Prop :=
  ∀ (s : State) (tag : Byte) (cs : CircuitList) (badLength badNumber unfit : Prop) (named : Fin 96 → Prop),
    s.port.inService = none →
    (badLength ↔ ∃ l : List Nat, cs = .list l ∧ ¬ (1 ≤ l.length ∧ l.length ≤ 96)) →
    (badNumber ↔ ∃ l : List Nat, cs = .list l ∧ ∃ n ∈ l, n = 0 ∨ 96 < n) →
    (∀ c : Fin 96, named c ↔ match cs with
      | .all => inMap s c = true
      | .list l => num c ∈ l) →
    (unfit ↔ s.map = none ∨ ∃ c : Fin 96, named c ∧ inMap s c = false) →
    (∀ (code nMin nMax a b : Nat),
      a = (if nMin < 8 then 8 else if 255 < nMin then 255 else nMin) →
      b = (if nMax < 1 then 1 else if 1000 < nMax then 1000 else nMax) →
      (badLength → exec (.learn tag cs code nMin nMax) s =
        .next (answered 0x17 tag (taken 0x17 tag s) .malformed .none)) ∧
      (¬ badLength → badNumber → exec (.learn tag cs code nMin nMax) s =
        .next (answered 0x17 tag (taken 0x17 tag s) .badIndex .none)) ∧
      (¬ badLength → ¬ badNumber → unfit → exec (.learn tag cs code nMin nMax) s =
        .next (answered 0x17 tag (taken 0x17 tag s) .badState .none)) ∧
      (¬ badLength → ¬ badNumber → ¬ unfit → Tap.ofCode code = none ∨ b < a →
        exec (.learn tag cs code nMin nMax) s = .next (answered 0x17 tag (taken 0x17 tag s) .badValue .none)) ∧
      ∀ t : Tap, ¬ badLength → ¬ badNumber → ¬ unfit → Tap.ofCode code = some t → a ≤ b →
        ∃ u : State, exec (.learn tag cs code nMin nMax) s = .next (answered 0x17 tag u
            (if a = nMin ∧ b = nMax then .done else .clamped) .none) ∧
          u = { taken 0x17 tag s with prov := { s.prov with learn := u.prov.learn } } ∧
          ∀ c : Fin 96,
            (named c → u.prov.learn[c] =
              { state := .learning, fail := none, tap := t, nMin := a, nMax := b, count := 0, ring := [],
                result := none }) ∧
            (¬ named c → u.prov.learn[c] = s.prov.learn[c])) ∧
    (badLength → exec (.learnCancel tag cs) s = .next (answered 0x18 tag (taken 0x18 tag s) .malformed .none)) ∧
    (¬ badLength → badNumber →
      exec (.learnCancel tag cs) s = .next (answered 0x18 tag (taken 0x18 tag s) .badIndex .none)) ∧
    (¬ badLength → ¬ badNumber → ∃ u : State,
      exec (.learnCancel tag cs) s = .next (answered 0x18 tag u .done .none) ∧
      u = { taken 0x18 tag s with prov := { s.prov with learn := u.prov.learn } } ∧
      ∀ c : Fin 96,
        (named c → s.prov.learn[c].state = .learning → u.prov.learn[c] =
          { s.prov.learn[c] with state := .idle, count := 0, ring := [], result := none, fail := none }) ∧
        (¬ (named c ∧ s.prov.learn[c].state = .learning) → u.prov.learn[c] = s.prov.learn[c]))

/-- With no request in service: ACK_FAULT of a kind 1 to 21 and a subject in its range, and ACK_FAULT ALL, answer
DONE; an ACTIVE_UNACK record named becomes ACTIVE_ACK with its last-change stamp at the moment and the rest of it
kept, a CLEARED_UNACK record named is removed, and an ACTIVE_ACK record and every record not named stay as they were;
nothing else changes, but that the inhibit demand, where it stood as CONFIG_OPEN left it, is owed afresh once the
table changes (log entry 33). A payload of neither form is MALFORMED, a kind outside 1 to 21 BAD_VALUE, a subject out
of range BAD_INDEX. With no request in service: CLEAR_LATCH of a mapped circuit in LATCHED answers DONE; in the next
state its retry state is NORMAL, its trip count and clean-on timer are 0 and OVERCURRENT is not held raised, its
verdict is UNKNOWN with no candidate, and every other circuit's cable and proving record, the tables, the clock and
the field bus are as they were. A circuit outside the map, or not LATCHED, is BAD_STATE, and a number outside 1 to 96
BAD_INDEX. (R164, R159, R154, R136.) -/
def Obligations.FaultsAcknowledged : Prop :=
  (∀ (s : State) (tag : Byte), s.port.inService = none →
    exec (.ackFault tag .neither) s = .next (answered 0x19 tag (taken 0x19 tag s) .malformed .none) ∧
    (∀ k n : Nat, Kind.ofNumber k = none →
      exec (.ackFault tag (.one k n)) s = .next (answered 0x19 tag (taken 0x19 tag s) .badValue .none)) ∧
    (∀ (k n : Nat) (kd : Kind), Kind.ofNumber k = some kd → subjectOk kd n = false →
      exec (.ackFault tag (.one k n)) s = .next (answered 0x19 tag (taken 0x19 tag s) .badIndex .none)) ∧
    (∀ (k n : Nat) (kd : Kind), Kind.ofNumber k = some kd → subjectOk kd n = true → ∃ u : State,
      exec (.ackFault tag (.one k n)) s = .next (answered 0x19 tag u .done .none) ∧
      u = { taken 0x19 tag s with coll := { (taken 0x19 tag s).coll with
        slots := u.coll.slots, demandStands := u.coll.demandStands } } ∧ StandsOn (taken 0x19 tag s).coll u.coll ∧
      ∀ i : Fin 64, u.coll.slots[i] =
        if findSlot (taken 0x19 tag s) kd n = some i then
          (match (taken 0x19 tag s).coll.slots[i] with
          | some r => if r.state = .activeUnack then some { r with state := .activeAck, last := stamp s }
            else if r.state = .clearedUnack then none else some r
          | none => none)
        else (taken 0x19 tag s).coll.slots[i]) ∧
    ∃ u : State, exec (.ackFault tag .all) s = .next (answered 0x19 tag u .done .none) ∧
      u = { taken 0x19 tag s with coll := { (taken 0x19 tag s).coll with
        slots := u.coll.slots, demandStands := u.coll.demandStands } } ∧ StandsOn (taken 0x19 tag s).coll u.coll ∧
      ∀ i : Fin 64, u.coll.slots[i] =
        match (taken 0x19 tag s).coll.slots[i] with
        | some r => if r.state = .activeUnack then some { r with state := .activeAck, last := stamp s }
          else if r.state = .clearedUnack then none else some r
        | none => none) ∧
  ∀ (s : State) (tag : Byte) (n : Nat), s.port.inService = none →
    (ofNum 96 n = none →
      exec (.clearLatch tag n) s = .next (answered 0x1A tag (taken 0x1A tag s) .badIndex .none)) ∧
    ∀ c : Fin 96, ofNum 96 n = some c →
      (inMap s c = false ∨ s.cable.circuits[c].retry ≠ .latched →
        exec (.clearLatch tag n) s = .next (answered 0x1A tag (taken 0x1A tag s) .badState .none)) ∧
      (inMap s c = true → s.cable.circuits[c].retry = .latched →
        ∃ t : State, exec (.clearLatch tag n) s = .next t ∧ Replied t 0x1A tag .done .none ∧
          t.cable = { s.cable with
            circuits := put s.cable.circuits c
              { s.cable.circuits[c] with retry := .normal, trips := 0, cleanOn := 0, ovcRaised := false } } ∧
          t.prov.circuits[c].verdict = .unknown ∧ t.prov.circuits[c].cand = none ∧ t.prov.circuits[c].run = 0 ∧
          (∀ d : Fin 96, d ≠ c → t.prov.circuits[d] = s.prov.circuits[d]) ∧
          t.tables = s.tables ∧ t.clock = s.clock ∧ t.bus = { s.bus with queue := t.bus.queue } ∧ t.map = s.map)

/-- With no request in service: FORWARD_SET of at most 12 unit numbers, each 1 to 12, answers DONE and the forward set
is exactly the units named; more than 12 entries are MALFORMED and a number outside 1 to 12 BAD_INDEX. PASS of a kind
H'40 to H'4F and at most 48 bytes to an ADMITTED unit with the slot EMPTY answers DONE and the slot is WAITING with
the message; a longer payload is MALFORMED, a unit outside 1 to 12 BAD_INDEX, another kind FILTERED, a slot in use
BUSY, and a unit not ADMITTED BAD_STATE. Nothing else changes. PASS_REPLY_RECEIVED with the slot LISTENING, from a
good frame of the unit and the kind asked, leaves the slot with the answer REPLIED and its payload ready; any other
frame, and any other state of the slot, leaves the slot; nothing else of the kept part changes. When the last exchange
or the last roll call of a round has ended in a miss or a timeout, the round takes its last step: a PASS waiting for
this round is sent, and the slot is then LISTENING, when its unit is then ADMITTED, and is ABANDONED when it is not;
with no such PASS the slot stays and nothing is sent. (R118, R119, R120, R109.) -/
def Obligations.UnitsAddressed : Prop :=
  (∀ (s : State) (tag : Byte), s.port.inService = none →
    (∀ us : List Nat, 12 < us.length →
      exec (.forwardSet tag us) s = .next (answered 0x1C tag (taken 0x1C tag s) .malformed .none)) ∧
    (∀ us : List Nat, us.length ≤ 12 → (∃ n ∈ us, n = 0 ∨ 12 < n) →
      exec (.forwardSet tag us) s = .next (answered 0x1C tag (taken 0x1C tag s) .badIndex .none)) ∧
    (∀ us : List Nat, us.length ≤ 12 → (∀ n ∈ us, 1 ≤ n ∧ n ≤ 12) → ∃ u : State,
      exec (.forwardSet tag us) s = .next (answered 0x1C tag u .done .none) ∧
      u = { taken 0x1C tag s with bus := { s.bus with forward := u.bus.forward } } ∧
      ∀ k : Fin 12, mem u.bus.forward k = true ↔ num k ∈ us) ∧
    ∀ (n : Nat) (kind : Byte) (payload : List Byte),
      (48 < payload.length →
        exec (.pass tag n kind payload) s = .next (answered 0x1D tag (taken 0x1D tag s) .malformed .none)) ∧
      (payload.length ≤ 48 → ofNum 12 n = none →
        exec (.pass tag n kind payload) s = .next (answered 0x1D tag (taken 0x1D tag s) .badIndex .none)) ∧
      ∀ k : Fin 12, payload.length ≤ 48 → ofNum 12 n = some k →
        exec (.pass tag n kind payload) s = .next
          (if kind.toNat < 0x40 ∨ 0x4F < kind.toNat then answered 0x1D tag (taken 0x1D tag s) .filtered .none
           else if s.bus.slot ≠ .empty then answered 0x1D tag (taken 0x1D tag s) .busy .none
           else if s.bus.units[k].state ≠ .admitted then answered 0x1D tag (taken 0x1D tag s) .badState .none
           else answered 0x1D tag
            { taken 0x1D tag s with bus := { s.bus with
              slot := .waiting { unit := k, kind := kind, payload := payload, tag := tag } false } } .done .none)) ∧
  (∀ (s t : State) (u : Fin 12) (c : Instr), s.bus.round.active = true → s.bus.round.poll = [] →
    s.bus.round.isRoll = false → s.bus.round.roll = [] → s.bus.round.finished = false →
    ((c = .senseMiss u ∧ s.bus.round.awaiting = some u ∧ s.bus.round.called = none) ∨
      (c = .identTimeout u ∧ s.bus.round.awaiting = none ∧ s.bus.round.called = some u)) → exec c s = .next t →
    t.bus.round = { s.bus.round with awaiting := none, called := none, finished := true } ∧
    ((∀ m : PassMsg, s.bus.slot ≠ .waiting m true) → t.bus.slot = s.bus.slot ∧ t.bus.sent = s.bus.sent) ∧
    ∀ m : PassMsg, s.bus.slot = .waiting m true →
      (t.bus.units[m.unit].state = .admitted → t.bus.slot = .listening m ∧
        t.bus.sent = s.bus.sent ++ [.pass m.unit m.kind m.payload]) ∧
      (t.bus.units[m.unit].state ≠ .admitted → t.bus.slot = .answered m .abandoned [] ∧ t.bus.sent = s.bus.sent)) ∧
  ∀ (s : State) (f : PassFrame), ∃ t : State, exec (.passReplyReceived f) s = .next t ∧
    (∀ m : PassMsg, s.bus.slot = .listening m → f.good = true → f.unit = num m.unit → f.kind = m.kind →
      kept t = { kept s with bus := { s.bus with slot := .answered m .replied f.payload, queue := [] } }) ∧
    ((∀ m : PassMsg, s.bus.slot = .listening m → ¬ (f.good = true ∧ f.unit = num m.unit ∧ f.kind = m.kind)) →
      kept t = kept s)

/-- With no request in service: TRIM with a source code of MAINS or CRYSTAL stores the trim, set into -500 to +500,
and the preferred source, keeps the accumulator and every other clock field, and answers CLAMPED when the trim was set
and DONE otherwise; another source code is BAD_VALUE and changes nothing. Nothing else changes. With no request in
service: a weekday above 6 or a ms of day above 86,399,999 is BAD_VALUE and changes nothing. Otherwise SET_TIME
answers DONE; the weekday and the ms of day are those carried, UNSET is clear and every other clock field is kept; the
schedule mode, plan and dim are those evaluated at the new time; and the tables, the window timebase, the field bus,
lamp proving and cable supervision are as they were. The step that is reported is the difference of positions in the
week brought into -302,400,000 to +302,399,999 ms. The step reported to the engine while it runs a plan marks a big
step when it is of more than 2000 ms either way, with resync set where the plan is coordinated, marks a step back when
it is of 1 to 2000 ms backward, and marks nothing otherwise; in IDLE nothing is marked. The schedule is evaluated
after that. (R100, R101, R103, R64, R65.) -/
def Obligations.ClockSet : Prop :=
  (∀ (s : State) (tag : Byte) (t : Int) (code : Nat), s.port.inService = none →
    (Source.ofCode code = none →
      exec (.trim tag t code) s = .next (answered 0x1F tag (taken 0x1F tag s) .badValue .none)) ∧
    ∀ src : Source, Source.ofCode code = some src →
      exec (.trim tag t code) s = .next (answered 0x1F tag
        { taken 0x1F tag s with clock := { s.clock with
          trim := if t < -500 then -500 else if 500 < t then 500 else t, preferred := src } }
        (if -500 ≤ t ∧ t ≤ 500 then .done else .clamped) .none)) ∧
  (∀ (s : State) (tag : Byte) (w ms : Nat), s.port.inService = none →
    (6 < w ∨ 86399999 < ms →
      exec (.setTime tag w ms) s = .next (answered 0x1E tag (taken 0x1E tag s) .badValue .none)) ∧
    (w ≤ 6 → ms ≤ 86399999 → ∃ t u v : State,
      exec (.setTime tag w ms) s = .next (answered 0x1E tag (evaluate v) .done .none) ∧
      u = { taken 0x1E tag s with clock := { s.clock with weekday := w, ms := ms, unset := false } } ∧
      (s.eng.running = none → v = u) ∧
      (∀ p : Fin 8, s.eng.running = some p →
        (timeStep s w ms < -2000 ∨ 2000 < timeStep s w ms → v = { u with eng := { u.eng with
          bigStep := true, resync := u.eng.resync || decide (0 < s.tables.plan[p].cycle) } }) ∧
        (-2000 ≤ timeStep s w ms → timeStep s w ms < 0 → v = { u with eng := { u.eng with backStep := true } }) ∧
        (0 ≤ timeStep s w ms → timeStep s w ms ≤ 2000 → v = u)) ∧
      t = answered 0x1E tag (evaluate v) .done .none ∧ Replied t 0x1E tag .done .none ∧
      t.clock = { s.clock with weekday := w, ms := ms, unset := false } ∧
      t.sched.mode = schedModeNow t ∧ t.sched.plan = schedPlanNow t ∧ t.sched.dim = schedDimNow t ∧
      t.sched.effPlan = t.sched.planOverride.getD t.sched.plan ∧
      t.sched.effDim = t.sched.dimOverride.getD t.sched.dim ∧
      t.tables = s.tables ∧ t.mains = s.mains ∧ t.bus = { s.bus with queue := t.bus.queue } ∧ t.prov = s.prov ∧
      t.cable = s.cable ∧ t.inputs = s.inputs ∧ t.map = s.map)) ∧
  ∀ (s : State) (w ms : Nat), s.clock.weekday ≤ 6 → s.clock.ms ≤ 86399999 → w ≤ 6 → ms ≤ 86399999 →
    -302400000 ≤ timeStep s w ms ∧ timeStep s w ms ≤ 302399999 ∧
      (604800000 : Int) ∣ timeStep s w ms -
        ((86400000 * w + ms : Nat) - (86400000 * s.clock.weekday + s.clock.ms : Nat) : Int)

/-- With the receiver HUNTING a byte H'7E puts it in RECEIVING and any other byte is ignored; a frame with a bad
length or CRC and a pause inside a frame put it in HUNTING. Nothing else changes. FRAME_SENT of a reply ends the
service of its request, of a BUSY answer empties the BUSY slot and of the slot's PASS_REPLY empties the pass-through
slot. Once the hand-overs are made, a free transmitter takes the first reply, else the ALERT, else the PASS_REPLY of
the slot, else the oldest sense report, else nothing; a transmitter that is sending takes none. So after every
command, but a BUSY_REQUEST that finds no request in service and changes nothing, a free transmitter has no frame
ready. The hand-overs form the inhibit demand and hand it on, then the demanded mode, then the inhibit set, and then
take the interstage, the departure, the end of START_RED and the sub-state, four times over (the model's reading, log
entry 8); then the ALARM line and the summary are formed, and a change of its mode, count or ALARM makes the ALERT
slot READY with it and the effective identity, while a READY slot takes any other change and keeps its identity (the
model's choice, log entry 57). That the transmitter takes a frame at a command's end alone is its choice too (log
entry 78). (R169, R173, R170, R119, R172, R167, R57, R82, R78, R32.) -/
def Obligations.PortMoves : Prop :=
  (∀ (c : Instr) (s t : State), (∀ kind tag : Byte, c ≠ .busyRequest kind tag) → exec c s = .next t → t.port.tx = none →
    t.port.replies = [] ∧ t.port.alert = none ∧ t.bus.queue = [] ∧
    ∀ (m : PassMsg) (st : PassStatus) (pl : List Byte), t.bus.slot ≠ .answered m st pl) ∧
  (∀ s : State, finish s = kick (settle s)) ∧
  (∀ (s x : State) (pass : State → State), (∀ a : State, pass a = refreshSub (takeStartRedEnd (judgeDeparture
      (interstageProgress (refreshInhibit (handDemand (refreshInhibit (formInhibit a)))))))) →
    x = pass (pass (pass (pass s))) → ∃ (y : State) (al : Option Alert),
      y = { x with coll := { x.coll with alarm := alarmNow x } } ∧
      settle s = { y with port := { y.port with summary := summaryNow y, alert := al } } ∧
      exec .startRedEnd s = .next (finish (takeStartRedEnd s)) ∧
      ((summaryNow y).mode ≠ y.port.summary.mode ∨ (summaryNow y).unack ≠ y.port.summary.unack ∨
          (summaryNow y).alarm ≠ y.port.summary.alarm →
        al = some ⟨summaryNow y, effSlot y, effIdentity y⟩) ∧
      ((summaryNow y).mode = y.port.summary.mode → (summaryNow y).unack = y.port.summary.unack →
        (summaryNow y).alarm = y.port.summary.alarm →
        (y.port.alert = none → al = none) ∧
        ∀ a : Alert, y.port.alert = some a → al =
          some (if y.port.summary = summaryNow y then a else { a with summary := summaryNow y }))) ∧
  (∀ s : State,
    (s.port.receiver = .hunting →
      exec (.frameBegins 0x7E) s = .next (finish (setPort s fun p => { p with receiver := .receiving }))) ∧
    (∀ b : Byte, b ≠ 0x7E ∨ s.port.receiver = .receiving → exec (.frameBegins b) s = .next (finish s)) ∧
    (∀ why : Corruption,
      exec (.corruptFrame why) s = .next (finish (setPort s fun p => { p with receiver := .hunting }))) ∧
    exec .framePauseTimeout s = .next (finish (setPort s fun p => { p with receiver := .hunting }))) ∧
  (∀ (s : State) (f : TxFrame), s.port.tx = some f →
    exec .frameSent s = .next (finish (setPort (match f with
      | .reply r => if r.busy = true then setPort s fun p => { p with busy := false }
        else setPort s fun p => { p with inService := none }
      | .passReply m st pl =>
        if s.bus.slot = .answered m st pl then setBus s fun b => { b with slot := .empty } else s
      | .alert _ => s
      | .report _ => s) fun p => { p with tx := none }))) ∧
  ∀ s : State,
    (s.port.tx ≠ none → kick s = s) ∧
    (s.port.tx = none →
      (∀ (r : Reply) (rest : List Reply), s.port.replies = r :: rest →
        kick s = setPort s fun p => { p with tx := some (.reply r), replies := rest }) ∧
      (s.port.replies = [] →
        (∀ a : Alert, s.port.alert = some a →
          kick s = setPort s fun p => { p with tx := some (.alert a), alert := none }) ∧
        (s.port.alert = none →
          (∀ (m : PassMsg) (st : PassStatus) (pl : List Byte), s.bus.slot = .answered m st pl →
            kick s = setPort s fun p => { p with tx := some (.passReply m st pl) }) ∧
          ((∀ (m : PassMsg) (st : PassStatus) (pl : List Byte), s.bus.slot ≠ .answered m st pl) →
            (∀ (r : Report) (rest : List Report), s.bus.queue = r :: rest →
              kick s = setPort (setBus s fun b => { b with queue := rest }) fun p => { p with tx := some (.report r) }) ∧
            (s.bus.queue = [] → kick s = s)))))

/-- With 25 out-of-band periods and the fault not raised, MAINS_FREQUENCY_RAISE raises it and the timebase is
SUBSTITUTE, with the substitute phase 0 where it was LOCKED; with 250 in-band periods and the fault raised,
MAINS_FREQUENCY_CLEAR clears it and the timebase is LOCKED unless a gap is in progress; in a gap,
MAINS_INTERRUPTION_RAISE raises MAINS_INTERRUPTION; and at the 50th window start counted after a gap,
MAINS_INTERRUPTION_CLEAR clears it and the count ends. That MAINS_INTERRUPTION_RAISE asks for a gap in progress alone
is the model's choice (log entry 2). (R94, R95, R96.) -/
def Obligations.MainsFaults : Prop :=
  ∀ s : State,
    (25 ≤ s.mains.outOfBand → s.mains.freqRaised = false →
      exec .mainsFrequencyRaise s = .next (finish (raise { s with mains := { s.mains with
        freqRaised := true, timebase := .substitute
        subPhase := if s.mains.timebase = .locked then 0 else s.mains.subPhase } } .mainsFrequency 0 .absent))) ∧
    (250 ≤ s.mains.inBand → s.mains.freqRaised = true →
      exec .mainsFrequencyClear s = .next (finish (clear { s with mains := { s.mains with
        freqRaised := false, timebase := if s.mains.gap = true then .substitute else .locked } } .mainsFrequency 0))) ∧
    (s.mains.gap = true →
      exec .mainsInterruptionRaise s = .next (finish (raise { s with mains := { s.mains with interRaised := true } }
        .mainsInterruption 0 .absent))) ∧
    (∀ n : Nat, s.mains.interRaised = true → s.mains.sinceGap = some n → 50 ≤ n →
      exec .mainsInterruptionClear s = .next (finish (clear { s with mains := { s.mains with
        interRaised := false, sinceGap := none } } .mainsInterruption 0)))

/-- MAINS_EDGE with a period of p microseconds ends a gap and makes the edge the last one. After a gap at or beyond
the restart threshold, PLAN and DIRECT_DRIVE with no departure or one to START_RED, START_FLASH and START_RED go to
START_FLASH with reason MAINS; a departure to FLASH or DARK that waits is completed at once, with the exit after it
where it is the schedule's and schedule mode is PLAN again; FLASH and DARK stay. That a mains return completes such a
departure as R82 and R83 do is the model's reading (log entry 20). Then, also after a shorter gap, every miss count,
on-run and last window taken in is cleared, and the window start at the edge, if it starts one, comes last (the
model's choice, log entry 53). With no gap in progress the period is counted as in band (18868 to 21276 at 50 Hz,
15874 to 17543 at 60 Hz) or out of band, with the other count set to 0; an edge that ends a gap is not counted, and
the count after the gap starts at 0 without the window start of that edge (the model's reading, log entry 23). The
window sequence advances exactly when the edge lies at least half a nominal period after the last window start and
either ends a gap with MAINS_FREQUENCY not raised, or finds the timebase LOCKED and neither raises nor clears
MAINS_FREQUENCY; otherwise no window starts. A window so started without a gap starts at the edge, as one that counts
after a gap. That an edge raising or clearing the fault starts no window is the model's reading (log entry 24). That
an edge is judged from time 0 when no window has started yet is its choice (log entry 22). (R94, R95, R96, R108, R90,
R112, R128, R83.) -/
def Obligations.EdgesCounted : Prop :=
  (∀ (s : State) (p : Nat), ∃ t : State, exec (.mainsEdge p) s = .next t ∧
    t.mains.gap = false ∧ t.mains.lastEdge = s.mains.lastEdge + p ∧
    (s.mains.gap = true → t.mains.outOfBand = s.mains.outOfBand ∧ t.mains.inBand = s.mains.inBand) ∧
    (s.mains.gap = false →
      (inBand s p = true → t.mains.outOfBand = 0 ∧ t.mains.inBand = min 250 (s.mains.inBand + 1)) ∧
      (inBand s p = false → t.mains.inBand = 0 ∧ t.mains.outOfBand = min 25 (s.mains.outOfBand + 1))) ∧
    (inBand s p = true ↔ if s.tables.startUp.mains = 1 then 15874 ≤ p ∧ p ≤ 17543 else 18868 ≤ p ∧ p ≤ 21276) ∧
    (s.mains.lastWindow.getD 0 + (if s.tables.startUp.mains = 1 then 8333 else 10000) ≤ s.mains.lastEdge + p ∧
        ((s.mains.gap = true ∧ s.mains.freqRaised = false) ∨
         (s.mains.gap = false ∧ s.mains.timebase = .locked ∧
          ¬ (inBand s p = false ∧ s.mains.freqRaised = false ∧ 25 ≤ s.mains.outOfBand + 1) ∧
          ¬ (inBand s p = true ∧ s.mains.freqRaised = true ∧ 250 ≤ s.mains.inBand + 1))) →
      t.bus.seq = (s.bus.seq + 1) % 255 ∧ t.mains.lastWindow = some (s.mains.lastEdge + p)) ∧
    (¬ (s.mains.lastWindow.getD 0 + (if s.tables.startUp.mains = 1 then 8333 else 10000) ≤ s.mains.lastEdge + p ∧
        ((s.mains.gap = true ∧ s.mains.freqRaised = false) ∨
         (s.mains.gap = false ∧ s.mains.timebase = .locked ∧
          ¬ (inBand s p = false ∧ s.mains.freqRaised = false ∧ 25 ≤ s.mains.outOfBand + 1) ∧
          ¬ (inBand s p = true ∧ s.mains.freqRaised = true ∧ 250 ≤ s.mains.inBand + 1)))) →
      t.bus.seq = s.bus.seq ∧ t.mains.lastWindow = s.mains.lastWindow) ∧
    (s.mains.gap = true → ∃ v w x : State,
      v = { s with
        moment := .between
        mains := { s.mains with
          gap := false, lastEdge := s.mains.lastEdge + p, sinceGap := some 0
          timebase := if s.mains.freqRaised = true then .substitute else .locked } } ∧
      (p / 1000 < 100 * s.tables.startUp.restart → w = v) ∧
      (100 * s.tables.startUp.restart ≤ p / 1000 →
        (s.jm.mode = .flash ∨ s.jm.mode = .dark → w = v) ∧
        (s.jm.mode = .startFlash ∨ s.jm.mode = .startRed → w = enterMode v .startFlash .mains) ∧
        (s.jm.mode = .plan ∨ s.jm.mode = .directDrive →
          (s.jm.departure = none ∨ (∃ r : Reason, s.jm.departure = some ⟨.startRed, r⟩) →
            w = enterMode v .startFlash .mains) ∧
          ∀ (d : Dest) (r : Reason) (m : Mode), s.jm.departure = some ⟨d, r⟩ →
            (d = .flash ∧ m = .flash) ∨ (d = .dark ∧ m = .dark) →
            (r ≠ .schedule ∨ s.jm.schedMode ≠ .plan → w = enterMode v m r) ∧
            (r = .schedule → s.jm.schedMode = .plan → demandedNow s = .none →
              w = enterMode (enterMode v m .schedule) (if m = .flash then .startRed else .startFlash) .schedule))) ∧
      x = { settle w with
        bus := { (settle w).bus with units := x.bus.units }
        prov := { (settle w).prov with lastWin := x.prov.lastWin, circuits := x.prov.circuits } } ∧
      (∀ u : Fin 12, x.bus.units[u] = { s.bus.units[u] with miss := 0 } ∧ x.prov.lastWin[u] = none) ∧
      (∀ c : Fin 96, x.prov.circuits[c] = { s.prov.circuits[c] with onRun := 0 }) ∧
      exec (.mainsEdge p) s = .next (finish
        (if s.mains.freqRaised = false ∧
            s.mains.lastWindow.getD 0 + (if s.tables.startUp.mains = 1 then 8333 else 10000) ≤ s.mains.lastEdge + p then
          windowStart x (s.mains.lastEdge + p) false false
         else x)))) ∧
  ∀ (s : State) (p : Nat), s.mains.gap = false → s.mains.timebase = .locked →
    s.mains.lastWindow.getD 0 + (if s.tables.startUp.mains = 1 then 8333 else 10000) ≤ s.mains.lastEdge + p →
    ¬ (inBand s p = false ∧ s.mains.freqRaised = false ∧ 25 ≤ s.mains.outOfBand + 1) →
    ¬ (inBand s p = true ∧ s.mains.freqRaised = true ∧ 250 ≤ s.mains.inBand + 1) →
    exec (.mainsEdge p) s = .next (finish (windowStart
      { s with
        moment := .between
        mains := { s.mains with
          lastEdge := s.mains.lastEdge + p
          inBand := if inBand s p = true then min 250 (s.mains.inBand + 1) else 0
          outOfBand := if inBand s p = true then 0 else min 25 (s.mains.outOfBand + 1) } }
      (s.mains.lastEdge + p) false true))

/-- In SUBSTITUTE, SUBSTITUTE_WINDOW_START starts a window at the substitute interval after the last one (the first at
the end of POR: choice, log entry 22), and at 60 Hz advances the substitute phase from 2 to 0; in LOCKED it changes
nothing. MAINS_GAP_BEGIN with no gap in progress begins one and ends the count after a gap, the timebase is
SUBSTITUTE, every on-run and last window is cleared, and from LOCKED a window starts at that moment, the phase 0 after
it (choice, log entry 41); with a gap in progress it changes nothing (these two nothings: choice, log entry 2). A
window start closes the round before it, what is outstanding being missed (the model's reading, log entry 9) and a
PASS listened for becoming TIMEOUT; advances the sequence from 254 back to 0; with the effective source MAINS (no
longer at a gap's beginning: reading, log entry 23) advances the clock by 20 ms, at 60 Hz by 17, 17 and 16 ms by the
phase count; advances the count after a gap, and at 50 clears MAINS_INTERRUPTION; takes the observed-green counts;
advances the window count, which at every fifth window start (sixth at 60 Hz) goes to 0, and then alone takes the work
of DECISECOND_PULSE; and, while the bus runs, judges DIM_UNLEARNED and begins (the order being the model's reading,
log entry 11) the next round, which polls the units ADMITTED, ascending, then every 50th window (60th at 60 Hz) calls
those EXPECTED, MISMATCH or LOST, and makes a waiting PASS due. Each unit not UNUSED is judged for DIM_UNLEARNED,
which is held, and raised or cleared as it changes, while DIM is the effective demand and a proving-enabled circuit of
the unit in the map has no DIM reference and is not LEARNING in the DIM tap; with the bus silent, and with no window
start, it stays. That it is judged after the pulse and before the first DRIVE frame, groups and units ascending, is
the model's choice (log entries 64 and 50), that 1 is yes its reading (log entry 13). (R95, R96, R97, R98, R108, R109,
R115, R119, R128.) -/
def Obligations.SubstituteWindows : Prop :=
  (∀ (s t : State) (c : Instr), ((∃ p : Nat, c = .mainsEdge p) ∨ c = .mainsGapBegin ∨ c = .substituteWindowStart) →
    exec c s = .next t → ∀ u : Fin 12,
      (t.bus.seq = s.bus.seq ∨ s.jm.started = false ∨ s.bus.units[u].state = .unused →
        t.bus.units[u].dimRaised = s.bus.units[u].dimRaised) ∧
      (t.bus.seq ≠ s.bus.seq → s.jm.started = true → s.bus.units[u].state ≠ .unused →
        (t.bus.units[u].dimRaised = true ↔ t.sched.effDim = .dim ∧ ∃ (k : Fin 8) (d : Fin 96),
          circuitAt s u k = some d ∧ s.tables.circuit[d].proving = 1 ∧ s.tables.reference[d].dim.held ≠ 1 ∧
          ¬ (s.prov.learn[d].state = .learning ∧ s.prov.learn[d].tap = .dim)))) ∧
  (∀ (s : State) (u : Fin 12) (bad : Prop), s.bus.units[u].state ≠ .unused →
    (bad ↔ s.sched.effDim = .dim ∧ ∃ (k : Fin 8) (d : Fin 96),
      circuitAt s u k = some d ∧ s.tables.circuit[d].proving = 1 ∧ s.tables.reference[d].dim.held ≠ 1 ∧
      ¬ (s.prov.learn[d].state = .learning ∧ s.prov.learn[d].tap = .dim)) →
    (bad → s.bus.units[u].dimRaised = false → judgeDim s u = raise { s with
      bus := { s.bus with units := put s.bus.units u { s.bus.units[u] with dimRaised := true } } }
      .dimUnlearned (num u) .absent) ∧
    (¬ bad → s.bus.units[u].dimRaised = true → judgeDim s u = clear { s with
      bus := { s.bus with units := put s.bus.units u { s.bus.units[u] with dimRaised := false } } }
      .dimUnlearned (num u)) ∧
    ((bad ↔ s.bus.units[u].dimRaised = true) → judgeDim s u = s)) ∧
  (∀ s : State,
    (s.mains.timebase = .locked → exec .substituteWindowStart s = .next (finish s)) ∧
    (s.mains.timebase = .substitute → ∃ t : State, exec .substituteWindowStart s = .next t ∧
      t.bus.seq = (s.bus.seq + 1) % 255 ∧
      t.mains.windowCount =
        (if (if s.tables.startUp.mains = 1 then 6 else 5) ≤ s.mains.windowCount + 1 then 0 else s.mains.windowCount + 1) ∧
      t.mains.lastWindow = (match s.mains.lastWindow with
        | none => some 0
        | some w => some (w + if s.tables.startUp.mains = 1 then (if s.mains.subPhase = 2 then 16000 else 17000)
            else 20000)) ∧
      t.mains.subPhase = (if s.tables.startUp.mains = 1 then (s.mains.subPhase + 1) % 3 else s.mains.subPhase) ∧
      t.mains.timebase = .substitute ∧ t.tables = s.tables) ∧
    (s.mains.gap = true → exec .mainsGapBegin s = .next (finish s)) ∧
    (s.mains.gap = false → ∃ t : State, exec .mainsGapBegin s = .next t ∧
      t.mains.gap = true ∧ t.mains.sinceGap = none ∧
      (s.mains.timebase = .locked → t.mains.timebase = .substitute ∧ t.bus.seq = (s.bus.seq + 1) % 255) ∧
      (s.mains.timebase = .substitute → t.mains.timebase = .substitute ∧ t.bus.seq = s.bus.seq) ∧
      t.tables = s.tables)) ∧
  (∀ (s : State) (t : Nat) (gap counted sixtyHz : Bool), sixtyHz = decide (s.tables.startUp.mains = 1) →
    ∃ a b d e f h : State,
      a = times 12 timeoutOutstanding (times 12 missOutstanding s) ∧
      b = { a with
        mains := { a.mains with lastWindow := some t }
        bus := { a.bus with
          seq := (a.bus.seq + 1) % 255, lastInGap := a.bus.windowInGap || gap, windowInGap := a.mains.gap
          round := State.reset.bus.round, sent := []
          slot := match a.bus.slot with
            | .listening m => .answered m .timeout []
            | x => x } } ∧
      d = (if effSource b = .crystal then b
        else if sixtyHz = true then advanceClock
          { b with clock := { b.clock with phase60 := (b.clock.phase60 + 1) % 3 } } (if b.clock.phase60 = 2 then 16 else 17)
        else advanceClock b 20) ∧
      (counted = false → e = d) ∧
      (counted = true → ∃ x : State,
        x = { d with mains := { d.mains with sinceGap := d.mains.sinceGap.map fun n => min 50 (n + 1) } } ∧
        (x.mains.interRaised = true → x.mains.sinceGap = some 50 →
          e = clear { x with mains := { x.mains with interRaised := false, sinceGap := none } } .mainsInterruption 0) ∧
        (x.mains.interRaised = false ∨ (∀ n : Nat, x.mains.sinceGap = some n → n < 50) → e = x)) ∧
      f = (idx 32).foldl greenGroup e ∧
      (f.mains.windowCount + 1 < (if sixtyHz = true then 6 else 5) → h = { f with
        mains := { f.mains with windowCount := f.mains.windowCount + 1 }, moment := .window false }) ∧
      ((if sixtyHz = true then 6 else 5) ≤ f.mains.windowCount + 1 → ∃ p : State,
        p = pulse { f with mains := { f.mains with windowCount := 0 } } ∧
        exec .decisecondPulse { f with mains := { f.mains with windowCount := 0 } } = .next (finish p) ∧
        h = { p with moment := .window (decide (p.moment = .pulse)) }) ∧
      (h.jm.started = false → windowStart s t gap counted = h) ∧
      (h.jm.started = true → ∃ (j k : State) (due : Bool) (polls rolls : List (Fin 12)),
        j = (idx 12).foldl judgeDim h ∧
        (due = true ↔ (if sixtyHz = true then 60 else 50) ≤ min 60 (j.bus.sinceRoll + 1)) ∧
        polls = ((idx 12).filter fun u => decide (j.bus.units[u].state = .admitted)) ∧
        rolls = (if due = true then (idx 12).filter fun u => decide (j.bus.units[u].state = .expected ∨
          j.bus.units[u].state = .mismatch ∨ j.bus.units[u].state = .lost) else []) ∧
        k = { j with bus := { j.bus with
          sinceRoll := if due = true then 0 else min 60 (j.bus.sinceRoll + 1)
          slot := match j.bus.slot with
            | .waiting m _ => .waiting m true
            | x => x
          round := ⟨true, polls, none, due, [], none, false⟩ } } ∧
        (∀ (u : Fin 12) (rest : List (Fin 12)), polls = u :: rest → windowStart s t gap counted =
          compose { k with bus := { k.bus with round := ⟨true, rest, some u, due, [], none, false⟩ } } u) ∧
        (∀ (u : Fin 12) (rest : List (Fin 12)), polls = [] → rolls = u :: rest → windowStart s t gap counted =
          { k with bus := { k.bus with
            round := ⟨true, [], none, false, rest, some u, false⟩, sent := k.bus.sent ++ [.rollCall u] } }) ∧
        (polls = [] → rolls = [] → windowStart s t gap counted =
          { k with bus := { k.bus with
            round := ⟨true, [], none, false, [], none, true⟩
            slot := match k.bus.slot with
              | .waiting m _ => .answered m .abandoned []
              | x => x } }))) ∧
  ∀ s : State,
    (s.mains.timebase = .substitute → exec .substituteWindowStart s = .next (finish (windowStart { s with
      mains := { s.mains with
        subPhase := if s.tables.startUp.mains = 1 then (s.mains.subPhase + 1) % 3 else s.mains.subPhase } }
      (match s.mains.lastWindow with
        | none => 0
        | some w => w + if s.tables.startUp.mains = 1 then (if s.mains.subPhase = 2 then 16000 else 17000) else 20000)
      false true))) ∧
    (s.mains.gap = false → s.mains.timebase = .substitute → ∃ x : State,
      x = { s with
        mains := { s.mains with gap := true, sinceGap := none }
        prov := { s.prov with lastWin := Vector.replicate 12 none, circuits := x.prov.circuits } } ∧
      (∀ c : Fin 96, x.prov.circuits[c] = { s.prov.circuits[c] with onRun := 0 }) ∧
      exec .mainsGapBegin s = .next (finish x)) ∧
    (s.mains.gap = false → s.mains.timebase = .locked → ∃ x : State,
      x = { s with
        mains := { s.mains with gap := true, sinceGap := none, timebase := .substitute, subPhase := 0 }
        prov := { s.prov with lastWin := Vector.replicate 12 none, circuits := x.prov.circuits } } ∧
      (∀ c : Fin 96, x.prov.circuits[c] = { s.prov.circuits[c] with onRun := 0 }) ∧
      exec .mainsGapBegin s = .next (finish (windowStart x
        (s.mains.lastEdge + if s.tables.startUp.mains = 1 then 25000 else 30000) true true)))

/-- DECISECOND_PULSE first advances by 1, up to its limit: both timers of each group and the mode and silence timers
(a fresh one only loses its mark, and time since GREEN ended is 0 in GREEN), the time in step of each flash run (which
steps when its step has run), the engine's minimum and maximum elapsed once its stage has started, the active time of
each ACTIVE timed input, the time since test of each mapped circuit and the retry timer of one in RETRY_WAIT. Then, in
this order: the retry releases, the clean-on timers of NORMAL circuits commanded ON, the trip clears, stuck inputs,
the end of START_FLASH, of START_RED, START_PROVING_TIMEOUT, link silence, the timed ends of aspects, the releases,
the engine. That the mode timer advances in the modes that do not read it is the model's reading (log entry 16). The
order of the blocks is the model's reading (log entry 10). The minimum and maximum elapsed standing still while no
stage is on (log entry 51), the stuck inputs in ascending number (log entry 50), a clean-on timer at or above a
lowered limit left where it stands (log entry 54), and the engine's own targets coming after the monitor's work (log
entry 59) are the model's choices. The tables, the circuit map, the clock, the mains supervisor, the schedule, the
observed-green fields, the started flag, the waiting commands and everything of the field bus but its report queue are
as they were (that the window count is among them is the model's choice, log entry 2), no input changes its debounced
state, and at the end no pulse is being taken and the pulse stands, unless a STOP the engine has just handed makes the
end of a held GREEN due, which waits for the next pulse (the model's choice, log entry 2). (R97, R21, R22, R50, R54,
R74, R77, R78, R87, R92, R146, R153.) -/
def Obligations.PulseAdvances : Prop :=
  ∀ s : State,
    (∃ v x y : State,
      v = { s with
        groups := v.groups, junctionRun := v.junctionRun, clearRuns := v.clearRuns, jm := v.jm, eng := v.eng
        inputs := v.inputs, cable := v.cable, inPulse := true } ∧
      (∀ g : Fin 32, v.groups[g] = { s.groups[g] with
        inAspect := if s.groups[g].inAspectFresh then s.groups[g].inAspect else min 65535 (s.groups[g].inAspect + 1)
        inAspectFresh := false
        sinceGreen := if s.groups[g].aspect = .green then 0
          else if s.groups[g].sinceGreenFresh then s.groups[g].sinceGreen else min 65535 (s.groups[g].sinceGreen + 1)
        sinceGreenFresh := false }) ∧
      (∀ g : Fin 32, v.clearRuns[g].isSome = s.clearRuns[g].isSome) ∧
      (∀ r r' : Run, ((r = s.junctionRun ∧ r' = v.junctionRun) ∨
          ∃ g : Fin 32, s.clearRuns[g] = some r ∧ v.clearRuns[g] = some r') →
        r' = if r.fresh then { r with fresh := false }
          else if (runSlot s r).duration ≤ min 50 (r.time + 1) then
            { r with step := if r.step + 1 < (patternAt s r.pattern).steps then r.step + 1 else 0, time := 0 }
          else { r with time := min 50 (r.time + 1) }) ∧
      v.jm = { s.jm with
        timer := if s.jm.timerFresh then s.jm.timer else min 65535 (s.jm.timer + 1), timerFresh := false
        silence := if s.jm.silenceFresh then s.jm.silence else min 65535 (s.jm.silence + 1), silenceFresh := false } ∧
      v.eng = (if s.eng.stageOn then { s.eng with
        minElapsed := min 65535 (s.eng.minElapsed + 1), maxElapsed := s.eng.maxElapsed.map fun n => min 65535 (n + 1) }
        else s.eng) ∧
      (∀ e : Fin 64, v.inputs[e] = if timedInput s e = true ∧ s.inputs[e].active = true
        then { s.inputs[e] with activeTime := min 36000 (s.inputs[e].activeTime + 1) } else s.inputs[e]) ∧
      v.cable.leak = s.cable.leak ∧
      (∀ c : Fin 96, v.cable.circuits[c] =
        if inMap s c = false then s.cable.circuits[c]
        else if s.cable.circuits[c].retry = .retryWait then { s.cable.circuits[c] with
          sinceTest := min 65535 (s.cable.circuits[c].sinceTest + 1)
          retryTimer := if s.cable.circuits[c].retryFresh then s.cable.circuits[c].retryTimer
            else min 100 (s.cable.circuits[c].retryTimer + 1)
          retryFresh := false }
        else { s.cable.circuits[c] with sinceTest := min 65535 (s.cable.circuits[c].sinceTest + 1) }) ∧
      x = { (mapped v).foldl takeRelease v with cable := x.cable } ∧
      x.cable.leak = ((mapped v).foldl takeRelease v).cable.leak ∧
      (∀ c : Fin 96, x.cable.circuits[c] =
        if inMap s c = true ∧ ((mapped v).foldl takeRelease v).cable.circuits[c].retry = .normal ∧
          lastCommandedOn s c = true ∧
          ((mapped v).foldl takeRelease v).cable.circuits[c].cleanOn < s.tables.cable.tripClear
        then { ((mapped v).foldl takeRelease v).cable.circuits[c] with
          cleanOn := ((mapped v).foldl takeRelease v).cable.circuits[c].cleanOn + 1 }
        else ((mapped v).foldl takeRelease v).cable.circuits[c]) ∧
      y = settle (enginePulse (settle (judgeReleases (settle (takeTimedEnds
        (settle (takeSilent (settle (takeProvingTimeout (takeStartRedEnd (settle (takeStartFlashEnd
          ((idx 64).foldl takeStuck ((mapped v).foldl takeTripClear x))))))))))))) s.eng.stageOn) ∧
      exec .decisecondPulse s = .next (finish { y with
        inPulse := false
        moment := if ∃ g : Fin 32, live y g = true ∧ y.groups[g].aspect = .green ∧ y.groups[g].target = .stop ∧
          y.tables.group[g].safetyMin ≤ y.groups[g].inAspect then .between else .pulse })) ∧
    ∃ t : State, exec .decisecondPulse s = .next t ∧ t.inPulse = false ∧
    (t.moment = .pulse ∨ t.moment = .between) ∧ t.tables = s.tables ∧
    t.map = s.map ∧ t.clock = s.clock ∧ t.mains = s.mains ∧ t.sched = s.sched ∧ t.pending = s.pending ∧
    t.jm.started = s.jm.started ∧ t.bus = { s.bus with queue := t.bus.queue } ∧
    (∀ g : Fin 32, marksOf t.groups[g] = marksOf s.groups[g]) ∧
    (∀ e : Fin 64, t.inputs[e].active = s.inputs[e].active ∧
      t.inputs[e].activeTime = if timedInput s e = true ∧ s.inputs[e].active = true
        then min 36000 (s.inputs[e].activeTime + 1) else s.inputs[e].activeTime) ∧
    ∀ c : Fin 96, t.cable.circuits[c].sinceTest =
      if inMap s c = true then min 65535 (s.cable.circuits[c].sinceTest + 1) else s.cable.circuits[c].sinceTest

/-- With no exchange awaited SENSE_RECEIVED changes nothing. With unit u awaited, a frame with a bad CRC, a bad size,
another address or another window number than the expected one acts exactly as SENSE_MISS of u. A valid frame sets the
miss count to 0 unless a gap is in progress or the window is a gap window; outside gap windows it becomes the last
window taken in from u with its tap, and its OVERTEMP flag advances one overtemp count and sets the other to 0; in a
gap window it leaves them, and resolves the unit's tests in flight without a result and does nothing else. Outside gap
windows the samples, put into terminal order by the report order, go through the stages lamp proving, cable
supervision, the OVERTEMP flag (FIU_OVERTEMP held from run 10 until quiet 50), the inputs and the sense report, in
that order, and the frame then stands with what it judged, learned, tested and judged for observed lit; a frame of a
gap window does not stand (the model's choice, log entry 2). That a frame nobody awaits is not taken is the model's
reading (log entry 25). (R112, R116, R117, R126, R7, R148.) -/
def Obligations.SenseTaken : Prop :=
  ∀ (s : State) (f : SenseFrame),
    (s.bus.round.awaiting = none → exec (.senseReceived f) s = .next (finish s)) ∧
    ∀ u : Fin 12, s.bus.round.awaiting = some u →
      (¬ (f.crcGood = true ∧ f.sizeGood = true ∧ f.unit = num u ∧ f.window =
          if (logOf s u ((s.bus.seq + 254) % 255)).isSome = true then (s.bus.seq + 254) % 255 else 255) →
        exec (.senseReceived f) s = exec (.senseMiss u) s) ∧
      (f.crcGood = true → f.sizeGood = true → f.unit = num u → f.window =
          (if (logOf s u ((s.bus.seq + 254) % 255)).isSome = true then (s.bus.seq + 254) % 255 else 255) →
        ∃ t : State, exec (.senseReceived f) s = .next t ∧
          t.bus.units[u].miss =
            (if s.mains.gap = true ∨ s.bus.lastInGap = true then s.bus.units[u].miss else 0) ∧
          (s.bus.lastInGap = true ∨ s.bus.windowInGap = true →
            t.prov.lastWin[u] = s.prov.lastWin[u] ∧ t.bus.units[u].hotRun = s.bus.units[u].hotRun ∧
            t.bus.units[u].hotQuiet = s.bus.units[u].hotQuiet) ∧
          (s.bus.lastInGap = false → s.bus.windowInGap = false →
            t.prov.lastWin[u] = some (f.window, f.tap) ∧
            t.bus.units[u].hotRun = (if f.overtemp = true then min 10 (s.bus.units[u].hotRun + 1) else 0) ∧
            t.bus.units[u].hotQuiet = (if f.overtemp = true then 0 else min 50 (s.bus.units[u].hotQuiet + 1)) ∧
            (t.bus.units[u].hotRaised = true ↔
              (s.bus.units[u].hotRaised = true ∨ (f.overtemp = true ∧ 10 ≤ s.bus.units[u].hotRun + 1)) ∧
              (f.overtemp = true ∨ s.bus.units[u].hotQuiet + 1 < 50))) ∧
          ∃ w : State, w.moment = (if s.bus.lastInGap = true ∨ s.bus.windowInGap = true then .between
              else .frame u
                { judged := judgedBy s u f (tab fun p => f.samples[(reportOrder s u).pos p])
                  learned := learnedBy s u f (tab fun p => f.samples[(reportOrder s u).pos p])
                  tested := testedBy s u ((s.bus.seq + 254) % 255) (tab fun p => f.samples[(reportOrder s u).pos p])
                  lit := litBy s u f.window (tab fun p => f.samples[(reportOrder s u).pos p]) }) ∧
            w = { s with
              moment := w.moment
              bus := { s.bus with units := put s.bus.units u { s.bus.units[u] with
                miss := if s.mains.gap = true ∨ s.bus.lastInGap = true then s.bus.units[u].miss else 0 } } } ∧
            (s.bus.lastInGap = false → s.bus.windowInGap = false →
              exec (.senseReceived f) s = .next (finish (exchangeOver (forward (takeInputs (takeFlags (superviseFrame
                (proveFrame w u f (tab fun p => f.samples[(reportOrder s u).pos p])) u ((s.bus.seq + 254) % 255) f
                (tab fun p => f.samples[(reportOrder s u).pos p])) u f) u f) u f)))) ∧
            (s.bus.lastInGap = true ∨ s.bus.windowInGap = true → ∃ x : State,
              exec (.senseReceived f) s = .next (finish (exchangeOver x)) ∧
              x = { w with cable := x.cable } ∧ x.cable.leak = s.cable.leak ∧
              ∀ c : Fin 96,
                ((∃ p : Fin 8, circuitAt s u p = some c) →
                  s.cable.circuits[c].inFlight = some ((s.bus.seq + 254) % 255) →
                  x.cable.circuits[c] = { s.cable.circuits[c] with inFlight := none }) ∧
                ((∀ p : Fin 8, circuitAt s u p ≠ some c) ∨
                    s.cable.circuits[c].inFlight ≠ some ((s.bus.seq + 254) % 255) →
                  x.cable.circuits[c] = s.cable.circuits[c])))

/-- For a circuit c on terminal t of unit u alone, at the proving stage of a frame: commanded ON in the window by the
log, DRIVEN and without OVC, its on-run is 1, or one more up to 3 where the last window taken in is the one before
with the same tap; otherwise 0. The window is eligible when the log has c ON in it and in the one before, the on-run
is at the settling count (3 for LED_CP, else 2) and c is not forced off. Ineligible, the on-run alone changes.
Eligible, the last measurement is taken with its window verdict and q; SUPPLY_OOR changes neither verdict nor
candidate; a verdict that agrees (PARTIAL with PARTIAL) is taken, with no candidate; one that does not starts a
candidate at run 1 or advances its run, and at the fail confirm count (recover confirm for OK and PRESENT) becomes the
verdict, with its lamp fault. A circuit LEARNING at the tap takes the pair of Isum and Vsup into its ring of 8, and
with the count at N_min and the ring full converges, fails or goes on by R139. Every other circuit, the rest of the
tables, the field bus, cable supervision, the inputs and the clock are as they were, the unit's last window is this
one with its tap, and every red status is formed afresh. The circuits judged by the frame are those eligible with a
window verdict, and those learned by it those eligible and LEARNING at its tap. That a circuit is judged for its
verdict first and for learning after it, so that a learning that ends DONE drops the candidate just formed, and that
red status is formed after all the circuits, is the model's reading (log entry 27). A circuit on two terminals of the
unit, which no map the part builds holds, is left out. That 1 is yes in the proving enable and in a part held is its
reading too (log entry 13). (R126, R127, R134, R135, R138, R139, R143.) -/
def Obligations.FrameProved : Prop :=
  ∀ (s r : State) (u : Fin 12) (f : SenseFrame) (xs : Vector Sample 8) (on : Nat → Fin 8 → Prop)
    (same : Verdict → Verdict → Prop), r = proveFrame s u f xs →
    (∀ (v : Nat) (t : Fin 8), on v t ↔ ∃ w : WinRec,
      s.bus.units[u].log.find? (fun w => decide (w.window = v)) = some w ∧ mem w.on t.val = true) →
    (∀ a b : Verdict, same a b ↔ a = b ∨ ∃ m n : Nat, a = .partialOf m ∧ b = .partialOf n) →
    r.prov.lastWin = put s.prov.lastWin u (some (f.window, f.tap)) ∧ r.bus = s.bus ∧ r.cable = s.cable ∧
    r.map = s.map ∧ r.clock = s.clock ∧ r.inputs = s.inputs ∧
    r.tables = { s.tables with reference := r.tables.reference } ∧
    (∀ g : Fin 32, r.prov.red[g] = redStatusNow r g) ∧
    (∀ d : Fin 96, (∀ t : Fin 8, circuitAt s u t ≠ some d) →
      r.prov.circuits[d] = s.prov.circuits[d] ∧ r.prov.learn[d] = s.prov.learn[d] ∧
      r.tables.reference[d] = s.tables.reference[d] ∧ d ∉ judgedBy s u f xs ∧ d ∉ learnedBy s u f xs) ∧
    ∀ (t : Fin 8) (c : Fin 96) (n : Nat) (e : Prop), circuitAt s u t = some c →
      (∀ t' : Fin 8, circuitAt s u t' = some c → t' = t) →
      (on f.window t ∧ xs[t].driven = true ∧ xs[t].ovc = false →
        (f.window ≠ 255 ∧ s.prov.lastWin[u] = some ((f.window + 254) % 255, f.tap) →
          n = min 3 (s.prov.circuits[c].onRun + 1)) ∧
        (¬ (f.window ≠ 255 ∧ s.prov.lastWin[u] = some ((f.window + 254) % 255, f.tap)) → n = 1)) →
      (¬ (on f.window t ∧ xs[t].driven = true ∧ xs[t].ovc = false) → n = 0) →
      (e ↔ on f.window t ∧ f.window ≠ 255 ∧ on ((f.window + 254) % 255) t ∧
        (if s.tables.circuit[c].loadClass = 2 then 3 else 2) ≤ n ∧ s.cable.circuits[c].retry = .normal) →
      (c ∈ judgedBy s u f xs ↔ e ∧ (judgeWindow s c f.tap xs[t].isum f.vsup).1 ≠ none) ∧
      (c ∈ learnedBy s u f xs ↔ e ∧ s.prov.learn[c].state = .learning ∧ s.prov.learn[c].tap = f.tap) ∧
      (¬ e → r.prov.circuits[c] = { s.prov.circuits[c] with onRun := n } ∧ r.prov.learn[c] = s.prov.learn[c] ∧
        r.tables.reference[c] = s.tables.reference[c]) ∧
      (e → ∀ (w : Option Verdict) (q : Option Nat) (p : ProvRec), (w, q) = judgeWindow s c f.tap xs[t].isum f.vsup →
        p = { s.prov.circuits[c] with onRun := n, last := some ⟨f.window, f.tap, xs[t].isum, f.vsup, w, q⟩ } →
        ∃ p' : ProvRec,
          (w = none → p' = p) ∧
          (∀ v : Verdict, w = some v → same v p.verdict → p' = { p with verdict := v, cand := none, run := 0 }) ∧
          (∀ (v : Verdict) (m k : Nat), w = some v → ¬ same v p.verdict →
            k = (if v = .ok ∨ v = .present then s.tables.proving.recoverConfirm else s.tables.proving.failConfirm) →
            ((∃ x : Verdict, p.cand = some x ∧ same v x) → m = min 200 (p.run + 1)) →
            ((∀ x : Verdict, p.cand = some x → ¬ same v x) → m = 1) →
            (m < k → p' = { p with cand := some v, run := m }) ∧
            (k ≤ m → p' = { p with
              verdict := v, cand := none, run := 0
              fault := match v with
                | .out => some .out
                | .absent => if s.tables.circuit[c].proving = 1 then some .out else none
                | .partialOf _ => some .part
                | .low => some .low
                | .high => some .high
                | .ok | .present | .unknown | .forced => none })) ∧
          (¬ (s.prov.learn[c].state = .learning ∧ s.prov.learn[c].tap = f.tap) →
            r.prov.circuits[c] = p' ∧ r.prov.learn[c] = s.prov.learn[c] ∧
            r.tables.reference[c] = s.tables.reference[c]) ∧
          (s.prov.learn[c].state = .learning → s.prov.learn[c].tap = f.tap → ∀ (l : LearnRec) (x : LearnResult),
            l = { s.prov.learn[c] with
              ring := (if s.prov.learn[c].ring.length = 8 then s.prov.learn[c].ring.tail else s.prov.learn[c].ring) ++
                [(xs[t].isum, f.vsup)]
              count := min 1000 (s.prov.learn[c].count + 1) } →
            x = ⟨((l.ring.map Prod.fst).sum + 4) / 8,
              (l.ring.map Prod.fst).foldl max 0 - (l.ring.map Prod.fst).foldl min 65535,
              ((l.ring.map Prod.snd).sum + 4) / 8⟩ →
            (l.count < l.nMin ∨ l.ring.length ≠ 8 → r.prov.circuits[c] = p' ∧ r.prov.learn[c] = l ∧
              r.tables.reference[c] = s.tables.reference[c]) ∧
            (l.nMin ≤ l.count → l.ring.length = 8 →
              (s.tables.proving.spread * x.mean < 1000 * x.spread →
                r.prov.circuits[c] = p' ∧ r.tables.reference[c] = s.tables.reference[c] ∧ r.prov.learn[c] =
                  if l.nMax ≤ l.count then { l with state := .failed, fail := some .unstable, result := some x } else l) ∧
              (1000 * x.spread ≤ s.tables.proving.spread * x.mean → x.mean < 32 ∨ x.vmean < 50 →
                r.prov.circuits[c] = p' ∧ r.tables.reference[c] = s.tables.reference[c] ∧
                r.prov.learn[c] = { l with
                  state := .failed, fail := some (if x.mean < 32 then .noLoad else .noSupply), result := some x }) ∧
              (1000 * x.spread ≤ s.tables.proving.spread * x.mean → 32 ≤ x.mean → 50 ≤ x.vmean →
                r.prov.circuits[c] = { p' with cand := none, run := 0 } ∧
                r.tables.reference[c] = (match l.tap with
                  | .bright => { s.tables.reference[c] with bright := ⟨1, x.mean, x.vmean⟩ }
                  | .dim => { s.tables.reference[c] with dim := ⟨1, x.mean, x.vmean⟩ }) ∧
                r.prov.learn[c] = { l with state := .done, result := some x }))))

/-- At the cable stage of a frame of unit u, v the window whose test it reports. For a circuit on terminal t of u
alone: a test in flight for v is resolved, and with TESTED its result is classed by the residual, recorded with time
since test 0, and judged: the class expected clears both cable faults and the candidate, HIGH of INCANDESCENT the
candidate alone, and OPEN or LOW of an LED class starts or advances a mismatch run, which at the confirm count holds
that fault and not the other. OVC of a NORMAL circuit counts a trip up to 11, sets clean-on to 0 and the verdict to
FORCED, and makes it RETRY_WAIT with the retry timer 0, or, beyond the most retries, LATCHED with OVERCURRENT held.
Judged for observed lit (OFF in the window and the one before, no test), a lit circuit advances its run and an unlit
one the quiet count of a raised fault: CROSS_FEED is held from the confirm count until quiet 25; a circuit ON has run
0. A GREEN circuit judged lit and not called for marks its group seen. Above the threshold the leakage advances u's
run and keeps the suspects ON in every window of it; otherwise the run ends and a raised fault counts quiet:
EARTH_LEAKAGE is held from the confirm count until the clear count. Circuits of other units, their leakage, the other
tables, the field bus and the learn records stay, and red status is formed afresh. The circuits tested by the frame
are those with a result, those lit by it those judged. A circuit on two terminals of the unit, which no map the part
builds holds, is left out of the clauses on one circuit. (R36, R148, R149, R150, R151, R152, R155, R156, R136, R143.)
-/
def Obligations.FrameSupervised : Prop :=
  ∀ (s r : State) (u : Fin 12) (v : Nat) (f : SenseFrame) (xs : Vector Sample 8) (on : Nat → Fin 8 → Prop)
    (judged lit : Fin 8 → Prop), r = superviseFrame s u v f xs →
    (∀ (w : Nat) (t : Fin 8), on w t ↔ ∃ x : WinRec,
      s.bus.units[u].log.find? (fun x => decide (x.window = w)) = some x ∧ mem x.on t.val = true) →
    (∀ t : Fin 8, judged t ↔ ¬ on f.window t ∧ ¬ (f.window ≠ 255 ∧ on ((f.window + 254) % 255) t) ∧
      xs[t].tested = false ∧ ∀ x : WinRec,
        s.bus.units[u].log.find? (fun x => decide (x.window = f.window)) = some x → mem x.test t.val = false) →
    (∀ t : Fin 8, lit t ↔ s.tables.cable.offCurrent < xs[t].isum ∨
      (if s.tables.cable.mode = 0 then s.tables.cable.vFix
       else if s.tables.cable.mode = 1 then s.tables.cable.ratio * f.vsup / 1000
       else min s.tables.cable.vFix (s.tables.cable.ratio * f.vsup / 1000)) < xs[t].vterm) →
    r.bus = s.bus ∧ r.tables = s.tables ∧ r.map = s.map ∧ r.clock = s.clock ∧ r.inputs = s.inputs ∧
    r.prov = { s.prov with circuits := r.prov.circuits, red := r.prov.red } ∧
    (∀ g : Fin 32, r.prov.red[g] = redStatusNow r g) ∧
    (∀ d : Fin 96, (∀ t : Fin 8, circuitAt s u t ≠ some d) →
      r.cable.circuits[d] = s.cable.circuits[d] ∧ r.prov.circuits[d] = s.prov.circuits[d]) ∧
    (∀ c : Fin 96,
      (c ∈ testedBy s u v xs ↔ s.cable.circuits[c].inFlight = some v ∧
        ∃ t : Fin 8, circuitAt s u t = some c ∧ xs[t].tested = true) ∧
      (c ∈ litBy s u f.window xs ↔ ∃ t : Fin 8, circuitAt s u t = some c ∧ judged t)) ∧
    (∀ g : Fin 32, { marksOf r.groups[g] with seen := false } = { marksOf s.groups[g] with seen := false } ∧
      (r.groups[g].seen = true ↔ s.groups[g].seen = true ∨ ∃ (t : Fin 8) (c : Fin 96),
        circuitAt s u t = some c ∧ judged t ∧ lit t ∧ s.tables.circuit[c].group = num g ∧
        s.tables.circuit[c].role = 2 ∧ ∀ x : WinRec,
          s.bus.units[u].log.find? (fun x => decide (x.window = f.window)) = some x → mem x.called t.val = false)) ∧
    (∀ k : Fin 12, k ≠ u → r.cable.leak[k] = s.cable.leak[k]) ∧
    (∀ n q : Nat,
      n = (if s.tables.cable.leakThreshold < f.leakage then min 50 (s.cable.leak[u].run + 1) else 0) →
      q = (if s.tables.cable.leakThreshold < f.leakage then 0
        else if s.cable.leak[u].raised = true then min 200 (s.cable.leak[u].quiet + 1) else s.cable.leak[u].quiet) →
      r.cable.leak[u].run = n ∧ r.cable.leak[u].quiet = q ∧
      (r.cable.leak[u].raised = true ↔ (s.cable.leak[u].raised = true ∨ s.tables.cable.leakConfirm ≤ n) ∧
        q < s.tables.cable.leakClear) ∧
      ∀ c : Fin 96, c ∈ r.cable.leak[u].suspects ↔ s.tables.cable.leakThreshold < f.leakage ∧
        (∃ t : Fin 8, circuitAt s u t = some c ∧ on f.window t) ∧ (n = 1 ∨ c ∈ s.cable.leak[u].suspects)) ∧
    ∀ (t : Fin 8) (c : Fin 96) (x y : CableRec), circuitAt s u t = some c →
      (∀ t' : Fin 8, circuitAt s u t' = some c → t' = t) → x = s.cable.circuits[c] → y = r.cable.circuits[c] →
      (x.inFlight ≠ some v → y.inFlight = x.inFlight) ∧ (x.inFlight = some v → y.inFlight = none) ∧
      (¬ (x.inFlight = some v ∧ xs[t].tested = true) →
        y.sinceTest = x.sinceTest ∧ y.lastTest = x.lastTest ∧ y.cand = x.cand ∧ y.mrun = x.mrun ∧
        y.openRaised = x.openRaised ∧ y.shortRaised = x.shortRaised) ∧
      (x.inFlight = some v → xs[t].tested = true → ∀ (k : TestClass) (led : Prop),
        k = (if s.tables.cable.openThreshold ≤ xs[t].residual then .isOpen
          else if xs[t].residual ≤ s.tables.cable.lowThreshold then .low else .high) →
        (led ↔ s.tables.circuit[c].loadClass = 1 ∨ s.tables.circuit[c].loadClass = 2) →
        y.sinceTest = 0 ∧ y.lastTest = some (xs[t].residual, k) ∧
        ((k = .low ∧ ¬ led) ∨ (k = .high ∧ led) →
          y.cand = none ∧ y.mrun = 0 ∧ y.openRaised = false ∧ y.shortRaised = false) ∧
        (k = .high → ¬ led →
          y.cand = none ∧ y.mrun = 0 ∧ y.openRaised = x.openRaised ∧ y.shortRaised = x.shortRaised) ∧
        ∀ (m : Mismatch) (n : Nat), (k = .isOpen ∧ m = .isOpen) ∨ (k = .low ∧ led ∧ m = .short) →
          n = (if x.cand = some m then min 10 (x.mrun + 1) else 1) →
          y.cand = some m ∧ y.mrun = n ∧
          (s.tables.cable.testConfirm ≤ n →
            y.openRaised = decide (m = .isOpen) ∧ y.shortRaised = decide (m = .short)) ∧
          (n < s.tables.cable.testConfirm → y.openRaised = x.openRaised ∧ y.shortRaised = x.shortRaised)) ∧
      (¬ (xs[t].ovc = true ∧ x.retry = .normal) →
        y.retry = x.retry ∧ y.retryTimer = x.retryTimer ∧ y.retryFresh = x.retryFresh ∧ y.trips = x.trips ∧
        y.cleanOn = x.cleanOn ∧ y.ovcRaised = x.ovcRaised ∧ r.prov.circuits[c] = s.prov.circuits[c]) ∧
      (xs[t].ovc = true → x.retry = .normal →
        y.trips = min 11 (x.trips + 1) ∧ y.cleanOn = 0 ∧
        r.prov.circuits[c] = { s.prov.circuits[c] with verdict := .forced, cand := none, run := 0, fault := none } ∧
        (min 11 (x.trips + 1) ≤ s.tables.cable.maxRetries →
          y.retry = .retryWait ∧ y.retryTimer = 0 ∧ y.retryFresh = !s.inPulse ∧ y.ovcRaised = x.ovcRaised) ∧
        (s.tables.cable.maxRetries < min 11 (x.trips + 1) →
          y.retry = .latched ∧ y.retryTimer = x.retryTimer ∧ y.retryFresh = x.retryFresh ∧ y.ovcRaised = true)) ∧
      (¬ judged t → y.quiet = x.quiet ∧ y.crossRaised = x.crossRaised ∧
        (on f.window t → y.litRun = 0) ∧ (¬ on f.window t → y.litRun = x.litRun)) ∧
      (judged t → ∀ n q : Nat,
        (lit t → n = min 20 (x.litRun + 1) ∧ q = 0) →
        (¬ lit t → n = 0 ∧ q = if x.crossRaised = true then min 25 (x.quiet + 1) else x.quiet) →
        y.litRun = n ∧
        (if (x.crossRaised = true ∨ s.tables.cable.crossConfirm ≤ n) ∧ 25 ≤ q then
          y.crossRaised = false ∧ y.quiet = 0
         else y.quiet = q ∧ (y.crossRaised = true ↔ x.crossRaised = true ∨ s.tables.cable.crossConfirm ≤ n)))

/-- The input stage of a frame reads each entry of the unit at its input's position in the report order. A reading
equal to the debounced state sets the disagreement count to 0; one that differs advances it, and at the debounce an
INACTIVE entry goes ACTIVE with count 0, a PUSH_BUTTON entry setting the latched demand of its demand set, and an
ACTIVE one goes INACTIVE with its active time 0 and not stuck. The entries of other units stay, and nothing else
changes before the hand-overs but the fault records of entries no longer stuck and a resync. The report stage does
nothing for a unit outside the forward set. For one in it the report is the frame with the clock stamp and, for each
position, the number of its terminal, the verdict of the circuit there and its q where the window was eligible, none
for a spare terminal; with fewer than 16 in the queue it joins it at the end with the count of those dropped, which
becomes 0, and otherwise it is dropped and counted up to 255. (R49, R51, R7, R120, R121.) -/
def Obligations.FrameReported : Prop :=
  (∀ (s : State) (u : Fin 12) (f : SenseFrame) (b : Fin 64 → Prop),
    (∀ e : Fin 64, b e ↔ ∃ i : Fin 8, s.tables.input[e].input = num i ∧
      mem f.inputs ((reportOrder s u).pos i).val = true) →
    ∃ v : State, takeInputs s u f = settle v ∧
      v = { s with
        inputs := v.inputs, latched := v.latched,
        coll := { s.coll with slots := v.coll.slots, demandStands := v.coll.demandStands }
        eng := { s.eng with resync := v.eng.resync } } ∧ StandsOn s.coll v.coll ∧
      (∀ k : Fin 16, mem v.latched k = true ↔ mem s.latched k = true ∨ ∃ e : Fin 64,
        inputUnit s e = some u ∧ s.tables.input[e].kind = 1 ∧ mem s.tables.input[e].demand k = true ∧ b e ∧
        s.inputs[e].active = false ∧ s.tables.input[e].debounce ≤ min 15 (s.inputs[e].disagree + 1)) ∧
      ∀ e : Fin 64,
        (inputUnit s e ≠ some u → v.inputs[e] = s.inputs[e]) ∧
        (inputUnit s e = some u →
          ((b e ↔ s.inputs[e].active = true) → v.inputs[e] = { s.inputs[e] with disagree := 0 }) ∧
          (¬ (b e ↔ s.inputs[e].active = true) →
            (min 15 (s.inputs[e].disagree + 1) < s.tables.input[e].debounce →
              v.inputs[e] = { s.inputs[e] with disagree := min 15 (s.inputs[e].disagree + 1) }) ∧
            (s.tables.input[e].debounce ≤ min 15 (s.inputs[e].disagree + 1) → v.inputs[e] =
              if s.inputs[e].active = true then { active := false, disagree := 0, activeTime := 0, stuck := false }
              else { s.inputs[e] with active := true, disagree := 0 })))) ∧
  ∀ (s : State) (u : Fin 12) (f : SenseFrame),
    (mem s.bus.forward u = false → forward s u f = s) ∧
    (mem s.bus.forward u = true → ∃ r : Report, r.dropped = s.bus.dropped ∧ r.frame = f ∧
      r.stamp = ⟨s.clock.day, s.clock.ms⟩ ∧
      (∀ p t : Fin 8, t = (reportOrder s u).pos p →
        (circuitAt s u t = none → r.notes[p] = ⟨num t, none, none⟩) ∧
        ∀ c : Fin 96, circuitAt s u t = some c →
          r.notes[p].terminal = num t ∧ r.notes[p].verdict = some s.prov.circuits[c].verdict ∧
          (eligible s u f.window (t, c) = true → ∀ m : Meas, s.prov.circuits[c].last = some m → r.notes[p].q = m.q) ∧
          (eligible s u f.window (t, c) = false ∨ s.prov.circuits[c].last = none → r.notes[p].q = none) ∧
          (eligible s u f.window (t, c) = true ↔ loggedOn s u f.window t = true ∧ f.window ≠ 255 ∧
            loggedOn s u ((f.window + 254) % 255) t = true ∧ s.cable.circuits[c].retry = .normal ∧
            (if s.tables.circuit[c].loadClass = 2 then 3 else 2) ≤ s.prov.circuits[c].onRun)) ∧
      (s.bus.queue.length < 16 →
        forward s u f = { s with bus := { s.bus with queue := s.bus.queue ++ [r], dropped := 0 } }) ∧
      (16 ≤ s.bus.queue.length →
        forward s u f = { s with bus := { s.bus with dropped := min 255 (s.bus.dropped + 1) } }))

/-- SENSE_MISS of the unit awaited, with no gap in progress and the window no gap window, advances its miss count: an
ADMITTED unit whose count is then at the miss limit is LOST with count 0 and FIU_LOST held raised, and otherwise it
keeps its state. In a gap or a gap window the count and the state stay. FIU_LOST of a unit awaited and ADMITTED, with
no gap in progress and the window no gap window, whose next miss brings the count to the limit, is that miss: it acts
as SENSE_MISS, and leaves the unit LOST, its miss and overtemp counts 0, its composition log empty when the round will
not poll it again and each of its input entries INACTIVE, with no last window taken in; each of its circuits not
FORCED has verdict UNKNOWN, no candidate, an on-run of 0 and no lamp fault held, and a FORCED one keeps its proving
record; its tests in flight are abandoned, but for one that the composition after it starts; its leakage run, quiet
count and suspects start afresh, with EARTH_LEAKAGE held or not as before; and red status is formed afresh; while
every learn record and the records of other circuits and units' leakage stay, and every other unit keeps its record
but for the dim tap and the log that composition writes, and the other inputs, the tables and the clock are as they
were. Otherwise FIU_LOST changes nothing, and nor does SENSE_MISS of a unit not awaited (the model's choice and
reading, log entries 2 and 25). (R112, R113, R49, R128, R148, R156.) -/
def Obligations.MissesCounted : Prop :=
  ∀ (s : State) (u : Fin 12),
    (s.bus.round.awaiting ≠ some u → exec (.senseMiss u) s = .next (finish s)) ∧
    (s.bus.round.awaiting = some u → ∃ t : State, exec (.senseMiss u) s = .next t ∧
      (s.mains.gap = true ∨ s.bus.lastInGap = true →
        t.bus.units[u].state = s.bus.units[u].state ∧ t.bus.units[u].miss = s.bus.units[u].miss) ∧
      (s.mains.gap = false → s.bus.lastInGap = false →
        (s.bus.units[u].state = .admitted → s.tables.cable.missLimit ≤ min 10 (s.bus.units[u].miss + 1) →
          t.bus.units[u].state = .lost ∧ t.bus.units[u].miss = 0 ∧ t.bus.units[u].lostRaised = true) ∧
        (s.bus.units[u].state ≠ .admitted ∨ min 10 (s.bus.units[u].miss + 1) < s.tables.cable.missLimit →
          t.bus.units[u].state = s.bus.units[u].state ∧ t.bus.units[u].miss = min 10 (s.bus.units[u].miss + 1)))) ∧
    (¬ (s.bus.round.awaiting = some u ∧ s.mains.gap = false ∧ s.bus.lastInGap = false ∧
        s.bus.units[u].state = .admitted ∧ s.tables.cable.missLimit ≤ min 10 (s.bus.units[u].miss + 1)) →
      exec (.fiuLost u) s = .next (finish s)) ∧
    (s.bus.round.awaiting = some u → s.mains.gap = false → s.bus.lastInGap = false →
      s.bus.units[u].state = .admitted → s.tables.cable.missLimit ≤ min 10 (s.bus.units[u].miss + 1) →
      exec (.fiuLost u) s = exec (.senseMiss u) s ∧
      ∃ t : State, exec (.fiuLost u) s = .next t ∧
        t.bus.units[u].state = .lost ∧ t.bus.units[u].miss = 0 ∧ t.bus.units[u].hotRun = 0 ∧
        t.bus.units[u].hotQuiet = 0 ∧ t.bus.units[u].lostRaised = true ∧
        (u ∉ s.bus.round.poll → t.bus.units[u].log = []) ∧
        (∀ k : Fin 12, k ≠ u → t.bus.units[k] =
          { s.bus.units[k] with dim := t.bus.units[k].dim, log := t.bus.units[k].log }) ∧
        (∀ e : Fin 64, inputUnit s e = some u → t.inputs[e] = State.reset.inputs[e]) ∧
        (∀ e : Fin 64, inputUnit s e ≠ some u → t.inputs[e] = s.inputs[e]) ∧ t.tables = s.tables ∧ t.clock = s.clock ∧
        t.prov.lastWin = put s.prov.lastWin u none ∧ t.prov.learn = s.prov.learn ∧
        (∀ g : Fin 32, t.prov.red[g] = redStatusNow t g) ∧
        (∀ c : Fin 96, (∃ p : Fin 8, circuitAt s u p = some c) → t.prov.circuits[c] =
          if s.prov.circuits[c].verdict = .forced then s.prov.circuits[c]
          else { s.prov.circuits[c] with verdict := .unknown, cand := none, run := 0, onRun := 0, fault := none }) ∧
        (∀ c : Fin 96, (∀ p : Fin 8, circuitAt s u p ≠ some c) → t.prov.circuits[c] = s.prov.circuits[c]) ∧
        t.cable.leak = put s.cable.leak u { s.cable.leak[u] with run := 0, quiet := 0, suspects := [] } ∧
        ∀ c : Fin 96, t.cable.circuits[c] = { s.cable.circuits[c] with inFlight := t.cable.circuits[c].inFlight } ∧
          ((∀ k ∈ s.bus.round.poll, ∀ p : Fin 8, circuitAt s k p ≠ some c) → t.cable.circuits[c].inFlight =
            if ∃ p : Fin 8, circuitAt s u p = some c then none else s.cable.circuits[c].inFlight))

/-- ROLL_CALL_ROUND in a round, when one is due, sets the count since the last roll call to 0; with the exchanges of
the round over it calls the first of the units EXPECTED, MISMATCH or LOST, ascending, and leaves the others to be
called in that order, and the exchange that ends the polling of a roll-call round does the same. IDENT_RECEIVED, good
and from the unit called: with the expected type code the unit is ADMITTED with its type and serial stored, its counts
0, and neither FIU_LOST nor FIU_MISMATCH held raised; with another type code it is in MISMATCH with the type and
serial stored, and FIU_MISMATCH held raised and FIU_LOST not where it was not in MISMATCH before; every other unit
keeps its state. IDENT_TIMEOUT of the unit called leaves every unit's state and, with the exchanges of the round over,
calls the next unit of the roll call, or none. A corrupt frame and one from another address act as that timeout.
IDENT_TIMEOUT of a unit not called and an IDENT with none called change nothing. That a corrupt or foreign IDENT ends
the wait is the model's reading (log entry 25), and that a command not due changes nothing its choice (log entry 2).
(R109, R111.) -/
def Obligations.UnitsAdmitted : Prop :=
  ∀ s : State,
    (s.bus.round.active = true → (if s.tables.startUp.mains = 1 then 60 else 50) ≤ s.bus.sinceRoll →
      ∃ t : State, exec .rollCallRound s = .next t ∧ t.bus.sinceRoll = 0 ∧
        (∀ k : Fin 12, t.bus.units[k].state = s.bus.units[k].state) ∧
        (s.bus.round.awaiting = none → s.bus.round.called = none → s.bus.round.poll = [] →
          (∀ (k : Fin 12) (rest : List (Fin 12)), unadmitted s = k :: rest →
            t.bus.round.called = some k ∧ t.bus.round.roll = rest ∧ t.bus.sent = s.bus.sent ++ [.rollCall k]) ∧
          (unadmitted s = [] → t.bus.round.called = none ∧ t.bus.round.roll = [] ∧ t.bus.round.finished = true))) ∧
    (∀ u : Fin 12, s.bus.round.active = true → s.bus.round.awaiting = some u → s.bus.round.called = none →
      s.bus.round.finished = false → s.bus.round.poll = [] → s.bus.round.isRoll = true →
      ∃ t : State, exec (.senseMiss u) s = .next t ∧ t.bus.round.called = (unadmitted t).head? ∧
        t.bus.round.roll = (unadmitted t).tail) ∧
    (unadmitted s = (idx 12).filter fun k => decide (s.bus.units[k].state = .expected ∨
      s.bus.units[k].state = .mismatch ∨ s.bus.units[k].state = .lost)) ∧
    (∀ f : IdentFrame, s.bus.round.called = none → exec (.identReceived f) s = .next (finish s)) ∧
    (∀ u : Fin 12, s.bus.round.called ≠ some u → exec (.identTimeout u) s = .next (finish s)) ∧
    ∀ u : Fin 12, s.bus.round.called = some u →
      (∃ t : State, exec (.identTimeout u) s = .next t ∧
        (∀ k : Fin 12, t.bus.units[k].state = s.bus.units[k].state) ∧
        (s.bus.round.active = true → s.bus.round.awaiting = none → s.bus.round.finished = false →
          s.bus.round.poll = [] → s.bus.round.isRoll = false →
          t.bus.round.called = s.bus.round.roll.head? ∧
          ∀ (v : Fin 12) (rest : List (Fin 12)), s.bus.round.roll = v :: rest →
            t.bus.round.roll = rest ∧ t.bus.sent = s.bus.sent ++ [.rollCall v])) ∧
      (∀ f : IdentFrame, ¬ (f.good = true ∧ f.unit = num u) → exec (.identReceived f) s = exec (.identTimeout u) s) ∧
      (∀ f : IdentFrame, f.good = true → f.unit = num u → ∃ t : State, exec (.identReceived f) s = .next t ∧
        t.bus.units[u].typeCode = some f.typeCode ∧ t.bus.units[u].serial = some f.serial ∧
        (∀ k : Fin 12, k ≠ u → t.bus.units[k].state = s.bus.units[k].state) ∧
        (f.typeCode = s.tables.fiu[u].typeCode →
          t.bus.units[u].state = .admitted ∧ t.bus.units[u].miss = 0 ∧ t.bus.units[u].hotRun = 0 ∧
          t.bus.units[u].hotQuiet = 0 ∧ t.bus.units[u].lostRaised = false ∧ t.bus.units[u].mismatchRaised = false) ∧
        (f.typeCode ≠ s.tables.fiu[u].typeCode →
          t.bus.units[u].state = .mismatch ∧
          (s.bus.units[u].state ≠ .mismatch →
            t.bus.units[u].mismatchRaised = true ∧ t.bus.units[u].lostRaised = false)))

/-- Composing unit u sends one DRIVE frame to u and writes one window record, for the window after the present one: a
terminal is ON exactly when the map gives it to a circuit that is composed lit and not forced off with the mode not
DARK; the test request stands on at most one terminal, commanded OFF, whose circuit has cable test on, no test in
flight, OFF in the record of the present window, if there is one, and a time since test at the test interval, and
there always where some terminal's circuit is such: the longest of those and of equal ones the lowest terminal; bleed
stands on each terminal with a circuit that has it enabled, commanded OFF and without the test; a spare terminal has
none of the three; the tap is DIM when DIM is demanded and every proving-enabled circuit of u has a DIM reference or
is LEARNING at DIM. A circuit of a group in use is called for by RED in role RED, RED_AMBER in RED and AMBER, AMBER
and FLASH_AMBER in AMBER, GREEN and GREEN_FLASH in GREEN, by DARK in none, and is composed lit when called for and,
under FLASH_AMBER, the junction flash run, under GREEN_FLASH, the group's clearance run, is in an ON step, one of
level 1 (log entry 13). The record says what was called for and joins the log, which holds the last four; the tap is
the applied dim; the circuit tested has the window in flight; the frame carries the masks in the unit's report order;
all else is as it was. A round begins with the units then ADMITTED to be polled, ascending; SENSE_MISS of the unit
awaited goes on to compose the next; each exchange takes a unit from those to be polled to those driven and never
another, and when the next window start closes the round, each unit still to be polled is driven once before that
(what is then outstanding is taken as missed: the model's reading, log entry 9). So each unit ADMITTED at the start of
a round is driven once in it, and no other. (R114, R115, R109, R147, R7, R15, R8, R9.) -/
def Obligations.DriveComposed : Prop :=
  (∀ (s : State) (u : Fin 12), ∃ (r : WinRec) (on test bleed : BitVec 8),
    compose s u = { s with bus := (compose s u).bus, cable := (compose s u).cable } ∧
    (compose s u).bus = { s.bus with
      units := (compose s u).bus.units, sent := s.bus.sent ++ [.drive u ((s.bus.seq + 1) % 255) r.tap on test bleed] } ∧
    (compose s u).bus.units[u] = { s.bus.units[u] with
      dim := r.tap
      log := if s.bus.units[u].log.length < 4 then s.bus.units[u].log ++ [r] else s.bus.units[u].log.tail ++ [r] } ∧
    (∀ k : Fin 12, k ≠ u → (compose s u).bus.units[k] = s.bus.units[k]) ∧
    r.window = (s.bus.seq + 1) % 255 ∧ r.sent = true ∧
    (∀ t : Fin 8, mem on ((reportOrder s u).pos t).val = mem r.on t.val ∧
      mem test ((reportOrder s u).pos t).val = mem r.test t.val ∧
      mem bleed ((reportOrder s u).pos t).val = mem r.bleed t.val) ∧
    (r.tap = .dim ↔ s.sched.effDim = .dim ∧ ∀ (t : Fin 8) (c : Fin 96), circuitAt s u t = some c →
      s.tables.circuit[c].proving = 1 → (reference s c .dim).isSome = true ∨
        (s.prov.learn[c].state = .learning ∧ s.prov.learn[c].tap = .dim)) ∧
    (∀ t : Fin 8, circuitAt s u t = none →
      mem r.on t.val = false ∧ mem r.test t.val = false ∧ mem r.bleed t.val = false) ∧
    (∀ (t : Fin 8) (c : Fin 96), circuitAt s u t = some c →
      (mem r.on t.val = true ↔ composedLit s c = true ∧ forcedOff s c = false ∧ s.jm.mode ≠ .dark) ∧
      (mem r.called t.val = true ↔ called s c = true) ∧
      (mem r.bleed t.val = true ↔
        mem r.on t.val = false ∧ mem r.test t.val = false ∧ s.tables.circuit[c].bleed = 1) ∧
      ∀ can : Fin 8 → Fin 96 → Prop,
        (∀ (x : Fin 8) (d : Fin 96), can x d ↔ s.tables.circuit[d].cableTest = 1 ∧ s.cable.circuits[d].inFlight = none ∧
          (∀ w : WinRec, s.bus.units[u].log.find? (fun w => decide (w.window = s.bus.seq)) = some w →
            mem w.on x.val = false) ∧
          mem r.on x.val = false ∧ s.tables.cable.testInterval ≤ s.cable.circuits[d].sinceTest) →
        (mem r.test t.val = true ↔ can t c ∧ ∀ (t' : Fin 8) (c' : Fin 96), circuitAt s u t' = some c' → can t' c' →
          s.cable.circuits[c'].sinceTest < s.cable.circuits[c].sinceTest ∨
            (s.cable.circuits[c'].sinceTest = s.cable.circuits[c].sinceTest ∧ t.val ≤ t'.val))) ∧
    (∀ t t' : Fin 8, mem r.test t.val = true → mem r.test t'.val = true → t = t') ∧
    (compose s u).cable.leak = s.cable.leak ∧
    ∀ c : Fin 96,
      ((∃ t : Fin 8, circuitAt s u t = some c ∧ mem r.test t.val = true) →
        (compose s u).cable.circuits[c] = { s.cable.circuits[c] with inFlight := some r.window }) ∧
      ((∀ t : Fin 8, circuitAt s u t = some c → mem r.test t.val = false) →
        (compose s u).cable.circuits[c] = s.cable.circuits[c])) ∧
  (∀ (s : State) (c : Fin 96),
    (called s c = true ↔ ∃ g : Fin 32, s.tables.circuit[c].group = num g ∧ live s g = true ∧
      ((s.tables.circuit[c].role = 0 ∧ (s.groups[g].aspect = .red ∨ s.groups[g].aspect = .redAmber)) ∨
        (s.tables.circuit[c].role = 1 ∧
          (s.groups[g].aspect = .redAmber ∨ s.groups[g].aspect = .amber ∨ s.groups[g].aspect = .flashAmber)) ∨
        (s.tables.circuit[c].role = 2 ∧ (s.groups[g].aspect = .green ∨ s.groups[g].aspect = .greenFlash)))) ∧
    (composedLit s c = true ↔ called s c = true ∧ ∀ g : Fin 32, s.tables.circuit[c].group = num g →
      (s.groups[g].aspect = .flashAmber → runOn s s.junctionRun = true) ∧
      (s.groups[g].aspect = .greenFlash → ∃ r : Run, s.clearRuns[g] = some r ∧ runOn s r = true)) ∧
    ∀ (r : Run) (p : Fin 4) (k : Fin 8), r.pattern = p.val → r.step = k.val →
      (runOn s r = true ↔ s.tables.pattern[p].slots[k].level = 1)) ∧
  (∀ (s : State) (k u : Fin 12) (rest : List (Fin 12)), s.bus.round.active = true → s.bus.round.awaiting = some k →
    s.bus.round.called = none → s.bus.round.finished = false → s.bus.round.poll = u :: rest →
    ∃ v : State, exec (.senseMiss k) s = .next (finish (compose v u)) ∧
      v.bus.round = { s.bus.round with poll := rest, awaiting := some u } ∧ v.bus.seq = s.bus.seq ∧
      v.tables = s.tables ∧ v.map = s.map) ∧
  (∀ s : State, s.jm.started = true → s.bus.sent = [] →
    drivesOf (beginRound s) ++ (beginRound s).bus.round.poll =
      (idx 12).filter fun u => decide (s.bus.units[u].state = .admitted)) ∧
  (∀ (s : State) (c : Instr), ((∃ u : Fin 12, c = .senseMiss u) ∨ ∃ f : SenseFrame, c = .senseReceived f) →
    ∃ t : State, exec c s = .next t ∧ drivesOf t ++ t.bus.round.poll = drivesOf s ++ s.bus.round.poll) ∧
  ∀ s : State, s.bus.round.active = true → s.bus.round.awaiting.isSome = true → s.bus.round.called = none →
    s.bus.round.finished = false → s.bus.round.poll.length ≤ 11 →
    (times 12 missOutstanding s).bus.round.poll = [] ∧
    drivesOf (times 12 missOutstanding s) = drivesOf s ++ s.bus.round.poll

/-- A group acts on the observed-green counts when it is of type VEHICLE or PEDESTRIAN, or, while configuration is
open, when it was so at the last accepted START (that a type written with configuration open acts from the next START
is the model's reading, log entry 19). For such a group, while a window start stands: with its run at the confirm
count and the fault not raised, UNEXPECTED_GREEN_RAISE marks it raised and raises the fault; with its quiet count at
25 and the fault raised, UNEXPECTED_GREEN_CLEAR marks it not raised, sets the quiet count to 0 and clears the fault.
Short of that, for a group that does not act, and between window starts, so that a new confirm count waits for the
next one, both change nothing (the model's choice, log entry 2). At every window start, be it of MAINS_EDGE,
MAINS_GAP_BEGIN or SUBSTITUTE_WINDOW_START, each group that acts counts and is judged, and with no window start, and
for a group that does not act, nothing of this changes; UNEXPECTED_GREEN is held from the confirm count until quiet
25. The counts go: a set mark advances the run up to 255, sets the quiet count to 0 and is cleared; a clear mark sets
the run to 0 and, while the fault is raised, advances the quiet count. (R37, R38, R39, R41.) -/
def Obligations.ObservedGreen : Prop :=
  (∀ (s : State) (g : Fin 32), (if s.port.configOpen = true then mem s.acting g else live s g) = true →
    windowStands s = true →
    (s.tables.cable.greenConfirm ≤ s.groups[g].greenRun → s.groups[g].raised = false →
      exec (.unexpectedGreenRaise g) s = .next (finish (raise
        { s with groups := put s.groups g { s.groups[g] with raised := true } } .unexpectedGreen (num g) .absent))) ∧
    (25 ≤ s.groups[g].quiet → s.groups[g].raised = true →
      exec (.unexpectedGreenClear g) s = .next (finish (clear
        { s with groups := put s.groups g { s.groups[g] with raised := false, quiet := 0 } } .unexpectedGreen (num g))))) ∧
  (∀ (s : State) (g : Fin 32),
    (windowStands s = false ∨ (if s.port.configOpen = true then mem s.acting g else live s g) = false ∨
        s.groups[g].greenRun < s.tables.cable.greenConfirm ∨ s.groups[g].raised = true →
      exec (.unexpectedGreenRaise g) s = .next (finish s)) ∧
    (windowStands s = false ∨ (if s.port.configOpen = true then mem s.acting g else live s g) = false ∨
        s.groups[g].quiet < 25 ∨ s.groups[g].raised = false →
      exec (.unexpectedGreenClear g) s = .next (finish s))) ∧
  (∀ (s t : State) (c : Instr), ((∃ p : Nat, c = .mainsEdge p) ∨ c = .mainsGapBegin ∨ c = .substituteWindowStart) →
    exec c s = .next t → t.acting = s.acting ∧ ∀ (g : Fin 32) (n q : Nat) (acts : Prop),
      (acts ↔ (if s.port.configOpen = true then mem s.acting g else live s g) = true) →
      n = (if s.groups[g].seen = true then min 255 (s.groups[g].greenRun + 1) else 0) →
      q = (if s.groups[g].seen = true then 0
        else if s.groups[g].raised = true then min 25 (s.groups[g].quiet + 1) else s.groups[g].quiet) →
      (t.bus.seq = s.bus.seq ∨ ¬ acts → marksOf t.groups[g] = marksOf s.groups[g]) ∧
      (t.bus.seq ≠ s.bus.seq → acts →
        t.groups[g].greenRun = n ∧ t.groups[g].seen = false ∧
        (if (s.groups[g].raised = true ∨ s.tables.cable.greenConfirm ≤ n) ∧ 25 ≤ q then
          t.groups[g].raised = false ∧ t.groups[g].quiet = 0
         else t.groups[g].quiet = q ∧
          (t.groups[g].raised = true ↔ s.groups[g].raised = true ∨ s.tables.cable.greenConfirm ≤ n)))) ∧
  ∀ r : GroupRec,
    (r.seen = true → countGreen r = { r with greenRun := min 255 (r.greenRun + 1), quiet := 0, seen := false }) ∧
    (r.seen = false → countGreen r =
      { r with greenRun := 0, quiet := if r.raised = true then min 25 (r.quiet + 1) else r.quiet })

/-- While a pulse stands: a GREEN group in use with target STOP and its safety minimum green run enters AMBER
(vehicle) or GREEN_FLASH (pedestrian, its clearance run started at step 1), with time since GREEN ended at 0; an AMBER
group at its amber time and a GREEN_FLASH group at its clearance time (its clearance run ends) enter RED; a RED_AMBER
group at its red-amber time enters GREEN, or RED when it is in the inhibit set, its target unchanged. In each case the
time in aspect restarts at 0, and every other group and everything else is as it was before the hand-overs. Each is
taken as work of that pulse, so that no mark is fresh; before it is due, and once something taken since the pulse
could have made it due, such as a STOP, nothing changes and the next pulse takes it (the model's choice, log entry 2).
For every group record, what a pulse does: the time in aspect advances by 1 up to 65535 unless it is marked fresh, and
then only loses the mark; the time since GREEN ended is 0 while the group is GREEN, and otherwise advances in the same
way; nothing else of the record changes. (R21, R27, R28, R92.) -/
def Obligations.TimedEnds : Prop :=
  (∀ (s : State) (g : Fin 32),
    (live s g = true → pulseStands s = true →
      (s.groups[g].aspect = .green → s.groups[g].target = .stop → s.tables.group[g].safetyMin ≤ s.groups[g].inAspect →
        ∃ u : State, exec (.clearanceStart g) s = .next { finish u with inPulse := s.inPulse } ∧
          u = { s with groups := put s.groups g u.groups[g], clearRuns := u.clearRuns, inPulse := true } ∧
          u.groups[g] = { s.groups[g] with
            aspect := if groupType s g = .vehicle then .amber else .greenFlash, inAspect := 0
            inAspectFresh := false, sinceGreen := 0, sinceGreenFresh := false } ∧
          u.clearRuns = if groupType s g = .vehicle then s.clearRuns else put s.clearRuns g
            (some { pattern := s.tables.group[g].pattern, step := 0, time := 0, fresh := false })) ∧
      (s.groups[g].aspect = .amber → s.tables.group[g].amber ≤ s.groups[g].inAspect →
        exec (.amberEnd g) s = .next { finish { s with
          groups := put s.groups g { s.groups[g] with aspect := .red, inAspect := 0, inAspectFresh := false }
          inPulse := true } with inPulse := s.inPulse }) ∧
      (s.groups[g].aspect = .greenFlash → s.tables.group[g].clearance ≤ s.groups[g].inAspect →
        exec (.clearanceEnd g) s = .next { finish { s with
          groups := put s.groups g { s.groups[g] with aspect := .red, inAspect := 0, inAspectFresh := false }
          clearRuns := put s.clearRuns g none
          inPulse := true } with inPulse := s.inPulse }) ∧
      (s.groups[g].aspect = .redAmber → s.tables.group[g].redAmber ≤ s.groups[g].inAspect →
        exec (.redAmberEnd g) s = .next { finish { s with
          groups := put s.groups g
            (if s.groups[g].inhibited = true then
              { s.groups[g] with aspect := .red, inAspect := 0, inAspectFresh := false }
            else { s.groups[g] with
              aspect := .green, inAspect := 0, inAspectFresh := false, sinceGreen := 0, sinceGreenFresh := false })
          inPulse := true } with inPulse := s.inPulse })) ∧
    (pulseStands s = false ∨ live s g = false ∨ s.groups[g].aspect ≠ .green ∨ s.groups[g].target ≠ .stop ∨
        s.groups[g].inAspect < s.tables.group[g].safetyMin → exec (.clearanceStart g) s = .next (finish s)) ∧
    (pulseStands s = false ∨ live s g = false ∨ s.groups[g].aspect ≠ .amber ∨
        s.groups[g].inAspect < s.tables.group[g].amber →
      exec (.amberEnd g) s = .next (finish s)) ∧
    (pulseStands s = false ∨ live s g = false ∨ s.groups[g].aspect ≠ .greenFlash ∨
        s.groups[g].inAspect < s.tables.group[g].clearance →
      exec (.clearanceEnd g) s = .next (finish s)) ∧
    (pulseStands s = false ∨ live s g = false ∨ s.groups[g].aspect ≠ .redAmber ∨
        s.groups[g].inAspect < s.tables.group[g].redAmber →
      exec (.redAmberEnd g) s = .next (finish s))) ∧
  ∀ r : GroupRec,
    (r.inAspectFresh = false → (advanceGroup r).inAspect = if r.inAspect < 65535 then r.inAspect + 1 else 65535) ∧
    (r.inAspectFresh = true → (advanceGroup r).inAspect = r.inAspect) ∧ (advanceGroup r).inAspectFresh = false ∧
    (advanceGroup r).sinceGreenFresh = false ∧
    (r.aspect = .green → (advanceGroup r).sinceGreen = 0) ∧
    (r.aspect ≠ .green → r.sinceGreenFresh = false →
      (advanceGroup r).sinceGreen = if r.sinceGreen < 65535 then r.sinceGreen + 1 else 65535) ∧
    (r.aspect ≠ .green → r.sinceGreenFresh = true → (advanceGroup r).sinceGreen = r.sinceGreen) ∧
    (advanceGroup r).aspect = r.aspect ∧ (advanceGroup r).target = r.target ∧
    (advanceGroup r).inhibited = r.inhibited ∧ marksOf (advanceGroup r) = marksOf r

/-- The releases of a pulse judge every group in ascending number, each on the state the one before has left. Judging
group j at a pulse changes the state exactly when j is in use with target GO in RED, its minimum red has run, it is
not inhibited, and each group i conflicting with it is neither GREEN nor RED_AMBER and has been out of GREEN, with j's
red-amber time added for a vehicle, for at least IG(i,j). Then j enters RED_AMBER, or GREEN where no red-amber time
counts, and every other group is as it was. An interstage to a step hands STOP to the served groups its stage leaves
out, which are losing, and GO to those it adds, not inhibited, which are gaining, and leaves the rest of the engine as
it was. In it a gaining group that enters GREEN leaves the gaining set; one that joins the inhibit set before that
gets STOP and leaves the served set too. With the gaining set empty and a group gained, or every losing group RED, the
stage starts (with none gained and none left it waits for the losing groups, the model's choice, log entry 38): the
stage's latched demand is cleared, minimum elapsed is 0, the extension timer loaded, maximum elapsed started in an
isolated plan with another step wanted, the sub-state MIN and the step request cleared; arrival at the hold step with
dwell or resync empties the passed set, clears resync and sets dwell; and a CYCLE hold reaches the hold step, or the
first step after a return to step 1. With nothing served, a step that is not the hold step is abandoned: it rests and,
no orderly stop being set, the next wanted step after it is sought and entered (a search that comes to step 1 counts
as a return, log entry 35). (R29, R30, R33, R56, R57, R58, R59, R65, R68.) -/
def Obligations.ReleaseRules : Prop :=
  (∀ s : State, judgeReleases s = (List.finRange 32).foldl judgeRelease s) ∧
  (∀ (s : State) (j : Fin 32),
    ((live s j = true ∧ s.groups[j].target = .go ∧ s.groups[j].aspect = .red ∧
        s.tables.group[j].minRed ≤ s.groups[j].inAspect ∧ s.groups[j].inhibited = false ∧
        ∀ i : Fin 32, conflicts s i j = true →
          s.groups[i].aspect ≠ .green ∧ s.groups[i].aspect ≠ .redAmber ∧
          ∀ n : Nat, ig s i j = some n →
            n ≤ s.groups[i].sinceGreen + if groupType s j = .vehicle then s.tables.group[j].redAmber else 0) →
      (judgeRelease s j).groups[j].aspect =
        (if groupType s j = .vehicle ∧ s.tables.group[j].redAmber ≠ 0 then .redAmber else .green) ∧
      (judgeRelease s j).groups[j].inAspect = 0 ∧
      ∀ i : Fin 32, i ≠ j → (judgeRelease s j).groups[i] = s.groups[i]) ∧
    (¬ (live s j = true ∧ s.groups[j].target = .go ∧ s.groups[j].aspect = .red ∧
        s.tables.group[j].minRed ≤ s.groups[j].inAspect ∧ s.groups[j].inhibited = false ∧
        ∀ i : Fin 32, conflicts s i j = true →
          s.groups[i].aspect ≠ .green ∧ s.groups[i].aspect ≠ .redAmber ∧
          ∀ n : Nat, ig s i j = some n →
            n ≤ s.groups[i].sinceGreen + if groupType s j = .vehicle then s.tables.group[j].redAmber else 0) →
      judgeRelease s j = s)) ∧
  (∀ (s u : State) (p : Fin 8) (b : Fin 16), u = beginInterstage s p b → BegunFrom s u p b ∧
    u = { s with
      groups := u.groups, clearRuns := u.clearRuns
      eng := { s.eng with
        sub := .interstage, cur := b, gained := false, stageOn := false
        served := u.eng.served, gaining := u.eng.gaining, losing := u.eng.losing } } ∧
    ∀ g : Fin 32, live s g = true →
      (mem u.eng.gaining g = true ↔ mem s.eng.served g = false ∧ mem (greenSet s (stepOf s p b).stage) g = true ∧
        s.groups[g].inhibited = false) ∧
      (mem u.eng.losing g = true ↔ mem s.eng.served g = true ∧ mem (greenSet s (stepOf s p b).stage) g = false)) ∧
  (∀ (s : State) (p : Fin 8),
    (s.eng.running = none ∨ s.eng.sub ≠ .interstage → interstageProgress s = s) ∧
    (s.eng.running = some p → s.eng.sub = .interstage → ∃ v : State,
      v = { s with
        groups := v.groups, clearRuns := v.clearRuns
        eng := { s.eng with gaining := v.eng.gaining, served := v.eng.served, gained := v.eng.gained } } ∧
      (∀ g : Fin 32,
        (mem v.eng.gaining g = true ↔ mem s.eng.gaining g = true ∧ s.groups[g].aspect ≠ .green ∧
          s.groups[g].inhibited = false) ∧
        (mem v.eng.served g = true ↔ mem s.eng.served g = true ∧
          ¬ (mem s.eng.gaining g = true ∧ s.groups[g].aspect ≠ .green ∧ s.groups[g].inhibited = true)) ∧
        (mem s.eng.gaining g = true ∧ s.groups[g].aspect ≠ .green ∧ s.groups[g].inhibited = true →
          v.groups[g] = (handTarget s g .stop).groups[g] ∧ v.clearRuns[g] = (handTarget s g .stop).clearRuns[g]) ∧
        (¬ (mem s.eng.gaining g = true ∧ s.groups[g].aspect ≠ .green ∧ s.groups[g].inhibited = true) →
          v.groups[g] = s.groups[g] ∧ v.clearRuns[g] = s.clearRuns[g])) ∧
      (v.eng.gained = true ↔ s.eng.gained = true ∨
        ∃ g : Fin 32, mem s.eng.gaining g = true ∧ s.groups[g].aspect = .green) ∧
      (v.eng.gaining ≠ 0 ∨ (v.eng.gained = false ∧
          ∃ g : Fin 32, mem s.eng.losing g = true ∧ v.groups[g].aspect ≠ .red) →
        interstageProgress s = v) ∧
      (v.eng.gaining = 0 → (v.eng.gained = true ∨ ∀ g : Fin 32, mem s.eng.losing g = true → v.groups[g].aspect = .red) →
        interstageProgress s = if v.eng.served = 0 ∧ isHoldStep s p s.eng.cur = false then abandonStep v p
          else stageStart v p))) ∧
  (∀ (s w : State) (p : Fin 8), w = { s with latched := w.latched } →
    (∀ k : Fin 16, mem w.latched k = true ↔ mem s.latched k = true ∧ (stepOf s p s.eng.cur).stage ≠ num k) →
    stageStart s p = { w with eng := { s.eng with
      minElapsed := 0
      ext := (stepOf s p s.eng.cur).unitExt
      maxElapsed := if s.tables.plan[p].cycle = 0 ∧ anotherWanted w p = true then some 0 else none
      sub := .min
      stageOn := true
      passed := if isHoldStep s p s.eng.cur = true ∧ (s.eng.dwell = true ∨ s.eng.resync = true) then 0 else s.eng.passed
      resync := s.eng.resync && !isHoldStep s p s.eng.cur
      dwell := s.eng.dwell || (isHoldStep s p s.eng.cur && s.eng.resync)
      cycleReached := s.eng.cycleReached || (decide (s.eng.hold = some .cycle) &&
        if s.tables.plan[p].cycle = 0 then s.eng.returned else isHoldStep s p s.eng.cur)
      returned := false
      stepReq := none
      gaining := 0
      losing := 0 } }) ∧
  ∀ (s l : State) (p : Fin 8),
    l = { s with eng := { s.eng with stepReq := none, sub := .rest, stageOn := false, gaining := 0, losing := 0 } } →
    (s.eng.orderly = true → abandonStep s p = l) ∧
    (s.eng.orderly = false → s.eng.cur.val < nSteps s p → SoughtFrom l p (abandonStep s p))

/-- While a pulse stands, START_FLASH_END, with the mode timer at the start flash time and no mode demanded, enters
START_RED with the same reason. START_RED_END, with the mode timer at the start red time, every group in use PROVEN or
DEGRADED, schedule mode PLAN and no mode demanded, clears START_PROVING_TIMEOUT where raised and enters PLAN with the
same reason running the governing plan where that is VALID; with it not VALID, a VALID fallback plan and a
PLAN_INVALID that demands no mode, it runs the fallback plan and holds PLAN_INVALID raised for the governing plan;
with neither VALID it holds PLAN_INVALID raised for both and, no DARK demanded by that, enters FLASH with reason
NO_PLAN; and with schedule mode FLASH or DARK it enters that mode with reason SCHEDULE. While a pulse stands,
START_PROVING_TIMEOUT, with the proving limit past that time and some group unproven, marks and raises its fault once,
and CONTROLLER_SILENT, with the silence timeout run in DIRECT_DRIVE, marks and raises its fault once and sets a
departure to START_RED with reason CONTROLLER, and STOP to every group in use, where none waits; a departure that
waits is kept. What is taken at the pulse starts no fresh timer. In another mode, with the timer short, with the red
sets already proven (START_PROVING_TIMEOUT) or not yet (START_RED_END), or after the pulse, the command changes
nothing (the model's choice, log entry 2). FLASH before the demand of a PLAN_INVALID is its choice (log entry 40).
CONTROLLER_SILENT sets the departure and hands STOP before the demand of its reaction is handed on, also its choice
(log entry 49). The engine starts with its record as after reset, but the governing plan, the last reading its
counter, dwell set for a coordinated plan, and the interstage to its hold step, for an isolated plan to its first
wanted step, begins; with none it rests. (R77, R78, R79, R87, R55, R75.) -/
def Obligations.ModeTimers : Prop :=
  (∀ s : State,
    (pulseStands s = true → s.jm.mode = .startFlash → s.tables.startUp.startFlash ≤ s.jm.timer → demandedNow s = .none →
      ∃ u : State, exec .startFlashEnd s = .next { finish u with inPulse := s.inPulse } ∧ u.inPulse = true ∧
        u.jm.mode = .startRed ∧ u.jm.reason = s.jm.reason ∧ u.jm.timer = 0 ∧ u.jm.timerFresh = false ∧
        ∀ g : Fin 32, live s g = true → u.groups[g].target = .stop) ∧
    (s.jm.mode = .startRed → s.tables.startUp.startRed ≤ s.jm.timer → demandedNow s = .none →
      (∀ g : Fin 32, live s g = true → s.prov.red[g] = .proven ∨ s.prov.red[g] = .degraded) →
      ∃ u : State, exec .startRedEnd s = .next (finish u) ∧
        (s.jm.schedMode = .plan → s.tables.plan[s.eng.governing].state = .valid →
          u.jm.mode = .plan ∧ u.jm.reason = s.jm.reason ∧ u.eng.running = some s.eng.governing ∧
          u.jm.provingTimeout = false ∧
          ∃ w : State, w = (if s.jm.provingTimeout = true then takeClear s .startProvingTimeout 0 else s) ∧
            u = engineStart (refreshInhibit { w with
              jm := { s.jm with mode := .plan, departure := none, provingTimeout := false } }) s.eng.governing) ∧
        (s.jm.schedMode = .plan → s.tables.plan[s.eng.governing].state ≠ .valid →
          s.tables.plan[fallback s].state = .valid → demandedNow (raiseInvalid s s.eng.governing) = .none →
          u.jm.mode = .plan ∧ u.jm.reason = s.jm.reason ∧ u.eng.running = some (fallback s) ∧
          mem u.eng.invalidRaised s.eng.governing = true) ∧
        (s.jm.schedMode = .plan → s.tables.plan[s.eng.governing].state ≠ .valid →
          s.tables.plan[fallback s].state ≠ .valid →
          mem u.eng.invalidRaised s.eng.governing = true ∧ mem u.eng.invalidRaised (fallback s) = true ∧
          (demandedNow (raiseInvalid (raiseInvalid s s.eng.governing) (fallback s)) ≠ .dark →
            u.jm.mode = .flash ∧ u.jm.reason = .noPlan ∧
            ∀ g : Fin 32, live s g = true → u.groups[g].target = .flash)) ∧
        (s.jm.schedMode = .flash → u.jm.mode = .flash ∧ u.jm.reason = .schedule) ∧
        (s.jm.schedMode = .dark → u.jm.mode = .dark ∧ u.jm.reason = .schedule)) ∧
    (pulseStands s = true → s.jm.mode = .startRed → s.jm.provingTimeout = false →
      s.tables.startUp.startRed + s.tables.startUp.provingLimit ≤ s.jm.timer →
      (∃ g : Fin 32, live s g = true ∧ s.prov.red[g] ≠ .proven ∧ s.prov.red[g] ≠ .degraded) →
      exec .startProvingTimeout s = .next { finish { s with
        coll := (takeRaise s .startProvingTimeout 0 .absent).coll, jm := { s.jm with provingTimeout := true }
        inPulse := true } with inPulse := s.inPulse }) ∧
    (pulseStands s = true → s.jm.mode = .directDrive → s.jm.silent = false → s.tables.startUp.silence ≤ s.jm.silence →
      ∃ u : State, exec .controllerSilent s = .next { finish u with inPulse := s.inPulse } ∧ u.inPulse = true ∧
        u.coll = (takeRaise s .controllerSilent 0 .absent).coll ∧
        u.jm = { s.jm with
          silent := true, departure := some (s.jm.departure.getD ⟨.startRed, .controller⟩) } ∧
        (s.jm.departure = none → ∀ g : Fin 32, live s g = true → u.groups[g].target = .stop) ∧
        (s.jm.departure ≠ none → u.groups = s.groups)) ∧
    (pulseStands s = false ∨ s.jm.mode ≠ .startFlash ∨ s.jm.timer < s.tables.startUp.startFlash →
      exec .startFlashEnd s = .next (finish s)) ∧
    (s.jm.mode ≠ .startRed ∨ s.jm.timer < s.tables.startUp.startRed ∨
        (∃ g : Fin 32, live s g = true ∧ s.prov.red[g] ≠ .proven ∧ s.prov.red[g] ≠ .degraded) →
      exec .startRedEnd s = .next (finish s)) ∧
    (pulseStands s = false ∨ s.jm.mode ≠ .startRed ∨ s.jm.provingTimeout = true ∨
        s.jm.timer < s.tables.startUp.startRed + s.tables.startUp.provingLimit ∨
        (∀ g : Fin 32, live s g = true → s.prov.red[g] = .proven ∨ s.prov.red[g] = .degraded) →
      exec .startProvingTimeout s = .next (finish s)) ∧
    (pulseStands s = false ∨ s.jm.mode ≠ .directDrive ∨ s.jm.silent = true ∨ s.jm.silence < s.tables.startUp.silence →
      exec .controllerSilent s = .next (finish s))) ∧
  ∀ (s a : State) (p : Fin 8) (h : Option (Fin 16)),
    a = { s with eng := { State.reset.eng with
      governing := s.eng.governing, invalidRaised := s.eng.invalidRaised, running := some p, sub := .rest
      lastReading := counter s p, dwell := decide (0 < s.tables.plan[p].cycle) } } →
    FirstFrom (nSteps s p) (fun k => if 0 < s.tables.plan[p].cycle then (stepOf s p k).holdFlag else wanted s p k) h →
    engineStart s p = match h with
      | some b => beginInterstage a p b
      | none => a

/-- With plan p running and none pending, the current stage started, its minimum green run, no orderly stop, STEP or
hold that stands, another wanted step and a pulse that stands, GAP_OUT (extension timer 0, not the hold step of a
coordinated plan), MAX_OUT (p isolated, the max timer at the maximum green) and FORCE_OFF (p coordinated, the step in
the passed set once the counter has been read) end the step: the interstage to the next wanted step in search order
begins. MINIMUM_GREEN_END ends it likewise when one of the first two is due, and with an orderly stop hands STOP to
every group served and rests, with nothing served (reading, log entry 26), the hold step's passed set and dwell
cleared. None ends a step before its minimum green has run. When not due, or after the pulse, they do nothing, but for
FORCE_OFF reading the counter at the pulse (choice, log entry 2). At each pulse the counter of a coordinated plan, (ds
of day - O) mod C, is read: the steps whose force-off lies in the forward run from the last reading join the passed
set, none after a backward SET_TIME step, all after a step above 20 ds or a rollover with a run above 20 ds. A stage
started before the pulse, in DWELL too (choice, log entry 61), has its extension timer set where it is extended and
else lowered by 1. After its minimum green a step ends, is held, rests with nothing changed, or hands over to a
pending plan; a STEP ends it to the first step in search order that names the stage, or to the next wanted one, and a
NEXT that waits keeps it (choice, log entry 37). A search that reaches step 1 lets a pending plan take over; the hold
step's end empties the passed set and clears dwell. With a stage on the sub-state is MIN before the minimum green,
then HOLD while a hold stands, and otherwise DWELL in the hold step under dwell, EXTEND in another step of a
coordinated plan, and in an isolated one EXTEND with another wanted step and REST with none (at once: reading, log
entry 26). (R53, R56, R60, R61, R62, R63, R64, R72, R65, R67, R69, R71.) -/
def Obligations.StepEnds : Prop :=
  (∀ (s : State) (p : Fin 8), s.eng.running = some p → s.eng.cur.val < nSteps s p →
      (s.eng.stageOn = false ∨ s.eng.minElapsed < (stepOf s p s.eng.cur).minGreen →
        exec .minimumGreenEnd s = .next (finish s) ∧ exec .gapOut s = .next (finish s) ∧
        exec .maxOut s = .next (finish s) ∧
        (pulseStands s = true → exec .forceOff s =
          .next { finish (readCounter { s with inPulse := true }) with inPulse := s.inPulse })) ∧
      (pulseStands s = false →
        exec .minimumGreenEnd s = .next (finish s) ∧ exec .gapOut s = .next (finish s) ∧
        exec .maxOut s = .next (finish s) ∧ exec .forceOff s = .next (finish s)) ∧
      (pulseStands s = true → s.eng.stageOn = true → (stepOf s p s.eng.cur).minGreen ≤ s.eng.minElapsed →
        (s.eng.orderly = true → ∃ u : State, exec .minimumGreenEnd s = .next { finish u with inPulse := s.inPulse } ∧
          u.eng.served = 0 ∧ u.eng.sub = .rest ∧ u.eng.stageOn = false ∧
          (isHoldStep s p s.eng.cur = true → u.eng.passed = 0 ∧ u.eng.dwell = false) ∧
          ∀ g : Fin 32, live s g = true → mem s.eng.served g = true → u.groups[g].target = .stop) ∧
        (s.eng.orderly = false → s.eng.stepReq = none → holdStands s = false → s.eng.pendingPlan = none →
          anotherWanted s p = true →
          (s.eng.ext = 0 → isHoldStep s p s.eng.cur = false →
            ∃ (u : State) (b : Fin 16), exec .gapOut s = .next { finish u with inPulse := s.inPulse } ∧
              exec .minimumGreenEnd s = .next { finish u with inPulse := s.inPulse } ∧
              NextWanted s p b ∧ BegunFrom s u p b) ∧
          (∀ m : Nat, s.tables.plan[p].cycle = 0 → s.eng.maxElapsed = some m →
            (stepOf s p s.eng.cur).maxGreen ≤ m →
            ∃ (u : State) (b : Fin 16), exec .maxOut s = .next { finish u with inPulse := s.inPulse } ∧
              exec .minimumGreenEnd s = .next { finish u with inPulse := s.inPulse } ∧
              NextWanted s p b ∧ BegunFrom s u p b) ∧
          (0 < s.tables.plan[p].cycle → mem (readCounter s).eng.passed s.eng.cur = true →
            ∃ (u : State) (b : Fin 16), exec .forceOff s = .next { finish u with inPulse := s.inPulse } ∧
              NextWanted s p b ∧ BegunFrom s u p b ∧ u.eng.lastReading = counter s p)))) ∧
  (∀ (s : State) (p : Fin 8) (c : Nat) (d : Int) (f : Fin 16 → Int), s.eng.running = some p →
    c = s.tables.plan[p].cycle → d = ((counter s p : Int) - s.eng.lastReading) % c →
    (∀ k : Fin 16, f k = ((s.tables.plan[p].entries[k].forceOff : Int) - s.eng.lastReading) % c) →
    (0 < c → (counter s p : Int) = ((s.clock.ms / 100 : Nat) - (s.tables.plan[p].offset : Int)) % c) ∧
    readCounter s = { s with eng := { s.eng with
      passed := (readCounter s).eng.passed, lastReading := if 0 < c then counter s p else s.eng.lastReading
      bigStep := false, backStep := false, rollover := false } } ∧
    ∀ k : Fin 16, mem (readCounter s).eng.passed k = true ↔ mem s.eng.passed k = true ∨
      (0 < c ∧ k.val < s.tables.plan[p].steps ∧ (s.eng.bigStep = true ∨ (s.eng.rollover = true ∧ 20 < d) ∨
        (s.eng.backStep = false ∧ 1 ≤ f k ∧ f k ≤ d)))) ∧
  (∀ (s r : State) (ran : Bool),
    (s.eng.running = none → enginePulse s ran = s) ∧
    ∀ p : Fin 8, s.eng.running = some p → r = readCounter s →
      (s.eng.stageOn = true → ran = true → ∀ (u : State) (k : Fin 16), (stepOf s p s.eng.cur).stage = num k →
        u = { r with eng := { r.eng with
          ext := if extended s k = true then (stepOf s p s.eng.cur).unitExt else s.eng.ext - 1
          maxElapsed := if s.tables.plan[p].cycle = 0 ∧ s.eng.maxElapsed = none ∧ anotherWanted s p = true then some 0
            else s.eng.maxElapsed } } →
        enginePulse s ran = if (stepOf s p s.eng.cur).minGreen ≤ s.eng.minElapsed then judgeStepEnd u p else u) ∧
      (s.eng.stageOn = true → ran = false → enginePulse s ran = r) ∧
      (s.eng.stageOn = false → enginePulse s ran = if s.eng.sub = .rest then restPulse r p else r)) ∧
  (∀ s : State,
    (s.eng.running = none ∨ s.eng.stageOn = false → refreshSub s = s) ∧
    ∀ p : Fin 8, s.eng.running = some p → s.eng.stageOn = true → ∀ x : Sub,
      (s.eng.minElapsed < (stepOf s p s.eng.cur).minGreen → x = .min) →
      ((stepOf s p s.eng.cur).minGreen ≤ s.eng.minElapsed → holdStands s = true → x = .hold) →
      ((stepOf s p s.eng.cur).minGreen ≤ s.eng.minElapsed → holdStands s = false →
        (0 < s.tables.plan[p].cycle → x = if isHoldStep s p s.eng.cur = true ∧ s.eng.dwell = true then .dwell else .extend) ∧
        (s.tables.plan[p].cycle = 0 → x = if anotherWanted s p = true then .extend else .rest)) →
      refreshSub s = { s with eng := { s.eng with sub := x } }) ∧
  ∀ (s : State) (p : Fin 8) (t : State) (due : Prop), t = judgeStepEnd s p → s.eng.cur.val < nSteps s p →
    (s.eng.orderly = true → ∃ l : State, StoppedServed l t ∧ l = { s with eng := { s.eng with
      passed := if isHoldStep s p s.eng.cur then 0 else s.eng.passed
      dwell := if isHoldStep s p s.eng.cur then false else s.eng.dwell } }) ∧
    (s.eng.orderly = false →
      (due ↔ (s.eng.ext = 0 ∧ anotherWanted s p = true ∧ isHoldStep s p s.eng.cur = false) ∨
        (s.tables.plan[p].cycle = 0 ∧ anotherWanted s p = true ∧
          ∃ m : Nat, s.eng.maxElapsed = some m ∧ (stepOf s p s.eng.cur).maxGreen ≤ m) ∨
        (0 < s.tables.plan[p].cycle ∧ mem s.eng.passed s.eng.cur = true)) →
      (s.eng.stepReq = none → (holdStands s = true → t = s) ∧
        (holdStands s = false →
          (due → EndedBy s p (wanted s p) none t) ∧
          (¬ due → ∀ q : Fin 8, s.tables.plan[p].cycle = 0 → anotherWanted s p = false → s.eng.pendingPlan = some q →
            t = takeover s q none) ∧
          (¬ due → 0 < s.tables.plan[p].cycle ∨ anotherWanted s p = true ∨ s.eng.pendingPlan = none → t = s))) ∧
      (s.eng.stepReq = some .next →
        (anotherWanted s p = true → EndedBy s p (wanted s p) (some .next) t) ∧ (anotherWanted s p = false → t = s)) ∧
      ∀ st : Fin 16, s.eng.stepReq = some (.stage st) →
        EndedBy s p (fun k => decide ((stepOf s p k).stage = num st)) (some (.stage st)) t)

/-- With the effective source MAINS a CRYSTAL_MILLISECOND changes nothing. With CRYSTAL, the accumulator takes the
trim and the clock adds 1 ms, or 2 or 0 when the accumulator has come to 1000000 or to -1000000, which is then taken
off; at 86400000 ms of day the weekday and the day counter advance and 86400000 is taken off. MIDNIGHT_ROLLOVER takes
the same rollover when the ms of day stand at 86400000 or beyond and otherwise changes nothing. MINUTE_BOUNDARY
evaluates the schedule: mode, plan and dim are those evaluated at the time, the effective values follow the overrides,
a changed mode is named to the mode machine, then a changed effective plan to the engine and as the NO_PLAN trigger,
then the dim demand formed, and the clock, the tables and the mains supervisor are as they were. That MINUTE_BOUNDARY
evaluates at any ms of day, and the guard of MIDNIGHT_ROLLOVER, are the model's choice (log entry 2). An advance of
the clock, of the crystal or of a window start, adds its milliseconds at once (a gained one with the one it follows,
the model's choice, log entry 69), takes the midnight rollover at 86400000, which marks the rollover for the engine
while it runs, with resync where its plan is coordinated, and after that evaluates the schedule, as MINUTE_BOUNDARY
does, exactly when it has reached or passed a multiple of 60,000 ms. (R98, R99, R103, R66, R83, R64, R65.) -/
def Obligations.ClockAdvances : Prop :=
  (∀ s : State,
    (effSource s = .mains → exec .crystalMillisecond s = .next (finish s)) ∧
    (∀ (n : Nat) (a : Int), effSource s = .crystal →
      (n, a) = (if 1000000 ≤ s.clock.acc + s.clock.trim then (2, s.clock.acc + s.clock.trim - 1000000)
        else if s.clock.acc + s.clock.trim ≤ -1000000 then (0, s.clock.acc + s.clock.trim + 1000000)
        else (1, s.clock.acc + s.clock.trim)) →
      ∃ t : State, exec .crystalMillisecond s = .next t ∧
        t.clock = (if s.clock.ms + n < 86400000 then { s.clock with acc := a, ms := s.clock.ms + n }
          else { s.clock with
            acc := a, ms := s.clock.ms + n - 86400000, weekday := (s.clock.weekday + 1) % 7
            day := (s.clock.day + 1) % 65536 }) ∧ t.tables = s.tables ∧ t.mains = s.mains) ∧
    (s.clock.ms < 86400000 → exec .midnightRollover s = .next (finish s)) ∧
    (86400000 ≤ s.clock.ms → ∃ u : State, exec .midnightRollover s = .next (finish u) ∧
      u.clock = { s.clock with
        ms := s.clock.ms - 86400000, weekday := (s.clock.weekday + 1) % 7, day := (s.clock.day + 1) % 65536 } ∧
      (s.eng.running ≠ none → u.eng.rollover = true)) ∧
    (∃ v w x : State,
      v = { s with
        moment := .between
        sched := { s.sched with mode := schedModeNow s, plan := schedPlanNow s, dim := schedDimNow s } } ∧
      w = (if schedModeNow s = s.sched.mode then v else settle (nameSchedule v (schedModeNow s))) ∧
      x = (if s.sched.planOverride.getD (schedPlanNow s) = s.sched.effPlan then w
        else noPlanExit (nameGoverning { w with sched := { w.sched with
          effPlan := s.sched.planOverride.getD (schedPlanNow s) } } (s.sched.planOverride.getD (schedPlanNow s)))) ∧
      exec .minuteBoundary s = .next (finish { x with sched := { x.sched with
        effDim := s.sched.dimOverride.getD (schedDimNow s) } })) ∧
    ∃ t : State, exec .minuteBoundary s = .next t ∧ t.clock = s.clock ∧ t.tables = s.tables ∧ t.mains = s.mains ∧
      t.sched.mode = schedModeNow s ∧ t.sched.plan = schedPlanNow s ∧ t.sched.dim = schedDimNow s ∧
      t.sched.planOverride = s.sched.planOverride ∧ t.sched.dimOverride = s.sched.dimOverride ∧
      t.sched.effPlan = s.sched.planOverride.getD (schedPlanNow s) ∧
      t.sched.effDim = s.sched.dimOverride.getD (schedDimNow s)) ∧
  (∀ (s : State) (n : Nat), ∃ v w : State,
    v = { s with moment := .between, clock := { s.clock with ms := s.clock.ms + n } } ∧
    (v.clock.ms < 86400000 → w = v) ∧
    (86400000 ≤ v.clock.ms → w = { v with
      clock := { v.clock with
        ms := v.clock.ms - 86400000, weekday := (v.clock.weekday + 1) % 7, day := (v.clock.day + 1) % 65536 }
      eng := (match s.eng.running with
        | none => s.eng
        | some p => { s.eng with
          rollover := true, resync := s.eng.resync || decide (0 < s.tables.plan[p].cycle) }) }) ∧
    ((∃ k : Nat, s.clock.ms < 60000 * k ∧ 60000 * k ≤ s.clock.ms + n) → advanceClock s n = evaluate w ∧
      exec .minuteBoundary w = .next (finish (evaluate w))) ∧
    ((∀ k : Nat, s.clock.ms < 60000 * k → s.clock.ms + n < 60000 * k) → advanceClock s n = w)) ∧
  ∀ s : State, effSource s = .crystal → exec .crystalMillisecond s = .next (finish
    (if 1000000 ≤ s.clock.acc + s.clock.trim then
      advanceClock { s with clock := { s.clock with acc := s.clock.acc + s.clock.trim - 1000000 } } 2
    else if s.clock.acc + s.clock.trim ≤ -1000000 then
      advanceClock { s with clock := { s.clock with acc := s.clock.acc + s.clock.trim + 1000000 } } 0
    else advanceClock { s with clock := { s.clock with acc := s.clock.acc + s.clock.trim } } 1))

/-- With the clock UNSET the schedule mode is PLAN, the schedule plan the fallback plan and the schedule dim BRIGHT.
With it set, an entry in use, one with a weekday in its day set, last came on a weekday of the set so many
milliseconds ago, counted round the week, the present moment included; the entry of a class that came last gives the
result: the schedule mode is the action of the PLAN, FLASH or DARK entry that came last, the schedule plan the plan of
the PLAN entry that came last, and the schedule dim DIM or BRIGHT by the DIM_ON or DIM_OFF entry that came last. With
no entry of the class in use the mode is PLAN, the plan is the header's default plan or, with none, the fallback plan,
and the dim is BRIGHT. Of two entries of one class that came at one moment, which a schedule written whole never holds
(R102), the lower-numbered counts, and a plan number outside 1 to 8, which no write stores, counts as the fallback
plan (both the model's choice, log entry 32). (R103, R102.) -/
def Obligations.ScheduleEvaluated : Prop :=
  ∀ (s : State) (ago : SchedEntry → Nat → Nat) (last : (Nat → Prop) → Fin 48 → Prop),
    (∀ (e : SchedEntry) (d : Nat), ago e d =
      (86400000 * s.clock.weekday + s.clock.ms + 604800000 - (86400000 * d + (60 * e.hours + e.minutes) * 60000)) %
        604800000) →
    (∀ (cls : Nat → Prop) (i : Fin 48), last cls i ↔ cls s.tables.sched[i].action ∧
      ∃ d : Nat, d < 7 ∧ mem s.tables.sched[i].days d = true ∧
        ∀ (j : Fin 48) (d' : Nat), cls s.tables.sched[j].action → d' < 7 → mem s.tables.sched[j].days d' = true →
          ago s.tables.sched[i] d < ago s.tables.sched[j] d' ∨
            (ago s.tables.sched[i] d = ago s.tables.sched[j] d' ∧ i ≤ j)) →
    (s.clock.unset = true →
      schedModeNow s = .plan ∧ schedPlanNow s = fallback s ∧ schedDimNow s = .bright) ∧
    (s.clock.unset = false →
      (∀ i : Fin 48, last (fun a => a ≤ 2) i → schedModeNow s =
        if s.tables.sched[i].action = 1 then .flash else if s.tables.sched[i].action = 2 then .dark else .plan) ∧
      (∀ (i : Fin 48) (p : Fin 8), last (fun a => a = 0) i → s.tables.sched[i].plan = num p → schedPlanNow s = p) ∧
      (∀ i : Fin 48, last (fun a => a = 0) i → ofNum 8 s.tables.sched[i].plan = none → schedPlanNow s = fallback s) ∧
      (∀ i : Fin 48, last (fun a => a = 3 ∨ a = 4) i →
        schedDimNow s = if s.tables.sched[i].action = 3 then .dim else .bright) ∧
      ((∀ (i : Fin 48) (d : Nat), d < 7 → s.tables.sched[i].action ≤ 2 → mem s.tables.sched[i].days d = false) →
        schedModeNow s = .plan) ∧
      ((∀ (i : Fin 48) (d : Nat), d < 7 → s.tables.sched[i].action = 0 → mem s.tables.sched[i].days d = false) →
        (∀ p : Fin 8, s.tables.schedDefault = num p → schedPlanNow s = p) ∧
        (ofNum 8 s.tables.schedDefault = none → schedPlanNow s = fallback s)) ∧
      ((∀ (i : Fin 48) (d : Nat), d < 7 → s.tables.sched[i].action = 3 ∨ s.tables.sched[i].action = 4 →
          mem s.tables.sched[i].days d = false) → schedDimNow s = .bright))

/-- Naming plan p keeps it as the governing plan and clears PLAN_INVALID of each plan that is VALID or is neither p
nor, with p not VALID, the fallback plan, in IDLE too (the model's choice, log entry 46), before any raise (its
choice, log entry 68). While the engine runs: p the running plan withdraws a pending plan; p VALID becomes the pending
plan; p not VALID raises PLAN_INVALID for p, with the index of its first error or 0, and the fallback plan, where it
is the running plan, withdraws a pending plan, where it is VALID, becomes the pending plan, and otherwise PLAN_INVALID
is raised for it too and a pending plan stays. Naming a schedule mode records it. FLASH or DARK in PLAN with no
departure, or one with reason SCHEDULE, sets a departure to that mode with reason SCHEDULE and asks for an orderly
stop; in FLASH or DARK, started, with reason SCHEDULE or NO_PLAN it enters that mode with reason SCHEDULE, or changes
the reason alone where it is the mode. PLAN in FLASH or DARK, started, with reason SCHEDULE leaves by START_RED from
FLASH and START_FLASH from DARK. In every other case it is recorded only. A newly governing plan is also the NO_PLAN
trigger: in FLASH or DARK with reason NO_PLAN the junction leaves in the same way with that reason, or, with schedule
mode FLASH or DARK, enters that mode with reason SCHEDULE. A takeover makes the pending plan the running plan with
none pending, the passed set empty, resync clear, dwell set just for a coordinated plan and the last reading its
counter (maximum elapsed not started, the model's choice, log entry 52): the interstage to its hold step, for an
isolated plan or NEXT to its first wanted step, for a stage to the first step naming it, begins; with none, STOP goes
to every group served and it rests. A rest with nothing served, no orderly stop set, hands over to a pending plan
where no hold stands, and otherwise seeks the next wanted step. (R66, R83, R84, R67, R58.) -/
def Obligations.GoverningNamed : Prop :=
  (∀ (s t : State) (p f : Fin 8), t = nameGoverning s p → f = fallback s →
    t = { s with coll := t.coll, eng := { s.eng with
      governing := p, pendingPlan := t.eng.pendingPlan, invalidRaised := t.eng.invalidRaised } } ∧
    ∃ u : State,
      u = { s with
        coll := { s.coll with slots := u.coll.slots, demandStands := u.coll.demandStands }
        eng := { s.eng with governing := p, invalidRaised := u.eng.invalidRaised } } ∧ StandsOn s.coll u.coll ∧
      (∀ q : Fin 8, mem u.eng.invalidRaised q = true ↔ mem s.eng.invalidRaised q = true ∧
        s.tables.plan[q].state ≠ .valid ∧ (q = p ∨ (q = f ∧ s.tables.plan[p].state ≠ .valid))) ∧
      (OneRecordEach s → ∀ i : Fin 64,
        (s.coll.slots[i] = none → u.coll.slots[i] = none) ∧
        ∀ r : FaultRec, s.coll.slots[i] = some r →
          ((∃ q : Fin 8, r.kind = .planInvalid ∧ r.subject = num q ∧ mem s.eng.invalidRaised q = true ∧
              mem u.eng.invalidRaised q = false) →
            u.coll.slots[i] = (match r.state with
              | .activeUnack => some { r with state := .clearedUnack, last := stamp s }
              | .activeAck => none
              | .clearedUnack => some r)) ∧
          (¬ (∃ q : Fin 8, r.kind = .planInvalid ∧ r.subject = num q ∧ mem s.eng.invalidRaised q = true ∧
              mem u.eng.invalidRaised q = false) → u.coll.slots[i] = some r)) ∧
      (s.eng.running = none → t = u) ∧
      ∀ r : Fin 8, s.eng.running = some r →
        (r = p → t = setEng u fun e => { e with pendingPlan := none }) ∧
        (r ≠ p → s.tables.plan[p].state = .valid → t = setEng u fun e => { e with pendingPlan := some p }) ∧
        (r ≠ p → s.tables.plan[p].state ≠ .valid → ∃ v : State, v = raiseInvalid u p ∧
          (r = f → t = setEng v fun e => { e with pendingPlan := none }) ∧
          (r ≠ f → s.tables.plan[f].state = .valid → t = setEng v fun e => { e with pendingPlan := some f }) ∧
          (r ≠ f → s.tables.plan[f].state ≠ .valid → t = if f = p then v else raiseInvalid v f))) ∧
  (∀ (s : State) (p : Fin 8) (d : Nat),
    d = (match s.tables.plan[p].state, s.tables.plan[p].errors with
      | .invalid, e :: _ => e.2
      | _, _ => 0) →
    raiseInvalid s p = { s with
      coll := (takeRaise s .planInvalid (num p) (.errIndex d)).coll
      eng := { s.eng with invalidRaised := (raiseInvalid s p).eng.invalidRaised } } ∧
    ∀ q : Fin 8, mem (raiseInvalid s p).eng.invalidRaised q = true ↔ mem s.eng.invalidRaised q = true ∨ q = p) ∧
  (∀ (s w : State) (m : SchedMode), w = { s with jm := { s.jm with schedMode := m } } →
    (s.jm.mode = .plan → m ≠ .plan → (∀ d : Departure, s.jm.departure = some d → d.reason = .schedule) →
      nameSchedule s m = orderlyStop { w with
        jm := { w.jm with departure := some ⟨if m = .flash then .flash else .dark, .schedule⟩ } } ∧
      (nameSchedule s m).eng.orderly = true) ∧
    (s.jm.mode = .flash ∨ s.jm.mode = .dark → s.jm.started = true →
      (∀ x : Mode, schedTarget m = some x → s.jm.reason = .schedule ∨ s.jm.reason = .noPlan →
        nameSchedule s m = if s.jm.mode = x then { w with jm := { w.jm with reason := .schedule } }
          else enterMode w x .schedule) ∧
      (m = .plan → s.jm.reason = .schedule →
        nameSchedule s m = enterMode w (if s.jm.mode = .flash then .startRed else .startFlash) .schedule)) ∧
    (¬ (s.jm.mode = .plan ∧ m ≠ .plan ∧ ∀ d : Departure, s.jm.departure = some d → d.reason = .schedule) →
      ¬ ((s.jm.mode = .flash ∨ s.jm.mode = .dark) ∧ s.jm.started = true ∧
        (s.jm.reason = .schedule ∨ (m ≠ .plan ∧ s.jm.reason = .noPlan))) →
      nameSchedule s m = w)) ∧
  (∀ s : State,
    (¬ ((s.jm.mode = .flash ∨ s.jm.mode = .dark) ∧ s.jm.reason = .noPlan) → noPlanExit s = s) ∧
    (s.jm.mode = .flash ∨ s.jm.mode = .dark → s.jm.reason = .noPlan →
      (s.jm.schedMode = .plan →
        noPlanExit s = enterMode s (if s.jm.mode = .flash then .startRed else .startFlash) .noPlan) ∧
      ∀ x : Mode, schedTarget s.jm.schedMode = some x →
        noPlanExit s = if s.jm.mode = x then { s with jm := { s.jm with reason := .schedule } }
          else enterMode s x .schedule)) ∧
  (∀ (s a : State) (q : Fin 8) (req : Option StepReq) (w h : Option (Fin 16)),
    a = { s with eng := { s.eng with
      running := some q, pendingPlan := none, passed := 0, resync := false, dwell := decide (0 < s.tables.plan[q].cycle)
      lastReading := counter s q, maxElapsed := none, returned := true, bigStep := false, backStep := false
      rollover := false } } →
    FirstFrom (nSteps s q) (wanted s q) w →
    (req = none → 0 < s.tables.plan[q].cycle → FirstFrom (nSteps s q) (fun k => (stepOf s q k).holdFlag) h) →
    (req = none → s.tables.plan[q].cycle = 0 → h = w) →
    (req = some .next → h = w) →
    (∀ st : Fin 16, req = some (.stage st) → ∃ x : Option (Fin 16),
      FirstFrom (nSteps s q) (fun k => decide ((stepOf s q k).stage = num st)) x ∧ h = x.orElse fun _ => w) →
    (∀ b : Fin 16, h = some b → takeover s q req = beginInterstage a q b) ∧
    (h = none → ∃ v : State, StoppedServed a v ∧ takeover s q req = { v with eng := { v.eng with cur := 0 } })) ∧
  ∀ (s : State) (p : Fin 8),
    (s.eng.orderly = true → restPulse s p = s) ∧
    (s.eng.orderly = false → ∀ q : Fin 8, s.eng.pendingPlan = some q → holdStands s = false →
      restPulse s p = takeover s q none) ∧
    (s.eng.orderly = false → s.eng.cur.val < nSteps s p → s.eng.pendingPlan = none ∨ holdStands s = true →
      SoughtFrom s p (restPulse s p))

/-- A reading equal to an entry's debounced state sets its disagreement count to 0, and one that differs advances it.
INPUT_CHANGE, while a frame of the entry's unit stands, of an entry in use whose count has reached its debounce: an
INACTIVE entry goes ACTIVE with the count 0, and one of kind PUSH_BUTTON sets the latched demand of the stages in its
demand set; an ACTIVE entry goes INACTIVE with its active time 0 and not stuck; every other entry's record, and
otherwise the latched demands, are as they were. DETECTOR_STUCK, while a pulse stands, of an ACTIVE entry of kind
DETECTOR or PUSH_BUTTON with a stuck-on limit, its active time at ten times that limit and not stuck, marks it stuck
and raises DETECTOR_STUCK. Before they are due, and after their frame or pulse, both change nothing (the model's
choice, log entry 2). A stage has demand when its latched demand is set or an entry in use names it in its demand set
and is an ACTIVE DETECTOR or is stuck (DETECTOR or PUSH_BUTTON), and is extended when an ACTIVE DETECTOR in use names
it in its extend set. A step of a plan is wanted when it is the hold step of a coordinated plan (the first with the
hold flag), or when it is recalled, not demand dependent or its stage has demand, and its stage has a group in use
outside the inhibit set. (R49, R50, R51, R48, R53.) -/
def Obligations.InputsChange : Prop :=
  (∀ (s : State) (e : Fin 64),
    ((readInput s e s.inputs[e].active).inputs = put s.inputs e { s.inputs[e] with disagree := 0 }) ∧
    (min 15 (s.inputs[e].disagree + 1) < s.tables.input[e].debounce →
      (readInput s e (!s.inputs[e].active)).inputs =
        put s.inputs e { s.inputs[e] with disagree := min 15 (s.inputs[e].disagree + 1) }) ∧
    (frameStands s (inputUnit s e) = false ∨ inputUnit s e = none ∨ s.inputs[e].disagree < s.tables.input[e].debounce →
      exec (.inputChange e) s = .next (finish s)) ∧
    (frameStands s (inputUnit s e) = true → inputUnit s e ≠ none → s.tables.input[e].debounce ≤ s.inputs[e].disagree →
      ∃ u : State, exec (.inputChange e) s = .next (finish u) ∧
        (s.inputs[e].active = false →
          u.inputs = put s.inputs e { s.inputs[e] with active := true, disagree := 0 } ∧
          u.latched = if s.tables.input[e].kind = 1 then s.latched ||| s.tables.input[e].demand else s.latched) ∧
        (s.inputs[e].active = true →
          u.inputs = put s.inputs e { active := false, disagree := 0, activeTime := 0, stuck := false } ∧
          u.latched = s.latched)) ∧
    (pulseStands s = true → timedInput s e = true → s.inputs[e].active = true → s.inputs[e].stuck = false →
      10 * s.tables.input[e].stuckLimit ≤ s.inputs[e].activeTime →
      exec (.detectorStuck e) s = .next { finish (raise
        { s with inputs := put s.inputs e { s.inputs[e] with stuck := true }, inPulse := true } .detectorStuck (num e)
        .absent) with inPulse := s.inPulse }) ∧
    (pulseStands s = false ∨ timedInput s e = false ∨ s.inputs[e].active = false ∨ s.inputs[e].stuck = true ∨
        s.inputs[e].activeTime < 10 * s.tables.input[e].stuckLimit →
      exec (.detectorStuck e) s = .next (finish s))) ∧
  ∀ (s : State) (p : Fin 8) (demand : Fin 16 → Prop),
    (∀ st : Fin 16, demand st ↔ mem s.latched st = true ∨ ∃ (e : Fin 64) (u : Fin 12),
      s.tables.input[e].fiu = num u ∧ mem s.tables.input[e].demand st = true ∧
      ((s.tables.input[e].kind = 0 ∧ s.inputs[e].active = true) ∨
        ((s.tables.input[e].kind = 0 ∨ s.tables.input[e].kind = 1) ∧ s.inputs[e].stuck = true))) →
    (∀ st : Fin 16, hasDemand s st = true ↔ demand st) ∧
    (∀ st : Fin 16, extended s st = true ↔ ∃ (e : Fin 64) (u : Fin 12), s.tables.input[e].fiu = num u ∧
      s.tables.input[e].kind = 0 ∧ s.inputs[e].active = true ∧ mem s.tables.input[e].extend st = true) ∧
    (∀ k : Fin 16, isHoldStep s p k = true ↔ 0 < s.tables.plan[p].cycle ∧ k.val < s.tables.plan[p].steps ∧
      s.tables.plan[p].entries[k].holdFlag = true ∧
      ∀ j : Fin 16, j < k → s.tables.plan[p].entries[j].holdFlag = false) ∧
    (∀ k : Fin 16, wanted s p k = true ↔ isHoldStep s p k = true ∨
      ((s.tables.plan[p].entries[k].recalled = true ∨ s.tables.plan[p].entries[k].demandDep = false ∨
        ∃ st : Fin 16, s.tables.plan[p].entries[k].stage = num st ∧ demand st) ∧
      ∃ (g : Fin 32) (st : Fin 16), s.tables.plan[p].entries[k].stage = num st ∧ live s g = true ∧
        mem s.tables.stage[st] g = true ∧ s.groups[g].inhibited = false)) ∧
    (anotherWanted s p = true ↔ ∃ k : Fin 16, k.val < s.tables.plan[p].steps ∧ k ≠ s.eng.cur ∧ wanted s p k = true)

/-- VERDICT_CONFIRM, while a frame stands that judged the circuit, of a circuit whose candidate has run to its confirm
count (recover confirm for OK and PRESENT, fail confirm for the others) makes the candidate the verdict, with no
candidate and run 0 and the lamp fault of the verdict held; every other circuit's proving record, the learn records,
cable supervision and the tables are as they were, and the red status of every group is the one formed from the new
state. With no candidate, or its run short, no proving record changes, and with no such frame standing nothing does,
so that a new confirm count is compared only at the next judged window (the model's choice, log entry 2). That a
proving enable of 1 is on is its reading (log entry 13). (R134, R135, R143, R124.) -/
def Obligations.VerdictConfirmed : Prop :=
  ∀ (s : State) (c : Fin 96),
    (frameWorked s FrameWork.judged c = false → exec (.verdictConfirm c) s = .next (finish s)) ∧
    (frameWorked s FrameWork.judged c = true → ∃ t : State, exec (.verdictConfirm c) s = .next t ∧
      t.prov.learn = s.prov.learn ∧ t.cable = s.cable ∧
      t.tables = s.tables ∧ t.map = s.map ∧ t.prov.lastWin = s.prov.lastWin ∧
      (∀ g : Fin 32, t.prov.red[g] = redStatusNow t g) ∧
      (∀ d : Fin 96, d ≠ c → t.prov.circuits[d] = s.prov.circuits[d]) ∧
      (∀ v : Verdict, s.prov.circuits[c].cand = some v →
        (if v = .ok ∨ v = .present then s.tables.proving.recoverConfirm else s.tables.proving.failConfirm) ≤
          s.prov.circuits[c].run →
        t.prov.circuits[c] = { s.prov.circuits[c] with
          verdict := v, cand := none, run := 0
          fault := match v with
            | .out => some .out
            | .absent => if s.tables.circuit[c].proving = 1 then some .out else none
            | .partialOf _ => some .part
            | .low => some .low
            | .high => some .high
            | .ok | .present | .unknown | .forced => none }) ∧
      (s.prov.circuits[c].cand = none ∨ (∃ v : Verdict, s.prov.circuits[c].cand = some v ∧ s.prov.circuits[c].run <
          (if v = .ok ∨ v = .present then s.tables.proving.recoverConfirm else s.tables.proving.failConfirm)) →
        t.prov.circuits[c] = s.prov.circuits[c]))

/-- A circuit gives red when its verdict is OK, LOW, PARTIAL, HIGH or PRESENT, it is not forced off and none of
CABLE_OPEN, CABLE_SHORT and OVERCURRENT is held raised for it; it is judged when its verdict is not UNKNOWN, it is
forced off, or one of those is held raised. A red set among the red sets used is LOST when no circuit of it gives red
and each is judged, and UNKNOWN when none gives red and one is not judged. A group in use, with a circuit map, is LOST
when a set is LOST; otherwise UNKNOWN when a set is UNKNOWN; otherwise PROVEN when every RED circuit has verdict OK
and none of the three faults held raised; and otherwise DEGRADED. With no map, and for a group UNUSED, it is UNKNOWN.
The statuses of the sets are read back in the order of the sets. Bringing the inhibit set up to date changes the
inhibit marks alone: a group that acts, by its type or with configuration open as the last START had it, is in the set
just when the inhibit demand names it or, in PLAN and DIRECT_DRIVE, it conflicts with a group whose red status is LOST
or UNKNOWN; a group's own red status does not put it there. That the types of the last START, with configuration open,
say which groups act is the model's reading (log entry 19). (R141, R142, R143, R32, R41.) -/
def Obligations.RedStatusFormed : Prop :=
  (∀ (s : State) (cut gives judged : Fin 96 → Prop),
      (∀ c : Fin 96, cut c ↔ s.cable.circuits[c].openRaised = true ∨ s.cable.circuits[c].shortRaised = true ∨
        s.cable.circuits[c].ovcRaised = true) →
      (∀ c : Fin 96, gives c ↔ ¬ cut c ∧ s.cable.circuits[c].retry = .normal ∧
        (s.prov.circuits[c].verdict = .ok ∨ s.prov.circuits[c].verdict = .low ∨
          (∃ n : Nat, s.prov.circuits[c].verdict = .partialOf n) ∨ s.prov.circuits[c].verdict = .high ∨
          s.prov.circuits[c].verdict = .present)) →
      (∀ c : Fin 96, judged c ↔ s.prov.circuits[c].verdict ≠ .unknown ∨ s.cable.circuits[c].retry ≠ .normal ∨ cut c) →
      (∀ g : Fin 32, s.map = none ∨ live s g = false → redStatusNow s g = .unknown ∧ setStatuses s g = []) ∧
      ∀ (m : CircuitMap) (g : Fin 32), s.map = some m → live s g = true → s.tables.group[g].redSets ≤ 4 →
        ((setStatuses s g).length = s.tables.group[g].redSets ∧
          ∀ (k : Fin 4), k.val < s.tables.group[g].redSets →
            ((setStatuses s g)[k.val]? = some .gives ↔ ∃ c ∈ m.groups[g].redSets[k], gives c) ∧
            ((setStatuses s g)[k.val]? = some .lost ↔ ∀ c ∈ m.groups[g].redSets[k], ¬ gives c ∧ judged c) ∧
            ((setStatuses s g)[k.val]? = some .unknown ↔ (∀ c ∈ m.groups[g].redSets[k], ¬ gives c) ∧
              ∃ c ∈ m.groups[g].redSets[k], ¬ judged c)) ∧
        (redStatusNow s g = .lost ↔ some SetStatus.lost ∈ (idx 4).map fun k => (setStatuses s g)[k.val]?) ∧
        (redStatusNow s g = .unknown ↔ SetStatus.lost ∉ setStatuses s g ∧ SetStatus.unknown ∈ setStatuses s g) ∧
        (redStatusNow s g = .proven ↔ (∀ x ∈ setStatuses s g, x = .gives) ∧
          ∀ c ∈ m.groups[g].red, s.prov.circuits[c].verdict = .ok ∧ ¬ cut c) ∧
        (redStatusNow s g = .degraded ↔ (∀ x ∈ setStatuses s g, x = .gives) ∧
          ∃ c ∈ m.groups[g].red, ¬ (s.prov.circuits[c].verdict = .ok ∧ ¬ cut c))) ∧
  ∀ s : State, refreshInhibit s = { s with groups := (refreshInhibit s).groups } ∧
    ∀ j : Fin 32, (refreshInhibit s).groups[j] =
        { s.groups[j] with inhibited := (refreshInhibit s).groups[j].inhibited } ∧
      ((refreshInhibit s).groups[j].inhibited = true ↔
        ((s.port.configOpen = false ∧ live s j = true) ∨ (s.port.configOpen = true ∧ mem s.acting j = true)) ∧
        (mem s.coll.inhibitDemand j = true ∨ ((s.jm.mode = .plan ∨ s.jm.mode = .directDrive) ∧
          ∃ i : Fin 32, live s i = true ∧ (s.prov.red[i] = .lost ∨ s.prov.red[i] = .unknown) ∧ conflicts s i j = true)))

/-- While a frame stands that was a learning window of it, for a LEARNING circuit with the count at N_min and 8 pairs
in the ring: when the spread times 1000 is at most the spread limit times the mean, LEARN_CONVERGE fails it NO_LOAD
with a mean below 32, else NO_SUPPLY with a supply mean below 50, and else is DONE: the reference part of its tap
holds the two means, and the circuit has no candidate and run 0. Otherwise, with the count at N_max, LEARN_UNSTABLE
fails it UNSTABLE. In each case the result is kept in the record and every other circuit's records and reference are
as they were. When not due, and with no such frame standing, both change nothing (the model's choice, log entry 2).
That 1 says a reference part is held is its reading (log entry 13). (R138, R139.) -/
def Obligations.LearningEnds : Prop :=
  ∀ (s : State) (c : Fin 96) (l : LearnRec) (r : LearnResult), l = s.prov.learn[c] →
    r = ⟨((l.ring.map Prod.fst).sum + 4) / 8, (l.ring.map Prod.fst).foldl max 0 - (l.ring.map Prod.fst).foldl min 65535,
      ((l.ring.map Prod.snd).sum + 4) / 8⟩ →
    (frameWorked s FrameWork.learned c = true → l.state = .learning → l.nMin ≤ l.count → l.ring.length = 8 →
      (1000 * r.spread ≤ s.tables.proving.spread * r.mean →
        exec (.learnUnstable c) s = .next (finish s) ∧
        (r.mean < 32 → exec (.learnConverge c) s = .next (finish { s with prov := { s.prov with
          learn := put s.prov.learn c { l with state := .failed, fail := some .noLoad, result := some r } } })) ∧
        (32 ≤ r.mean → r.vmean < 50 → exec (.learnConverge c) s = .next (finish { s with prov := { s.prov with
          learn := put s.prov.learn c { l with state := .failed, fail := some .noSupply, result := some r } } })) ∧
        (32 ≤ r.mean → 50 ≤ r.vmean → exec (.learnConverge c) s = .next (finish { s with
          tables := { s.tables with
            reference := put s.tables.reference c
              (match l.tap with
             | .bright => { s.tables.reference[c] with bright := ⟨1, r.mean, r.vmean⟩ }
             | .dim => { s.tables.reference[c] with dim := ⟨1, r.mean, r.vmean⟩ }) }
          prov := { s.prov with
            circuits := put s.prov.circuits c { s.prov.circuits[c] with cand := none, run := 0 }
            learn := put s.prov.learn c { l with state := .done, result := some r } } }))) ∧
      (s.tables.proving.spread * r.mean < 1000 * r.spread →
        exec (.learnConverge c) s = .next (finish s) ∧
        (l.nMax ≤ l.count → exec (.learnUnstable c) s = .next (finish { s with prov := { s.prov with
          learn := put s.prov.learn c { l with state := .failed, fail := some .unstable, result := some r } } })) ∧
        (l.count < l.nMax → exec (.learnUnstable c) s = .next (finish s)))) ∧
    (frameWorked s FrameWork.learned c = false ∨ l.state ≠ .learning ∨ l.count < l.nMin ∨ l.ring.length ≠ 8 →
      exec (.learnConverge c) s = .next (finish s) ∧ exec (.learnUnstable c) s = .next (finish s))

/-- While a frame stands that brought the result of its test: CABLE_FAULT_CONFIRM of a circuit whose mismatch run has
reached the test confirm count holds CABLE_OPEN raised and CABLE_SHORT not for an open candidate, and the other way
for a short one, and recomputes red status. While a frame stands that judged it for observed lit: CROSS_FEED_RAISE at
the confirm count, and CROSS_FEED_CLEAR at a quiet count of 25, mark and hand on the fault. While a pulse stands:
RETRY_RELEASE of a circuit in RETRY_WAIT at its retry delay returns it to NORMAL with its retry timer 0 and its
verdict UNKNOWN. TRIP_COUNT_CLEAR of a NORMAL circuit that has run clean for the trip-clear time sets its trips to 0.
Every other circuit's cable record is as it was, and what is not due (no candidate, or a run, count or timer short of
its limit) changes nothing, but that CABLE_FAULT_CONFIRM at its frame still recomputes red status, and with no such
frame or pulse standing nothing changes at all (the model's choice, log entry 2). The retry timer of 0 after a release
is the model's choice (log entry 44). (R149, R151, R153, R136, R145.) -/
def Obligations.CableFaultsHeld : Prop :=
  ∀ (s : State) (c : Fin 96),
    (frameWorked s FrameWork.tested c = true → ∀ m : Mismatch, s.cable.circuits[c].cand = some m →
      s.tables.cable.testConfirm ≤ s.cable.circuits[c].mrun →
      ∃ t : State, exec (.cableFaultConfirm c) s = .next t ∧
        t.cable = { s.cable with circuits := put s.cable.circuits c { s.cable.circuits[c] with
          openRaised := decide (m = .isOpen), shortRaised := decide (m = .short) } } ∧
        t.prov.circuits = s.prov.circuits ∧ ∀ g : Fin 32, t.prov.red[g] = redStatusNow t g) ∧
    (frameWorked s FrameWork.lit c = true → s.tables.cable.crossConfirm ≤ s.cable.circuits[c].litRun →
      s.cable.circuits[c].crossRaised = false →
      exec (.crossFeedRaise c) s = .next (finish (raise { s with cable := { s.cable with
        circuits := put s.cable.circuits c { s.cable.circuits[c] with crossRaised := true } } }
        .crossFeed (num c) .absent))) ∧
    (frameWorked s FrameWork.lit c = true → s.cable.circuits[c].crossRaised = true → 25 ≤ s.cable.circuits[c].quiet →
      exec (.crossFeedClear c) s = .next (finish (clear { s with cable := { s.cable with
        circuits := put s.cable.circuits c { s.cable.circuits[c] with crossRaised := false, quiet := 0 } } }
        .crossFeed (num c)))) ∧
    (pulseStands s = true → s.cable.circuits[c].retry = .retryWait →
      s.tables.cable.retryDelay ≤ s.cable.circuits[c].retryTimer →
      ∃ t : State, exec (.retryRelease c) s = .next t ∧
        t.cable = { s.cable with circuits := put s.cable.circuits c { s.cable.circuits[c] with
          retry := .normal, retryTimer := 0, retryFresh := false } } ∧
        t.prov.circuits[c].verdict = .unknown ∧ t.prov.circuits[c].cand = none ∧ t.prov.circuits[c].run = 0 ∧
        ∀ d : Fin 96, d ≠ c → t.prov.circuits[d] = s.prov.circuits[d]) ∧
    (pulseStands s = true → s.cable.circuits[c].retry = .normal → s.tables.cable.tripClear ≤ s.cable.circuits[c].cleanOn →
      exec (.tripCountClear c) s = .next { finish { s with
        cable := { s.cable with circuits := put s.cable.circuits c { s.cable.circuits[c] with trips := 0 } }
        inPulse := true } with inPulse := s.inPulse }) ∧
    (frameWorked s FrameWork.tested c = false → exec (.cableFaultConfirm c) s = .next (finish s)) ∧
    (frameWorked s FrameWork.tested c = true → s.cable.circuits[c].cand = none ∨
        s.cable.circuits[c].mrun < s.tables.cable.testConfirm →
      ∃ t : State, exec (.cableFaultConfirm c) s = .next t ∧ t.cable = s.cable ∧ t.prov.circuits = s.prov.circuits ∧
        ∀ g : Fin 32, t.prov.red[g] = redStatusNow t g) ∧
    (frameWorked s FrameWork.lit c = false ∨ s.cable.circuits[c].crossRaised = true ∨
        s.cable.circuits[c].litRun < s.tables.cable.crossConfirm →
      exec (.crossFeedRaise c) s = .next (finish s)) ∧
    (frameWorked s FrameWork.lit c = false ∨ s.cable.circuits[c].crossRaised = false ∨ s.cable.circuits[c].quiet < 25 →
      exec (.crossFeedClear c) s = .next (finish s)) ∧
    (pulseStands s = false ∨ s.cable.circuits[c].retry ≠ .retryWait ∨
        s.cable.circuits[c].retryTimer < s.tables.cable.retryDelay →
      exec (.retryRelease c) s = .next (finish s)) ∧
    (pulseStands s = false ∨ s.cable.circuits[c].retry ≠ .normal ∨ s.cable.circuits[c].cleanOn < s.tables.cable.tripClear →
      exec (.tripCountClear c) s = .next (finish s))

/-- While a frame of the unit stands: EARTH_LEAKAGE_RAISE of a unit whose leakage run has reached the confirm count
marks it raised and raises the fault with the unit's suspect list; EARTH_LEAKAGE_CLEAR at the quiet count of the
parameters marks it not raised and clears it. FIU_OVERTEMP_RAISE at an overtemp run of 10 and FIU_OVERTEMP_CLEAR at a
quiet count of 50 do the same for FIU_OVERTEMP. When not due, and after the frame, they change nothing (the model's
choice, log entry 2). (R155, R156, R117.) -/
def Obligations.UnitFaultsHeld : Prop :=
  ∀ (s : State) (u : Fin 12),
    exec (.earthLeakageRaise u) s = .next (finish
      (if frameStands s (some u) = true ∧
          s.tables.cable.leakConfirm ≤ s.cable.leak[u].run ∧ s.cable.leak[u].raised = false then
        raise { s with cable := { s.cable with leak := put s.cable.leak u { s.cable.leak[u] with raised := true } } }
          .earthLeakage (num u) (.suspects s.cable.leak[u].suspects)
       else s)) ∧
    exec (.earthLeakageClear u) s = .next (finish
      (if frameStands s (some u) = true ∧
          s.tables.cable.leakClear ≤ s.cable.leak[u].quiet ∧ s.cable.leak[u].raised = true then
        clear { s with cable := { s.cable with leak := put s.cable.leak u { s.cable.leak[u] with raised := false } } }
          .earthLeakage (num u)
       else s)) ∧
    exec (.fiuOvertempRaise u) s = .next (finish
      (if frameStands s (some u) = true ∧
          10 ≤ s.bus.units[u].hotRun ∧ s.bus.units[u].hotRaised = false then
        raise { s with bus := { s.bus with units := put s.bus.units u { s.bus.units[u] with hotRaised := true } } }
          .fiuOvertemp (num u) .absent
       else s)) ∧
    exec (.fiuOvertempClear u) s = .next (finish
      (if frameStands s (some u) = true ∧
          50 ≤ s.bus.units[u].hotQuiet ∧ s.bus.units[u].hotRaised = true then
        clear { s with bus := { s.bus with units := put s.bus.units u { s.bus.units[u] with hotRaised := false } } }
          .fiuOvertemp (num u)
       else s))

/-- The window verdict of a ratio q for a circuit of k lamps and tolerances t_lo and t_hi: HIGH above 1000 + t_hi;
otherwise, with n lamps lit by the nearest equal share, OK or LOW when n is k, OUT when n is 0 and PARTIAL n between.
With no reference held for the tap, or proving disabled, an eligible window is PRESENT with Isum at the presence
threshold and ABSENT below it, with no q; with a reference and Vsup outside three quarters to five quarters of its
Vref it gives no verdict. That 1 is on in the proving enable and yes in a part held, and any other value not, is the
model's reading (log entry 13). (R130, R131, R132, R133.) -/
def Obligations.WindowJudged : Prop :=
  (∀ tLo tHi k q : Nat, windowVerdict tLo tHi k q =
    if 1000 + tHi < q then .high
    else if k ≤ (k * q + 500) / 1000 then (if 1000 - tLo ≤ q then .ok else .low)
    else if k * q < 500 then .out
    else .partialOf ((k * q + 500) / 1000)) ∧
  ∀ (s : State) (c : Fin 96) (t : Tap) (isum vsup : Nat),
    (s.tables.circuit[c].proving ≠ 1 ∨ (RefEntry.part s.tables.reference[c] t).held ≠ 1 →
      judgeWindow s c t isum vsup =
        (some (if s.tables.proving.presence ≤ isum then .present else .absent), none)) ∧
    (s.tables.circuit[c].proving = 1 → (RefEntry.part s.tables.reference[c] t).held = 1 →
      (4 * vsup < 3 * (RefEntry.part s.tables.reference[c] t).vref ∨
        5 * (RefEntry.part s.tables.reference[c] t).vref < 4 * vsup → judgeWindow s c t isum vsup = (none, none)) ∧
      ∀ iexp q : Nat, 3 * (RefEntry.part s.tables.reference[c] t).vref ≤ 4 * vsup →
        4 * vsup ≤ 5 * (RefEntry.part s.tables.reference[c] t).vref →
        iexp = (if s.tables.circuit[c].loadClass = 2 then
            ((RefEntry.part s.tables.reference[c] t).iref * (RefEntry.part s.tables.reference[c] t).vref + vsup / 2) / vsup
          else ((RefEntry.part s.tables.reference[c] t).iref * vsup +
            (RefEntry.part s.tables.reference[c] t).vref / 2) / (RefEntry.part s.tables.reference[c] t).vref) →
        q = min 2000 (1000 * isum / iexp) →
        judgeWindow s c t isum vsup =
          (some (windowVerdict s.tables.proving.tLo s.tables.proving.tHi s.tables.circuit[c].k q), some q))

/-- With at most one record of each kind and subject. A raise whose record is held: a CLEARED_UNACK record becomes
ACTIVE_UNACK with its count advanced, its last-change stamp at the moment and the detail of the raise; an ACTIVE
record changes its stamp alone. With none held it takes the lowest-numbered empty slot with count 1; with no slot
empty, the slot of a CLEARED_UNACK record of an auto-recovering kind than which none is older; and with none of those
the overflow latch becomes the more severe of itself and the kind's reaction. A clear makes an ACTIVE_UNACK record
CLEARED_UNACK with its stamp at the moment, removes an ACTIVE_ACK record, and does nothing otherwise. Every other
slot, and everything but the fault table and the latch, is as it was. The hand-over after such a change forms the
inhibit demand afresh: the groups to which the INHIBIT reactions in force apply, those of circuits and units by the
circuit map and with no map to none. Only where CONFIG_OPEN left the demand, with no map and no change of the table or
the latch since, does it stand (the model's choice, log entry 33). (R159, R161, R162, R163, R165, R166, R167.) -/
def Obligations.RaisesTaken : Prop :=
  ∀ (s : State) (k : Kind) (n : Nat) (d : Detail), OneRecordEach s →
    (∀ (i : Fin 64) (r : FaultRec), s.coll.slots[i] = some r → r.kind = k → r.subject = n →
      takeRaise s k n d = { s with coll := { s.coll with
        slots := put s.coll.slots i (some
          (if r.state = .clearedUnack then
          { r with state := .activeUnack, count := min 255 (r.count + 1), last := stamp s, detail := d }
         else { r with last := stamp s }))
        demandStands := false } } ∧
      takeClear s k n = { s with coll := { s.coll with
        slots := put s.coll.slots i
          (if r.state = .activeUnack then some { r with state := .clearedUnack, last := stamp s }
         else if r.state = .activeAck then none else some r)
        demandStands := s.coll.demandStands && decide (r.state = .clearedUnack) } }) ∧
    ((∀ (i : Fin 64) (r : FaultRec), s.coll.slots[i] = some r → ¬ (r.kind = k ∧ r.subject = n)) →
      takeClear s k n = s ∧
      (∀ i : Fin 64, s.coll.slots[i] = none → (∀ j : Fin 64, j < i → s.coll.slots[j] ≠ none) →
        takeRaise s k n d = { s with coll := { s.coll with
          slots := put s.coll.slots i (some (newRecord s k n d)), demandStands := false } }) ∧
      ((∀ i : Fin 64, s.coll.slots[i] ≠ none) →
        (∀ (i : Fin 64) (r : FaultRec), s.coll.slots[i] = some r → r.state = .clearedUnack → r.kind.latching = false →
          (∀ (j : Fin 64) (q : FaultRec), s.coll.slots[j] = some q → q.state = .clearedUnack →
            q.kind.latching = false → j ≠ i →
            Stamp.older q.last r.last = false ∧ (j < i → Stamp.older r.last q.last = true)) →
          takeRaise s k n d =
            { s with coll := { s.coll with
              slots := put s.coll.slots i (some (newRecord s k n d)), demandStands := false } }) ∧
        ((∀ (i : Fin 64) (r : FaultRec), s.coll.slots[i] = some r →
            ¬ (r.state = .clearedUnack ∧ r.kind.latching = false)) →
          takeRaise s k n d = { s with coll := { s.coll with
            overflow := some (match s.coll.overflow with
            | some o => if o.severity < (reactionFor s k).severity then reactionFor s k else o
            | none => reactionFor s k)
            demandStands := false } }))) ∧
    (newRecord s k n d).state = .activeUnack ∧ (newRecord s k n d).kind = k ∧ (newRecord s k n d).subject = n ∧
    (newRecord s k n d).count = 1 ∧ (newRecord s k n d).first = stamp s ∧ (newRecord s k n d).last = stamp s ∧
    (newRecord s k n d).detail = d ∧ (newRecord s k n d).reaction = reactionFor s k ∧
    (s.coll.demandStands = true → s.map = none → formInhibit s = s) ∧
    (s.coll.demandStands = false ∨ s.map ≠ none → ∃ m : GroupSet,
      formInhibit s = { s with coll := { s.coll with inhibitDemand := m, demandStands := false } } ∧
      ∀ g : Fin 32, mem m g = true ↔ Inhibiting s s.coll.slots g)

/-- Each enumerated value of a frame, a table entry or the extended status is coded by its place, from 0, in the list
where its rule first gives the values, and the code of a target, a reaction, a dim state and a clock source reads back
as the value (that the step request and the demanded mode are coded in the order of R54 and R166 is the model's
reading, log entry 66). For every frame whose fields fit their bytes: the SENSE, IDENT and PASS answer read from the
bytes a unit sends are the frame sent, with CRC and size found good; a link frame of up to 1024 bytes sent is received
intact with its kind, tag and payload; a circuit entry, a plan header and a plan step read from the bytes that carry
them are the entry; and the sizes are those of the tables of frames: SENSE 49 bytes, IDENT 8, a PASS answer 5 and its
payload, DRIVE 8, ROLL_CALL 3, a fault table slot 27. (R169, R182, R183, R184, R181.) -/
def Obligations.FramesRoundTrip : Prop :=
  List.map aspectCode [.dark, .red, .redAmber, .green, .amber, .flashAmber, .greenFlash] = List.range 7 ∧
  List.map targetCode [.go, .stop, .flash, .dark] = List.range 4 ∧
  List.map modeCode [.dark, .startFlash, .startRed, .plan, .directDrive, .flash] = List.range 6 ∧
  List.map reasonCode [.reset, .restart, .config, .controller, .schedule, .fault, .noPlan, .mains] = List.range 8 ∧
  List.map destCode [.flash, .dark, .startRed] = List.range 3 ∧
  List.map schedModeCode [.plan, .flash, .dark] = List.range 3 ∧
  List.map planStateCode [.empty, .loaded, .valid, .invalid] = List.range 4 ∧
  List.map subCode [.idle, .interstage, .min, .extend, .rest, .hold, .dwell] = List.range 7 ∧
  List.map holdCode [none, some .stage, some .cycle] = List.range 3 ∧
  (∀ k : Fin 16, List.map stepReqCode [none, some .next, some (.stage k)] = List.range 3) ∧
  List.map timebaseCode [.locked, .substitute] = List.range 2 ∧
  List.map sourceCode [.mains, .crystal] = List.range 2 ∧
  List.map tapCode [.bright, .dim] = List.range 2 ∧
  List.map unitStateCode [.unused, .expected, .admitted, .mismatch, .lost] = List.range 5 ∧
  (∀ n : Nat, List.map verdictCode [.unknown, .ok, .low, .partialOf n, .high, .out, .present, .absent, .forced] =
    List.range 9) ∧
  List.map lampFaultCode [none, some .out, some .part, some .low, some .high] = List.range 5 ∧
  List.map learnStateCode [.idle, .learning, .done, .failed] = List.range 4 ∧
  List.map learnFailCode [.noLoad, .noSupply, .unstable] = List.range 3 ∧
  List.map setStatusCode [.gives, .lost, .unknown] = List.range 3 ∧
  List.map redStatusCode [.lost, .unknown, .proven, .degraded] = List.range 4 ∧
  List.map mismatchCode [none, some .isOpen, some .short] = List.range 3 ∧
  List.map retryCode [.normal, .retryWait, .latched] = List.range 3 ∧
  List.map testClassCode [.isOpen, .low, .high] = List.range 3 ∧
  List.map demandedCode [.dark, .flash, .none] = List.range 3 ∧
  List.map Reaction.severity [.record, .alarm, .inhibit, .flash, .dark] = List.range 5 ∧
  List.map resultCode [.done, .clamped, .busy, .malformed, .badIndex, .badValue, .inUse, .badState, .invalid,
    .conflict, .filtered, .blankIdentity, .noSlot] = List.range 13 ∧
  (∀ t : Target, Target.ofCode (targetCode t) = some t) ∧ (∀ r : Reaction, Reaction.ofCode r.severity = some r) ∧
  (∀ t : Tap, Tap.ofCode (tapCode t) = some t) ∧ (∀ c : Source, Source.ofCode (sourceCode c) = some c) ∧
  (∀ f : SenseFrame, f.wellFormed = true → f.crcGood = true → f.sizeGood = true →
    (senseBytes f).length = 49 ∧ senseOf (senseBytes f) = f) ∧
  (∀ f : IdentFrame, f.wellFormed = true → f.good = true → (identBytes f).length = 8 ∧ identOf (identBytes f) = f) ∧
  (∀ f : PassFrame, f.wellFormed = true → f.good = true →
    (passAnswerBytes f).length = 5 + f.payload.length ∧ passOf (passAnswerBytes f) = f) ∧
  (∀ (kind tag : Byte) (payload : List Byte), 7 + payload.length ≤ 1024 →
    (linkFrame kind tag payload).length = 7 + payload.length ∧
    receiveLink (linkFrame kind tag payload) = .intact kind tag payload) ∧
  (∀ e : CircuitEntry, e.wellFormed = true → (circuitBytes e).length = 10 ∧ circuitOf (circuitBytes e) = some e) ∧
  (∀ h : PlanHeader, h.cycle < 65536 → h.offset < 65536 → h.steps < 256 →
    planHeaderOf (planHeaderBytes h) = some h) ∧
  (∀ x : PlanStep, x.stage < 256 → x.minGreen < 65536 → x.maxGreen < 65536 → x.unitExt < 256 → x.forceOff < 65536 →
    (planStepOf (planStepBytes x)).map stepStored = some x) ∧
  (∀ (u : Fin 12) (w : Nat) (t : Tap) (on test bleed : BitVec 8),
    (busBytes (.drive u w t on test bleed)).length = 8 ∧ (busBytes (.rollCall u)).length = 3) ∧
  ∀ r : Option FaultRec, (faultBytes r).length = 27

/-- The reset state is lawful, holds no two fault records of one kind and subject, keeps every capacity, has its ALARM
line and its summary as the rest of it gives them, and obeys the demanded mode. (R30, R159, R114, R121, R138, R167,
R171, R88.) -/
def Obligations.ResetLawful : Prop :=
  Lawful State.reset ∧ OneRecordEach State.reset ∧ WithinCapacity State.reset ∧ Fresh State.reset ∧ Obeyed State.reset

/-- From every lawful state, a step that answers a next state answers a lawful one: two groups that conflict are never
both GREEN or RED_AMBER; with configuration closed the matrix is symmetric over the groups in use; in DARK every group
is DARK, no plan runs and no departure waits; a group of type UNUSED is DARK; and with configuration open the mode is
DARK, started is no and the reason is RESET, RESTART or CONFIG. The conditions of release (R29) carry the first
clause. (R29, R30, R41, R1, R13, R75, R177.) -/
def Obligations.LawfulKept : Prop :=
  ∀ s t : State, Lawful s → Sys2Proof.Machine.step s = .next t → Lawful t

/-- From every state in which the demanded mode handed to the mode machine is the one the fault table and the overflow
latch give, the junction mode is that mode or a more severe one, and the start red time is above 0, as every start-up
record the part accepts has it: a step that answers a next state answers another such state. So DARK demanded finds
the mode DARK, and FLASH demanded finds it FLASH or DARK, after every command. The demanded mode is DARK when a
reaction DARK is in force or the overflow latch is DARK, FLASH when it is not DARK and one is FLASH, and none
otherwise; it is handed on when it has changed. A demand more severe than the mode is entered at once with reason
FAULT. A demand that falls acts only with reason FAULT: DARK falls to FLASH, and with none demanded FLASH is left for
START_RED and DARK for START_FLASH with reason FAULT, or with schedule mode FLASH or DARK for that mode with reason
SCHEDULE (where it is the mode already, the reason alone changes). In every other case nothing changes. (R88, R166,
R167, R76, R84, R89, R165.) -/
def Obligations.DemandObeyed : Prop :=
  (∀ s t : State, Obeyed s → Sys2Proof.Machine.step s = .next t → Obeyed t) ∧
  (∀ (s : State) (held : Reaction → Prop),
    (∀ x : Reaction, held x ↔ s.coll.overflow = some x ∨ ∃ (i : Fin 64) (r : FaultRec), s.coll.slots[i] = some r ∧
      (r.state ≠ .clearedUnack ∨ r.kind.latching = true) ∧ r.reaction = x) →
    (demandedNow s = .dark ↔ held .dark) ∧ (demandedNow s = .flash ↔ ¬ held .dark ∧ held .flash)) ∧
  ∀ (s t : State) (old d : Demanded), d = demandedNow s → t = obeyDemand s old →
    (handDemand s = if d = s.coll.demanded then s else
      obeyDemand { s with coll := { s.coll with demanded := d } } s.coll.demanded) ∧
    (d = .dark → s.jm.mode ≠ .dark → t = enterMode s .dark .fault) ∧
    (d = .flash → s.jm.mode ≠ .dark → s.jm.mode ≠ .flash → t = enterMode s .flash .fault) ∧
    (s.jm.mode = .dark → s.jm.reason = .fault → old = .dark → d = .flash → t = enterMode s .flash .fault) ∧
    (s.jm.mode = .flash ∨ s.jm.mode = .dark → s.jm.reason = .fault → old ≠ .none → d = .none →
      (s.jm.schedMode = .plan → t = enterMode s (if s.jm.mode = .flash then .startRed else .startFlash) .fault) ∧
      ∀ x : Mode, schedTarget s.jm.schedMode = some x →
        t = if s.jm.mode = x then { s with jm := { s.jm with reason := .schedule } } else enterMode s x .schedule) ∧
    (¬ (d = .dark ∧ s.jm.mode ≠ .dark) → ¬ (d = .flash ∧ s.jm.mode ≠ .dark ∧ s.jm.mode ≠ .flash) →
      ¬ (s.jm.mode = .dark ∧ s.jm.reason = .fault ∧ old = .dark ∧ d = .flash) →
      ¬ ((s.jm.mode = .flash ∨ s.jm.mode = .dark) ∧ s.jm.reason = .fault ∧ old ≠ .none ∧ d = .none) → t = s)

/-- From every state in which no two fault records have the same kind and subject, four records is the most in each
composition log, 16 reports the most in the report queue with a dropped count of at most 255, and 8 pairs the most in
each learning ring, a step that answers a next state answers another such state. (R159, R114, R121, R138.) -/
def Obligations.CapacityKept : Prop :=
  (∀ s t : State, OneRecordEach s → Sys2Proof.Machine.step s = .next t → OneRecordEach t) ∧
  ∀ s t : State, WithinCapacity s → Sys2Proof.Machine.step s = .next t → WithinCapacity t

/-- From every state whose ALARM line and junction summary are those its other fields give, a step that answers a next
state answers another such state. Where the step changes the mode, the count of unacknowledged records or the ALARM
line of the summary and is not POWER_ON_RESET, an ALERT is ready or is being sent. The ALARM line is active just when
a record held, in any state, or the overflow latch has a reaction ALARM or more severe. The summary holds the mode and
its reason, the running plan, the stage of the current step (none in IDLE), whether the sub-state is INTERSTAGE, the
count of unacknowledged records, the ALARM line, whether the latch is set, whether the mode is DIRECT_DRIVE, the
applied dim of the ADMITTED units (these units, and ALL_BRIGHT with none, are the model's reading, log entry 71),
whether a learn record is LEARNING, the effective source and UNSET. (R167, R171, R172, R115, R98.) -/
def Obligations.SummaryKept : Prop :=
  (∀ s t : State, Fresh s → Sys2Proof.Machine.step s = .next t → Fresh t) ∧
  (∀ (s t : State) (c : Instr), Fresh s → exec c s = .next t → c ≠ .powerOnReset →
    (t.port.summary.mode ≠ s.port.summary.mode ∨ t.port.summary.unack ≠ s.port.summary.unack ∨
      t.port.summary.alarm ≠ s.port.summary.alarm) →
    t.port.alert ≠ none ∨ ∃ a : Alert, t.port.tx = some (.alert a)) ∧
  ∀ s : State,
    (alarmNow s = true ↔ (∃ r : Reaction, s.coll.overflow = some r ∧ r ≠ .record) ∨
      ∃ (i : Fin 64) (r : FaultRec), s.coll.slots[i] = some r ∧ r.reaction ≠ .record) ∧
    (summaryNow s).mode = s.jm.mode ∧ (summaryNow s).reason = s.jm.reason ∧ (summaryNow s).running = s.eng.running ∧
    (s.eng.running = none → (summaryNow s).stage = none) ∧
    (∀ p : Fin 8, s.eng.running = some p → (summaryNow s).stage = some s.tables.plan[p].entries[s.eng.cur].stage) ∧
    ((summaryNow s).interstage = true ↔ s.eng.sub = .interstage) ∧
    (summaryNow s).unack = ((List.finRange 64).countP fun i =>
      match s.coll.slots[i] with
      | some r => decide (r.state ≠ .activeAck)
      | none => false) ∧
    (summaryNow s).alarm = s.coll.alarm ∧ ((summaryNow s).overflow = true ↔ s.coll.overflow ≠ none) ∧
    ((summaryNow s).direct = true ↔ s.jm.mode = .directDrive) ∧
    ((summaryNow s).dim = .allBright ↔
      ∀ u : Fin 12, s.bus.units[u].state = .admitted → s.bus.units[u].dim = .bright) ∧
    ((summaryNow s).dim = .allDim ↔ (∃ u : Fin 12, s.bus.units[u].state = .admitted) ∧
      ∀ u : Fin 12, s.bus.units[u].state = .admitted → s.bus.units[u].dim = .dim) ∧
    ((summaryNow s).learning = true ↔ ∃ c : Fin 96, s.prov.learn[c].state = .learning) ∧
    ((summaryNow s).source = .mains ↔ s.clock.preferred = .mains ∧ s.mains.timebase ≠ .substitute) ∧
    (summaryNow s).unset = s.clock.unset
end

