-- ==== Sys2Proof/Laws/State.lean ====
section
/-! SUPPORT. Laws.State: what each record update of Ops leaves in each field of the state, and reading a table after an entry is written. -/

namespace Sys2Proof

open Machine

/-! ## Tables -/

/-- Entry `i` of a table given entry by entry. -/
theorem getElem_tab {α : Type} {n : Nat} (f : Fin n → α) (i : Fin n) : (tab f)[i] = f i := by
  simp [tab]

@[simp] theorem getElem_tab_val {α : Type} {n : Nat} (f : Fin n → α) (i : Nat) (h : i < n) :
    (tab f)[i] = f ⟨i, h⟩ := by
  simp [tab]

/-- Entry `i` after entry `i` is replaced. -/
theorem getElem_put_self {α : Type} {n : Nat} (t : Vector α n) (i : Fin n) (x : α) : (put t i x)[i] = x := by
  simp [put]

@[simp] theorem getElem_put_self_val {α : Type} {n : Nat} (t : Vector α n) (i : Fin n) (x : α) :
    (put t i x)[i.val] = x := by
  simp [put]

/-- Entry `j` after another entry is replaced. -/
theorem getElem_put_of_ne {α : Type} {n : Nat} (t : Vector α n) (i j : Fin n) (x : α) (h : i ≠ j) :
    (put t i x)[j] = t[j] := by
  have h' : i.val ≠ j.val := fun e => h (Fin.ext e)
  simp [put, Vector.getElem_set_ne _ _ h']

/-- Entry `i` after entry `i` is rewritten. -/
theorem getElem_upd_self {α : Type} {n : Nat} (t : Vector α n) (i : Fin n) (f : α → α) : (upd t i f)[i] = f t[i] :=
  getElem_put_self t i _

@[simp] theorem getElem_upd_self_val {α : Type} {n : Nat} (t : Vector α n) (i : Fin n) (f : α → α) :
    (upd t i f)[i.val] = f t[i.val] := getElem_put_self t i _

/-- Entry `j` after another entry is rewritten. -/
theorem getElem_upd_of_ne {α : Type} {n : Nat} (t : Vector α n) (i j : Fin n) (f : α → α) (h : i ≠ j) :
    (upd t i f)[j] = t[j] := getElem_put_of_ne t i j _ h

end Sys2Proof

namespace Sys2Proof.Machine

open Sys2Proof

variable (s : State)

/-! ## setGroup -/

@[simp] theorem setGroup_tables (g : Fin 32) (f : GroupRec → GroupRec) : (setGroup s g f).tables = s.tables := rfl
@[simp] theorem setGroup_map (g : Fin 32) (f : GroupRec → GroupRec) : (setGroup s g f).map = s.map := rfl
@[simp] theorem setGroup_groups (g : Fin 32) (f : GroupRec → GroupRec) : (setGroup s g f).groups = upd s.groups g f := rfl
@[simp] theorem setGroup_acting (g : Fin 32) (f : GroupRec → GroupRec) : (setGroup s g f).acting = s.acting := rfl
@[simp] theorem setGroup_junctionRun (g : Fin 32) (f : GroupRec → GroupRec) : (setGroup s g f).junctionRun = s.junctionRun := rfl
@[simp] theorem setGroup_clearRuns (g : Fin 32) (f : GroupRec → GroupRec) : (setGroup s g f).clearRuns = s.clearRuns := rfl
@[simp] theorem setGroup_eng (g : Fin 32) (f : GroupRec → GroupRec) : (setGroup s g f).eng = s.eng := rfl
@[simp] theorem setGroup_inputs (g : Fin 32) (f : GroupRec → GroupRec) : (setGroup s g f).inputs = s.inputs := rfl
@[simp] theorem setGroup_latched (g : Fin 32) (f : GroupRec → GroupRec) : (setGroup s g f).latched = s.latched := rfl
@[simp] theorem setGroup_jm (g : Fin 32) (f : GroupRec → GroupRec) : (setGroup s g f).jm = s.jm := rfl
@[simp] theorem setGroup_mains (g : Fin 32) (f : GroupRec → GroupRec) : (setGroup s g f).mains = s.mains := rfl
@[simp] theorem setGroup_clock (g : Fin 32) (f : GroupRec → GroupRec) : (setGroup s g f).clock = s.clock := rfl
@[simp] theorem setGroup_sched (g : Fin 32) (f : GroupRec → GroupRec) : (setGroup s g f).sched = s.sched := rfl
@[simp] theorem setGroup_bus (g : Fin 32) (f : GroupRec → GroupRec) : (setGroup s g f).bus = s.bus := rfl
@[simp] theorem setGroup_prov (g : Fin 32) (f : GroupRec → GroupRec) : (setGroup s g f).prov = s.prov := rfl
@[simp] theorem setGroup_cable (g : Fin 32) (f : GroupRec → GroupRec) : (setGroup s g f).cable = s.cable := rfl
@[simp] theorem setGroup_coll (g : Fin 32) (f : GroupRec → GroupRec) : (setGroup s g f).coll = s.coll := rfl
@[simp] theorem setGroup_port (g : Fin 32) (f : GroupRec → GroupRec) : (setGroup s g f).port = s.port := rfl
@[simp] theorem setGroup_inPulse (g : Fin 32) (f : GroupRec → GroupRec) : (setGroup s g f).inPulse = s.inPulse := rfl
@[simp] theorem setGroup_moment (g : Fin 32) (f : GroupRec → GroupRec) : (setGroup s g f).moment = s.moment := rfl
@[simp] theorem setGroup_pending (g : Fin 32) (f : GroupRec → GroupRec) : (setGroup s g f).pending = s.pending := rfl

/-! ## setUnit -/

@[simp] theorem setUnit_tables (u : Fin 12) (f : UnitRec → UnitRec) : (setUnit s u f).tables = s.tables := rfl
@[simp] theorem setUnit_map (u : Fin 12) (f : UnitRec → UnitRec) : (setUnit s u f).map = s.map := rfl
@[simp] theorem setUnit_groups (u : Fin 12) (f : UnitRec → UnitRec) : (setUnit s u f).groups = s.groups := rfl
@[simp] theorem setUnit_acting (u : Fin 12) (f : UnitRec → UnitRec) : (setUnit s u f).acting = s.acting := rfl
@[simp] theorem setUnit_junctionRun (u : Fin 12) (f : UnitRec → UnitRec) : (setUnit s u f).junctionRun = s.junctionRun := rfl
@[simp] theorem setUnit_clearRuns (u : Fin 12) (f : UnitRec → UnitRec) : (setUnit s u f).clearRuns = s.clearRuns := rfl
@[simp] theorem setUnit_eng (u : Fin 12) (f : UnitRec → UnitRec) : (setUnit s u f).eng = s.eng := rfl
@[simp] theorem setUnit_inputs (u : Fin 12) (f : UnitRec → UnitRec) : (setUnit s u f).inputs = s.inputs := rfl
@[simp] theorem setUnit_latched (u : Fin 12) (f : UnitRec → UnitRec) : (setUnit s u f).latched = s.latched := rfl
@[simp] theorem setUnit_jm (u : Fin 12) (f : UnitRec → UnitRec) : (setUnit s u f).jm = s.jm := rfl
@[simp] theorem setUnit_mains (u : Fin 12) (f : UnitRec → UnitRec) : (setUnit s u f).mains = s.mains := rfl
@[simp] theorem setUnit_clock (u : Fin 12) (f : UnitRec → UnitRec) : (setUnit s u f).clock = s.clock := rfl
@[simp] theorem setUnit_sched (u : Fin 12) (f : UnitRec → UnitRec) : (setUnit s u f).sched = s.sched := rfl
@[simp] theorem setUnit_bus (u : Fin 12) (f : UnitRec → UnitRec) : (setUnit s u f).bus = { s.bus with units := upd s.bus.units u f } := rfl
@[simp] theorem setUnit_prov (u : Fin 12) (f : UnitRec → UnitRec) : (setUnit s u f).prov = s.prov := rfl
@[simp] theorem setUnit_cable (u : Fin 12) (f : UnitRec → UnitRec) : (setUnit s u f).cable = s.cable := rfl
@[simp] theorem setUnit_coll (u : Fin 12) (f : UnitRec → UnitRec) : (setUnit s u f).coll = s.coll := rfl
@[simp] theorem setUnit_port (u : Fin 12) (f : UnitRec → UnitRec) : (setUnit s u f).port = s.port := rfl
@[simp] theorem setUnit_inPulse (u : Fin 12) (f : UnitRec → UnitRec) : (setUnit s u f).inPulse = s.inPulse := rfl
@[simp] theorem setUnit_moment (u : Fin 12) (f : UnitRec → UnitRec) : (setUnit s u f).moment = s.moment := rfl
@[simp] theorem setUnit_pending (u : Fin 12) (f : UnitRec → UnitRec) : (setUnit s u f).pending = s.pending := rfl

/-! ## setProv -/

@[simp] theorem setProv_tables (c : Fin 96) (f : ProvRec → ProvRec) : (setProv s c f).tables = s.tables := rfl
@[simp] theorem setProv_map (c : Fin 96) (f : ProvRec → ProvRec) : (setProv s c f).map = s.map := rfl
@[simp] theorem setProv_groups (c : Fin 96) (f : ProvRec → ProvRec) : (setProv s c f).groups = s.groups := rfl
@[simp] theorem setProv_acting (c : Fin 96) (f : ProvRec → ProvRec) : (setProv s c f).acting = s.acting := rfl
@[simp] theorem setProv_junctionRun (c : Fin 96) (f : ProvRec → ProvRec) : (setProv s c f).junctionRun = s.junctionRun := rfl
@[simp] theorem setProv_clearRuns (c : Fin 96) (f : ProvRec → ProvRec) : (setProv s c f).clearRuns = s.clearRuns := rfl
@[simp] theorem setProv_eng (c : Fin 96) (f : ProvRec → ProvRec) : (setProv s c f).eng = s.eng := rfl
@[simp] theorem setProv_inputs (c : Fin 96) (f : ProvRec → ProvRec) : (setProv s c f).inputs = s.inputs := rfl
@[simp] theorem setProv_latched (c : Fin 96) (f : ProvRec → ProvRec) : (setProv s c f).latched = s.latched := rfl
@[simp] theorem setProv_jm (c : Fin 96) (f : ProvRec → ProvRec) : (setProv s c f).jm = s.jm := rfl
@[simp] theorem setProv_mains (c : Fin 96) (f : ProvRec → ProvRec) : (setProv s c f).mains = s.mains := rfl
@[simp] theorem setProv_clock (c : Fin 96) (f : ProvRec → ProvRec) : (setProv s c f).clock = s.clock := rfl
@[simp] theorem setProv_sched (c : Fin 96) (f : ProvRec → ProvRec) : (setProv s c f).sched = s.sched := rfl
@[simp] theorem setProv_bus (c : Fin 96) (f : ProvRec → ProvRec) : (setProv s c f).bus = s.bus := rfl
@[simp] theorem setProv_prov (c : Fin 96) (f : ProvRec → ProvRec) : (setProv s c f).prov = { s.prov with circuits := upd s.prov.circuits c f } := rfl
@[simp] theorem setProv_cable (c : Fin 96) (f : ProvRec → ProvRec) : (setProv s c f).cable = s.cable := rfl
@[simp] theorem setProv_coll (c : Fin 96) (f : ProvRec → ProvRec) : (setProv s c f).coll = s.coll := rfl
@[simp] theorem setProv_port (c : Fin 96) (f : ProvRec → ProvRec) : (setProv s c f).port = s.port := rfl
@[simp] theorem setProv_inPulse (c : Fin 96) (f : ProvRec → ProvRec) : (setProv s c f).inPulse = s.inPulse := rfl
@[simp] theorem setProv_moment (c : Fin 96) (f : ProvRec → ProvRec) : (setProv s c f).moment = s.moment := rfl
@[simp] theorem setProv_pending (c : Fin 96) (f : ProvRec → ProvRec) : (setProv s c f).pending = s.pending := rfl

/-! ## setLearn -/

@[simp] theorem setLearn_tables (c : Fin 96) (f : LearnRec → LearnRec) : (setLearn s c f).tables = s.tables := rfl
@[simp] theorem setLearn_map (c : Fin 96) (f : LearnRec → LearnRec) : (setLearn s c f).map = s.map := rfl
@[simp] theorem setLearn_groups (c : Fin 96) (f : LearnRec → LearnRec) : (setLearn s c f).groups = s.groups := rfl
@[simp] theorem setLearn_acting (c : Fin 96) (f : LearnRec → LearnRec) : (setLearn s c f).acting = s.acting := rfl
@[simp] theorem setLearn_junctionRun (c : Fin 96) (f : LearnRec → LearnRec) : (setLearn s c f).junctionRun = s.junctionRun := rfl
@[simp] theorem setLearn_clearRuns (c : Fin 96) (f : LearnRec → LearnRec) : (setLearn s c f).clearRuns = s.clearRuns := rfl
@[simp] theorem setLearn_eng (c : Fin 96) (f : LearnRec → LearnRec) : (setLearn s c f).eng = s.eng := rfl
@[simp] theorem setLearn_inputs (c : Fin 96) (f : LearnRec → LearnRec) : (setLearn s c f).inputs = s.inputs := rfl
@[simp] theorem setLearn_latched (c : Fin 96) (f : LearnRec → LearnRec) : (setLearn s c f).latched = s.latched := rfl
@[simp] theorem setLearn_jm (c : Fin 96) (f : LearnRec → LearnRec) : (setLearn s c f).jm = s.jm := rfl
@[simp] theorem setLearn_mains (c : Fin 96) (f : LearnRec → LearnRec) : (setLearn s c f).mains = s.mains := rfl
@[simp] theorem setLearn_clock (c : Fin 96) (f : LearnRec → LearnRec) : (setLearn s c f).clock = s.clock := rfl
@[simp] theorem setLearn_sched (c : Fin 96) (f : LearnRec → LearnRec) : (setLearn s c f).sched = s.sched := rfl
@[simp] theorem setLearn_bus (c : Fin 96) (f : LearnRec → LearnRec) : (setLearn s c f).bus = s.bus := rfl
@[simp] theorem setLearn_prov (c : Fin 96) (f : LearnRec → LearnRec) : (setLearn s c f).prov = { s.prov with learn := upd s.prov.learn c f } := rfl
@[simp] theorem setLearn_cable (c : Fin 96) (f : LearnRec → LearnRec) : (setLearn s c f).cable = s.cable := rfl
@[simp] theorem setLearn_coll (c : Fin 96) (f : LearnRec → LearnRec) : (setLearn s c f).coll = s.coll := rfl
@[simp] theorem setLearn_port (c : Fin 96) (f : LearnRec → LearnRec) : (setLearn s c f).port = s.port := rfl
@[simp] theorem setLearn_inPulse (c : Fin 96) (f : LearnRec → LearnRec) : (setLearn s c f).inPulse = s.inPulse := rfl
@[simp] theorem setLearn_moment (c : Fin 96) (f : LearnRec → LearnRec) : (setLearn s c f).moment = s.moment := rfl
@[simp] theorem setLearn_pending (c : Fin 96) (f : LearnRec → LearnRec) : (setLearn s c f).pending = s.pending := rfl

/-! ## setCable -/

@[simp] theorem setCable_tables (c : Fin 96) (f : CableRec → CableRec) : (setCable s c f).tables = s.tables := rfl
@[simp] theorem setCable_map (c : Fin 96) (f : CableRec → CableRec) : (setCable s c f).map = s.map := rfl
@[simp] theorem setCable_groups (c : Fin 96) (f : CableRec → CableRec) : (setCable s c f).groups = s.groups := rfl
@[simp] theorem setCable_acting (c : Fin 96) (f : CableRec → CableRec) : (setCable s c f).acting = s.acting := rfl
@[simp] theorem setCable_junctionRun (c : Fin 96) (f : CableRec → CableRec) : (setCable s c f).junctionRun = s.junctionRun := rfl
@[simp] theorem setCable_clearRuns (c : Fin 96) (f : CableRec → CableRec) : (setCable s c f).clearRuns = s.clearRuns := rfl
@[simp] theorem setCable_eng (c : Fin 96) (f : CableRec → CableRec) : (setCable s c f).eng = s.eng := rfl
@[simp] theorem setCable_inputs (c : Fin 96) (f : CableRec → CableRec) : (setCable s c f).inputs = s.inputs := rfl
@[simp] theorem setCable_latched (c : Fin 96) (f : CableRec → CableRec) : (setCable s c f).latched = s.latched := rfl
@[simp] theorem setCable_jm (c : Fin 96) (f : CableRec → CableRec) : (setCable s c f).jm = s.jm := rfl
@[simp] theorem setCable_mains (c : Fin 96) (f : CableRec → CableRec) : (setCable s c f).mains = s.mains := rfl
@[simp] theorem setCable_clock (c : Fin 96) (f : CableRec → CableRec) : (setCable s c f).clock = s.clock := rfl
@[simp] theorem setCable_sched (c : Fin 96) (f : CableRec → CableRec) : (setCable s c f).sched = s.sched := rfl
@[simp] theorem setCable_bus (c : Fin 96) (f : CableRec → CableRec) : (setCable s c f).bus = s.bus := rfl
@[simp] theorem setCable_prov (c : Fin 96) (f : CableRec → CableRec) : (setCable s c f).prov = s.prov := rfl
@[simp] theorem setCable_cable (c : Fin 96) (f : CableRec → CableRec) : (setCable s c f).cable = { s.cable with circuits := upd s.cable.circuits c f } := rfl
@[simp] theorem setCable_coll (c : Fin 96) (f : CableRec → CableRec) : (setCable s c f).coll = s.coll := rfl
@[simp] theorem setCable_port (c : Fin 96) (f : CableRec → CableRec) : (setCable s c f).port = s.port := rfl
@[simp] theorem setCable_inPulse (c : Fin 96) (f : CableRec → CableRec) : (setCable s c f).inPulse = s.inPulse := rfl
@[simp] theorem setCable_moment (c : Fin 96) (f : CableRec → CableRec) : (setCable s c f).moment = s.moment := rfl
@[simp] theorem setCable_pending (c : Fin 96) (f : CableRec → CableRec) : (setCable s c f).pending = s.pending := rfl

/-! ## setLeak -/

@[simp] theorem setLeak_tables (u : Fin 12) (f : LeakRec → LeakRec) : (setLeak s u f).tables = s.tables := rfl
@[simp] theorem setLeak_map (u : Fin 12) (f : LeakRec → LeakRec) : (setLeak s u f).map = s.map := rfl
@[simp] theorem setLeak_groups (u : Fin 12) (f : LeakRec → LeakRec) : (setLeak s u f).groups = s.groups := rfl
@[simp] theorem setLeak_acting (u : Fin 12) (f : LeakRec → LeakRec) : (setLeak s u f).acting = s.acting := rfl
@[simp] theorem setLeak_junctionRun (u : Fin 12) (f : LeakRec → LeakRec) : (setLeak s u f).junctionRun = s.junctionRun := rfl
@[simp] theorem setLeak_clearRuns (u : Fin 12) (f : LeakRec → LeakRec) : (setLeak s u f).clearRuns = s.clearRuns := rfl
@[simp] theorem setLeak_eng (u : Fin 12) (f : LeakRec → LeakRec) : (setLeak s u f).eng = s.eng := rfl
@[simp] theorem setLeak_inputs (u : Fin 12) (f : LeakRec → LeakRec) : (setLeak s u f).inputs = s.inputs := rfl
@[simp] theorem setLeak_latched (u : Fin 12) (f : LeakRec → LeakRec) : (setLeak s u f).latched = s.latched := rfl
@[simp] theorem setLeak_jm (u : Fin 12) (f : LeakRec → LeakRec) : (setLeak s u f).jm = s.jm := rfl
@[simp] theorem setLeak_mains (u : Fin 12) (f : LeakRec → LeakRec) : (setLeak s u f).mains = s.mains := rfl
@[simp] theorem setLeak_clock (u : Fin 12) (f : LeakRec → LeakRec) : (setLeak s u f).clock = s.clock := rfl
@[simp] theorem setLeak_sched (u : Fin 12) (f : LeakRec → LeakRec) : (setLeak s u f).sched = s.sched := rfl
@[simp] theorem setLeak_bus (u : Fin 12) (f : LeakRec → LeakRec) : (setLeak s u f).bus = s.bus := rfl
@[simp] theorem setLeak_prov (u : Fin 12) (f : LeakRec → LeakRec) : (setLeak s u f).prov = s.prov := rfl
@[simp] theorem setLeak_cable (u : Fin 12) (f : LeakRec → LeakRec) : (setLeak s u f).cable = { s.cable with leak := upd s.cable.leak u f } := rfl
@[simp] theorem setLeak_coll (u : Fin 12) (f : LeakRec → LeakRec) : (setLeak s u f).coll = s.coll := rfl
@[simp] theorem setLeak_port (u : Fin 12) (f : LeakRec → LeakRec) : (setLeak s u f).port = s.port := rfl
@[simp] theorem setLeak_inPulse (u : Fin 12) (f : LeakRec → LeakRec) : (setLeak s u f).inPulse = s.inPulse := rfl
@[simp] theorem setLeak_moment (u : Fin 12) (f : LeakRec → LeakRec) : (setLeak s u f).moment = s.moment := rfl
@[simp] theorem setLeak_pending (u : Fin 12) (f : LeakRec → LeakRec) : (setLeak s u f).pending = s.pending := rfl

/-! ## setInput -/

@[simp] theorem setInput_tables (e : Fin 64) (f : InputRec → InputRec) : (setInput s e f).tables = s.tables := rfl
@[simp] theorem setInput_map (e : Fin 64) (f : InputRec → InputRec) : (setInput s e f).map = s.map := rfl
@[simp] theorem setInput_groups (e : Fin 64) (f : InputRec → InputRec) : (setInput s e f).groups = s.groups := rfl
@[simp] theorem setInput_acting (e : Fin 64) (f : InputRec → InputRec) : (setInput s e f).acting = s.acting := rfl
@[simp] theorem setInput_junctionRun (e : Fin 64) (f : InputRec → InputRec) : (setInput s e f).junctionRun = s.junctionRun := rfl
@[simp] theorem setInput_clearRuns (e : Fin 64) (f : InputRec → InputRec) : (setInput s e f).clearRuns = s.clearRuns := rfl
@[simp] theorem setInput_eng (e : Fin 64) (f : InputRec → InputRec) : (setInput s e f).eng = s.eng := rfl
@[simp] theorem setInput_inputs (e : Fin 64) (f : InputRec → InputRec) : (setInput s e f).inputs = upd s.inputs e f := rfl
@[simp] theorem setInput_latched (e : Fin 64) (f : InputRec → InputRec) : (setInput s e f).latched = s.latched := rfl
@[simp] theorem setInput_jm (e : Fin 64) (f : InputRec → InputRec) : (setInput s e f).jm = s.jm := rfl
@[simp] theorem setInput_mains (e : Fin 64) (f : InputRec → InputRec) : (setInput s e f).mains = s.mains := rfl
@[simp] theorem setInput_clock (e : Fin 64) (f : InputRec → InputRec) : (setInput s e f).clock = s.clock := rfl
@[simp] theorem setInput_sched (e : Fin 64) (f : InputRec → InputRec) : (setInput s e f).sched = s.sched := rfl
@[simp] theorem setInput_bus (e : Fin 64) (f : InputRec → InputRec) : (setInput s e f).bus = s.bus := rfl
@[simp] theorem setInput_prov (e : Fin 64) (f : InputRec → InputRec) : (setInput s e f).prov = s.prov := rfl
@[simp] theorem setInput_cable (e : Fin 64) (f : InputRec → InputRec) : (setInput s e f).cable = s.cable := rfl
@[simp] theorem setInput_coll (e : Fin 64) (f : InputRec → InputRec) : (setInput s e f).coll = s.coll := rfl
@[simp] theorem setInput_port (e : Fin 64) (f : InputRec → InputRec) : (setInput s e f).port = s.port := rfl
@[simp] theorem setInput_inPulse (e : Fin 64) (f : InputRec → InputRec) : (setInput s e f).inPulse = s.inPulse := rfl
@[simp] theorem setInput_moment (e : Fin 64) (f : InputRec → InputRec) : (setInput s e f).moment = s.moment := rfl
@[simp] theorem setInput_pending (e : Fin 64) (f : InputRec → InputRec) : (setInput s e f).pending = s.pending := rfl

/-! ## setEng -/

@[simp] theorem setEng_tables (f : Engine → Engine) : (setEng s f).tables = s.tables := rfl
@[simp] theorem setEng_map (f : Engine → Engine) : (setEng s f).map = s.map := rfl
@[simp] theorem setEng_groups (f : Engine → Engine) : (setEng s f).groups = s.groups := rfl
@[simp] theorem setEng_acting (f : Engine → Engine) : (setEng s f).acting = s.acting := rfl
@[simp] theorem setEng_junctionRun (f : Engine → Engine) : (setEng s f).junctionRun = s.junctionRun := rfl
@[simp] theorem setEng_clearRuns (f : Engine → Engine) : (setEng s f).clearRuns = s.clearRuns := rfl
@[simp] theorem setEng_eng (f : Engine → Engine) : (setEng s f).eng = f s.eng := rfl
@[simp] theorem setEng_inputs (f : Engine → Engine) : (setEng s f).inputs = s.inputs := rfl
@[simp] theorem setEng_latched (f : Engine → Engine) : (setEng s f).latched = s.latched := rfl
@[simp] theorem setEng_jm (f : Engine → Engine) : (setEng s f).jm = s.jm := rfl
@[simp] theorem setEng_mains (f : Engine → Engine) : (setEng s f).mains = s.mains := rfl
@[simp] theorem setEng_clock (f : Engine → Engine) : (setEng s f).clock = s.clock := rfl
@[simp] theorem setEng_sched (f : Engine → Engine) : (setEng s f).sched = s.sched := rfl
@[simp] theorem setEng_bus (f : Engine → Engine) : (setEng s f).bus = s.bus := rfl
@[simp] theorem setEng_prov (f : Engine → Engine) : (setEng s f).prov = s.prov := rfl
@[simp] theorem setEng_cable (f : Engine → Engine) : (setEng s f).cable = s.cable := rfl
@[simp] theorem setEng_coll (f : Engine → Engine) : (setEng s f).coll = s.coll := rfl
@[simp] theorem setEng_port (f : Engine → Engine) : (setEng s f).port = s.port := rfl
@[simp] theorem setEng_inPulse (f : Engine → Engine) : (setEng s f).inPulse = s.inPulse := rfl
@[simp] theorem setEng_moment (f : Engine → Engine) : (setEng s f).moment = s.moment := rfl
@[simp] theorem setEng_pending (f : Engine → Engine) : (setEng s f).pending = s.pending := rfl

/-! ## setMode -/

@[simp] theorem setMode_tables (f : ModeRec → ModeRec) : (setMode s f).tables = s.tables := rfl
@[simp] theorem setMode_map (f : ModeRec → ModeRec) : (setMode s f).map = s.map := rfl
@[simp] theorem setMode_groups (f : ModeRec → ModeRec) : (setMode s f).groups = s.groups := rfl
@[simp] theorem setMode_acting (f : ModeRec → ModeRec) : (setMode s f).acting = s.acting := rfl
@[simp] theorem setMode_junctionRun (f : ModeRec → ModeRec) : (setMode s f).junctionRun = s.junctionRun := rfl
@[simp] theorem setMode_clearRuns (f : ModeRec → ModeRec) : (setMode s f).clearRuns = s.clearRuns := rfl
@[simp] theorem setMode_eng (f : ModeRec → ModeRec) : (setMode s f).eng = s.eng := rfl
@[simp] theorem setMode_inputs (f : ModeRec → ModeRec) : (setMode s f).inputs = s.inputs := rfl
@[simp] theorem setMode_latched (f : ModeRec → ModeRec) : (setMode s f).latched = s.latched := rfl
@[simp] theorem setMode_jm (f : ModeRec → ModeRec) : (setMode s f).jm = f s.jm := rfl
@[simp] theorem setMode_mains (f : ModeRec → ModeRec) : (setMode s f).mains = s.mains := rfl
@[simp] theorem setMode_clock (f : ModeRec → ModeRec) : (setMode s f).clock = s.clock := rfl
@[simp] theorem setMode_sched (f : ModeRec → ModeRec) : (setMode s f).sched = s.sched := rfl
@[simp] theorem setMode_bus (f : ModeRec → ModeRec) : (setMode s f).bus = s.bus := rfl
@[simp] theorem setMode_prov (f : ModeRec → ModeRec) : (setMode s f).prov = s.prov := rfl
@[simp] theorem setMode_cable (f : ModeRec → ModeRec) : (setMode s f).cable = s.cable := rfl
@[simp] theorem setMode_coll (f : ModeRec → ModeRec) : (setMode s f).coll = s.coll := rfl
@[simp] theorem setMode_port (f : ModeRec → ModeRec) : (setMode s f).port = s.port := rfl
@[simp] theorem setMode_inPulse (f : ModeRec → ModeRec) : (setMode s f).inPulse = s.inPulse := rfl
@[simp] theorem setMode_moment (f : ModeRec → ModeRec) : (setMode s f).moment = s.moment := rfl
@[simp] theorem setMode_pending (f : ModeRec → ModeRec) : (setMode s f).pending = s.pending := rfl

/-! ## setMains -/

@[simp] theorem setMains_tables (f : Mains → Mains) : (setMains s f).tables = s.tables := rfl
@[simp] theorem setMains_map (f : Mains → Mains) : (setMains s f).map = s.map := rfl
@[simp] theorem setMains_groups (f : Mains → Mains) : (setMains s f).groups = s.groups := rfl
@[simp] theorem setMains_acting (f : Mains → Mains) : (setMains s f).acting = s.acting := rfl
@[simp] theorem setMains_junctionRun (f : Mains → Mains) : (setMains s f).junctionRun = s.junctionRun := rfl
@[simp] theorem setMains_clearRuns (f : Mains → Mains) : (setMains s f).clearRuns = s.clearRuns := rfl
@[simp] theorem setMains_eng (f : Mains → Mains) : (setMains s f).eng = s.eng := rfl
@[simp] theorem setMains_inputs (f : Mains → Mains) : (setMains s f).inputs = s.inputs := rfl
@[simp] theorem setMains_latched (f : Mains → Mains) : (setMains s f).latched = s.latched := rfl
@[simp] theorem setMains_jm (f : Mains → Mains) : (setMains s f).jm = s.jm := rfl
@[simp] theorem setMains_mains (f : Mains → Mains) : (setMains s f).mains = f s.mains := rfl
@[simp] theorem setMains_clock (f : Mains → Mains) : (setMains s f).clock = s.clock := rfl
@[simp] theorem setMains_sched (f : Mains → Mains) : (setMains s f).sched = s.sched := rfl
@[simp] theorem setMains_bus (f : Mains → Mains) : (setMains s f).bus = s.bus := rfl
@[simp] theorem setMains_prov (f : Mains → Mains) : (setMains s f).prov = s.prov := rfl
@[simp] theorem setMains_cable (f : Mains → Mains) : (setMains s f).cable = s.cable := rfl
@[simp] theorem setMains_coll (f : Mains → Mains) : (setMains s f).coll = s.coll := rfl
@[simp] theorem setMains_port (f : Mains → Mains) : (setMains s f).port = s.port := rfl
@[simp] theorem setMains_inPulse (f : Mains → Mains) : (setMains s f).inPulse = s.inPulse := rfl
@[simp] theorem setMains_moment (f : Mains → Mains) : (setMains s f).moment = s.moment := rfl
@[simp] theorem setMains_pending (f : Mains → Mains) : (setMains s f).pending = s.pending := rfl

/-! ## setBus -/

@[simp] theorem setBus_tables (f : Bus → Bus) : (setBus s f).tables = s.tables := rfl
@[simp] theorem setBus_map (f : Bus → Bus) : (setBus s f).map = s.map := rfl
@[simp] theorem setBus_groups (f : Bus → Bus) : (setBus s f).groups = s.groups := rfl
@[simp] theorem setBus_acting (f : Bus → Bus) : (setBus s f).acting = s.acting := rfl
@[simp] theorem setBus_junctionRun (f : Bus → Bus) : (setBus s f).junctionRun = s.junctionRun := rfl
@[simp] theorem setBus_clearRuns (f : Bus → Bus) : (setBus s f).clearRuns = s.clearRuns := rfl
@[simp] theorem setBus_eng (f : Bus → Bus) : (setBus s f).eng = s.eng := rfl
@[simp] theorem setBus_inputs (f : Bus → Bus) : (setBus s f).inputs = s.inputs := rfl
@[simp] theorem setBus_latched (f : Bus → Bus) : (setBus s f).latched = s.latched := rfl
@[simp] theorem setBus_jm (f : Bus → Bus) : (setBus s f).jm = s.jm := rfl
@[simp] theorem setBus_mains (f : Bus → Bus) : (setBus s f).mains = s.mains := rfl
@[simp] theorem setBus_clock (f : Bus → Bus) : (setBus s f).clock = s.clock := rfl
@[simp] theorem setBus_sched (f : Bus → Bus) : (setBus s f).sched = s.sched := rfl
@[simp] theorem setBus_bus (f : Bus → Bus) : (setBus s f).bus = f s.bus := rfl
@[simp] theorem setBus_prov (f : Bus → Bus) : (setBus s f).prov = s.prov := rfl
@[simp] theorem setBus_cable (f : Bus → Bus) : (setBus s f).cable = s.cable := rfl
@[simp] theorem setBus_coll (f : Bus → Bus) : (setBus s f).coll = s.coll := rfl
@[simp] theorem setBus_port (f : Bus → Bus) : (setBus s f).port = s.port := rfl
@[simp] theorem setBus_inPulse (f : Bus → Bus) : (setBus s f).inPulse = s.inPulse := rfl
@[simp] theorem setBus_moment (f : Bus → Bus) : (setBus s f).moment = s.moment := rfl
@[simp] theorem setBus_pending (f : Bus → Bus) : (setBus s f).pending = s.pending := rfl

/-! ## setColl -/

@[simp] theorem setColl_tables (f : Collector → Collector) : (setColl s f).tables = s.tables := rfl
@[simp] theorem setColl_map (f : Collector → Collector) : (setColl s f).map = s.map := rfl
@[simp] theorem setColl_groups (f : Collector → Collector) : (setColl s f).groups = s.groups := rfl
@[simp] theorem setColl_acting (f : Collector → Collector) : (setColl s f).acting = s.acting := rfl
@[simp] theorem setColl_junctionRun (f : Collector → Collector) : (setColl s f).junctionRun = s.junctionRun := rfl
@[simp] theorem setColl_clearRuns (f : Collector → Collector) : (setColl s f).clearRuns = s.clearRuns := rfl
@[simp] theorem setColl_eng (f : Collector → Collector) : (setColl s f).eng = s.eng := rfl
@[simp] theorem setColl_inputs (f : Collector → Collector) : (setColl s f).inputs = s.inputs := rfl
@[simp] theorem setColl_latched (f : Collector → Collector) : (setColl s f).latched = s.latched := rfl
@[simp] theorem setColl_jm (f : Collector → Collector) : (setColl s f).jm = s.jm := rfl
@[simp] theorem setColl_mains (f : Collector → Collector) : (setColl s f).mains = s.mains := rfl
@[simp] theorem setColl_clock (f : Collector → Collector) : (setColl s f).clock = s.clock := rfl
@[simp] theorem setColl_sched (f : Collector → Collector) : (setColl s f).sched = s.sched := rfl
@[simp] theorem setColl_bus (f : Collector → Collector) : (setColl s f).bus = s.bus := rfl
@[simp] theorem setColl_prov (f : Collector → Collector) : (setColl s f).prov = s.prov := rfl
@[simp] theorem setColl_cable (f : Collector → Collector) : (setColl s f).cable = s.cable := rfl
@[simp] theorem setColl_coll (f : Collector → Collector) : (setColl s f).coll = f s.coll := rfl
@[simp] theorem setColl_port (f : Collector → Collector) : (setColl s f).port = s.port := rfl
@[simp] theorem setColl_inPulse (f : Collector → Collector) : (setColl s f).inPulse = s.inPulse := rfl
@[simp] theorem setColl_moment (f : Collector → Collector) : (setColl s f).moment = s.moment := rfl
@[simp] theorem setColl_pending (f : Collector → Collector) : (setColl s f).pending = s.pending := rfl

/-! ## setPort -/

@[simp] theorem setPort_tables (f : Port → Port) : (setPort s f).tables = s.tables := rfl
@[simp] theorem setPort_map (f : Port → Port) : (setPort s f).map = s.map := rfl
@[simp] theorem setPort_groups (f : Port → Port) : (setPort s f).groups = s.groups := rfl
@[simp] theorem setPort_acting (f : Port → Port) : (setPort s f).acting = s.acting := rfl
@[simp] theorem setPort_junctionRun (f : Port → Port) : (setPort s f).junctionRun = s.junctionRun := rfl
@[simp] theorem setPort_clearRuns (f : Port → Port) : (setPort s f).clearRuns = s.clearRuns := rfl
@[simp] theorem setPort_eng (f : Port → Port) : (setPort s f).eng = s.eng := rfl
@[simp] theorem setPort_inputs (f : Port → Port) : (setPort s f).inputs = s.inputs := rfl
@[simp] theorem setPort_latched (f : Port → Port) : (setPort s f).latched = s.latched := rfl
@[simp] theorem setPort_jm (f : Port → Port) : (setPort s f).jm = s.jm := rfl
@[simp] theorem setPort_mains (f : Port → Port) : (setPort s f).mains = s.mains := rfl
@[simp] theorem setPort_clock (f : Port → Port) : (setPort s f).clock = s.clock := rfl
@[simp] theorem setPort_sched (f : Port → Port) : (setPort s f).sched = s.sched := rfl
@[simp] theorem setPort_bus (f : Port → Port) : (setPort s f).bus = s.bus := rfl
@[simp] theorem setPort_prov (f : Port → Port) : (setPort s f).prov = s.prov := rfl
@[simp] theorem setPort_cable (f : Port → Port) : (setPort s f).cable = s.cable := rfl
@[simp] theorem setPort_coll (f : Port → Port) : (setPort s f).coll = s.coll := rfl
@[simp] theorem setPort_port (f : Port → Port) : (setPort s f).port = f s.port := rfl
@[simp] theorem setPort_inPulse (f : Port → Port) : (setPort s f).inPulse = s.inPulse := rfl
@[simp] theorem setPort_moment (f : Port → Port) : (setPort s f).moment = s.moment := rfl
@[simp] theorem setPort_pending (f : Port → Port) : (setPort s f).pending = s.pending := rfl

/-! ## setTables -/

@[simp] theorem setTables_tables (f : Tables → Tables) : (setTables s f).tables = f s.tables := rfl
@[simp] theorem setTables_map (f : Tables → Tables) : (setTables s f).map = s.map := rfl
@[simp] theorem setTables_groups (f : Tables → Tables) : (setTables s f).groups = s.groups := rfl
@[simp] theorem setTables_acting (f : Tables → Tables) : (setTables s f).acting = s.acting := rfl
@[simp] theorem setTables_junctionRun (f : Tables → Tables) : (setTables s f).junctionRun = s.junctionRun := rfl
@[simp] theorem setTables_clearRuns (f : Tables → Tables) : (setTables s f).clearRuns = s.clearRuns := rfl
@[simp] theorem setTables_eng (f : Tables → Tables) : (setTables s f).eng = s.eng := rfl
@[simp] theorem setTables_inputs (f : Tables → Tables) : (setTables s f).inputs = s.inputs := rfl
@[simp] theorem setTables_latched (f : Tables → Tables) : (setTables s f).latched = s.latched := rfl
@[simp] theorem setTables_jm (f : Tables → Tables) : (setTables s f).jm = s.jm := rfl
@[simp] theorem setTables_mains (f : Tables → Tables) : (setTables s f).mains = s.mains := rfl
@[simp] theorem setTables_clock (f : Tables → Tables) : (setTables s f).clock = s.clock := rfl
@[simp] theorem setTables_sched (f : Tables → Tables) : (setTables s f).sched = s.sched := rfl
@[simp] theorem setTables_bus (f : Tables → Tables) : (setTables s f).bus = s.bus := rfl
@[simp] theorem setTables_prov (f : Tables → Tables) : (setTables s f).prov = s.prov := rfl
@[simp] theorem setTables_cable (f : Tables → Tables) : (setTables s f).cable = s.cable := rfl
@[simp] theorem setTables_coll (f : Tables → Tables) : (setTables s f).coll = s.coll := rfl
@[simp] theorem setTables_port (f : Tables → Tables) : (setTables s f).port = s.port := rfl
@[simp] theorem setTables_inPulse (f : Tables → Tables) : (setTables s f).inPulse = s.inPulse := rfl
@[simp] theorem setTables_moment (f : Tables → Tables) : (setTables s f).moment = s.moment := rfl
@[simp] theorem setTables_pending (f : Tables → Tables) : (setTables s f).pending = s.pending := rfl

/-! ## setClock -/

@[simp] theorem setClock_tables (f : Clock → Clock) : (setClock s f).tables = s.tables := rfl
@[simp] theorem setClock_map (f : Clock → Clock) : (setClock s f).map = s.map := rfl
@[simp] theorem setClock_groups (f : Clock → Clock) : (setClock s f).groups = s.groups := rfl
@[simp] theorem setClock_acting (f : Clock → Clock) : (setClock s f).acting = s.acting := rfl
@[simp] theorem setClock_junctionRun (f : Clock → Clock) : (setClock s f).junctionRun = s.junctionRun := rfl
@[simp] theorem setClock_clearRuns (f : Clock → Clock) : (setClock s f).clearRuns = s.clearRuns := rfl
@[simp] theorem setClock_eng (f : Clock → Clock) : (setClock s f).eng = s.eng := rfl
@[simp] theorem setClock_inputs (f : Clock → Clock) : (setClock s f).inputs = s.inputs := rfl
@[simp] theorem setClock_latched (f : Clock → Clock) : (setClock s f).latched = s.latched := rfl
@[simp] theorem setClock_jm (f : Clock → Clock) : (setClock s f).jm = s.jm := rfl
@[simp] theorem setClock_mains (f : Clock → Clock) : (setClock s f).mains = s.mains := rfl
@[simp] theorem setClock_clock (f : Clock → Clock) : (setClock s f).clock = f s.clock := rfl
@[simp] theorem setClock_sched (f : Clock → Clock) : (setClock s f).sched = s.sched := rfl
@[simp] theorem setClock_bus (f : Clock → Clock) : (setClock s f).bus = s.bus := rfl
@[simp] theorem setClock_prov (f : Clock → Clock) : (setClock s f).prov = s.prov := rfl
@[simp] theorem setClock_cable (f : Clock → Clock) : (setClock s f).cable = s.cable := rfl
@[simp] theorem setClock_coll (f : Clock → Clock) : (setClock s f).coll = s.coll := rfl
@[simp] theorem setClock_port (f : Clock → Clock) : (setClock s f).port = s.port := rfl
@[simp] theorem setClock_inPulse (f : Clock → Clock) : (setClock s f).inPulse = s.inPulse := rfl
@[simp] theorem setClock_moment (f : Clock → Clock) : (setClock s f).moment = s.moment := rfl
@[simp] theorem setClock_pending (f : Clock → Clock) : (setClock s f).pending = s.pending := rfl

/-! ## between -/

@[simp] theorem between_tables : (between s).tables = s.tables := rfl
@[simp] theorem between_map : (between s).map = s.map := rfl
@[simp] theorem between_groups : (between s).groups = s.groups := rfl
@[simp] theorem between_acting : (between s).acting = s.acting := rfl
@[simp] theorem between_junctionRun : (between s).junctionRun = s.junctionRun := rfl
@[simp] theorem between_clearRuns : (between s).clearRuns = s.clearRuns := rfl
@[simp] theorem between_eng : (between s).eng = s.eng := rfl
@[simp] theorem between_inputs : (between s).inputs = s.inputs := rfl
@[simp] theorem between_latched : (between s).latched = s.latched := rfl
@[simp] theorem between_jm : (between s).jm = s.jm := rfl
@[simp] theorem between_mains : (between s).mains = s.mains := rfl
@[simp] theorem between_clock : (between s).clock = s.clock := rfl
@[simp] theorem between_sched : (between s).sched = s.sched := rfl
@[simp] theorem between_bus : (between s).bus = s.bus := rfl
@[simp] theorem between_prov : (between s).prov = s.prov := rfl
@[simp] theorem between_cable : (between s).cable = s.cable := rfl
@[simp] theorem between_coll : (between s).coll = s.coll := rfl
@[simp] theorem between_port : (between s).port = s.port := rfl
@[simp] theorem between_inPulse : (between s).inPulse = s.inPulse := rfl
@[simp] theorem between_pending : (between s).pending = s.pending := rfl
@[simp] theorem between_moment : (between s).moment = .between := rfl

end Sys2Proof.Machine
end

