-- ==== Sys2Proof/Laws/Kept.lean ====
section
/-! SUPPORT. Laws.Kept: what each operation of the hand-overs leaves alone: `kept` is the same after it as before. -/

namespace Sys2Proof.Machine

open Sys2Proof

/-- The kept part of a state with its report queue, the frame being sent and the replies ready. -/
def held (s : State) : Kept × List Report × Option TxFrame × List Reply :=
  (kept s, s.bus.queue, s.port.tx, s.port.replies)

variable (s : State)

/-- What holds the more holds the kept part. -/
theorem kept_of_held {a b : State} (h : held a = held b) : kept a = kept b := congrArg Prod.fst h

/-! ## Folds -/

/-- A fold keeps what each of its steps keeps. -/
theorem foldl_inv {α β γ : Type} (v : β → γ) (f : β → α → β) (h : ∀ b a, v (f b a) = v b) (l : List α) (b : β) :
    v (l.foldl f b) = v b := by
  induction l generalizing b with
  | nil => rfl
  | cons a l ih => rw [List.foldl_cons, ih, h]

theorem held_foldl {α : Type} (f : State → α → State) (h : ∀ s a, held (f s a) = held s) (l : List α) (s : State) :
    held (l.foldl f s) = held s := foldl_inv held f h l s

/-! ## Record updates -/

/-- A change of one group's record that leaves its observed-green fields leaves the held part. -/
theorem held_groups (gs : Vector GroupRec 32) (h : ∀ g : Fin 32, marksOf gs[g] = marksOf s.groups[g]) :
    held { s with groups := gs } = held s := by
  have : (tab fun g : Fin 32 => marksOf gs[g]) = tab fun g : Fin 32 => marksOf s.groups[g] :=
    congrArg tab (funext h)
  unfold held kept
  rw [this]

theorem marks_put (g : Fin 32) (r : GroupRec) (h : marksOf r = marksOf s.groups[g]) (j : Fin 32) :
    marksOf (put s.groups g r)[j] = marksOf s.groups[j] := by
  by_cases e : g = j
  · subst e; rw [getElem_put_self]; exact h
  · rw [getElem_put_of_ne _ _ _ _ e]

theorem held_setGroup (g : Fin 32) (f : GroupRec → GroupRec) (h : ∀ r, marksOf (f r) = marksOf r) :
    held (setGroup s g f) = held s := held_groups s _ (marks_put s g _ (h _))

@[simp] theorem held_setEng (f : Engine → Engine) : held (setEng s f) = held s := rfl

@[simp] theorem held_setColl (f : Collector → Collector) : held (setColl s f) = held s := rfl

@[simp] theorem held_eng (e : Engine) : held { s with eng := e } = held s := rfl

@[simp] theorem held_latched (x : StageSet) : held { s with latched := x } = held s := rfl

@[simp] theorem held_junctionRun (r : Run) : held { s with junctionRun := r } = held s := rfl

@[simp] theorem held_clearRuns (r : Vector (Option Run) 32) : held { s with clearRuns := r } = held s := rfl

theorem held_setMode (f : ModeRec → ModeRec) (h : (f s.jm).started = s.jm.started)
    (h' : (f s.jm).schedMode = s.jm.schedMode) : held (setMode s f) = held s := by
  simp [held, kept, h, h']

theorem held_jm (j : ModeRec) (h : j.started = s.jm.started)
    (h' : j.schedMode = s.jm.schedMode) : held { s with jm := j } = held s := held_setMode s (fun _ => j) h h'

/-! ## Collector -/

@[simp] theorem held_setSlot (i : Fin 64) (r : Option FaultRec) : held (setSlot s i r) = held s := rfl

@[simp] theorem held_takeRaise (k : Kind) (n : Nat) (d : Detail) : held (takeRaise s k n d) = held s := by
  unfold takeRaise; repeat' split
  all_goals rfl

@[simp] theorem held_takeClear (k : Kind) (n : Nat) : held (takeClear s k n) = held s := by
  unfold takeClear; repeat' split
  all_goals rfl

@[simp] theorem held_ackSlot (i : Fin 64) : held (ackSlot s i) = held s := by
  unfold ackSlot; repeat' split
  all_goals rfl

/-! ## Monitor -/

@[simp] theorem held_setAspect (g : Fin 32) (a : Aspect) : held (setAspect s g a) = held s := by
  unfold setAspect
  dsimp only
  split
  · rfl
  · exact held_groups { s with clearRuns := _ } _ (marks_put s g _ rfl)

@[simp] theorem held_handTarget (g : Fin 32) (t : Target) : held (handTarget s g t) = held s := by
  have h := held_setGroup s g (fun r => { r with target := t }) (fun _ => rfl)
  unfold handTarget
  split
  · cases t <;> dsimp only <;> (try split) <;> simp only [held_setAspect, h]
  · rfl

@[simp] theorem held_handTargets (gs : List (Fin 32)) (t : Target) : held (handTargets s gs t) = held s :=
  held_foldl _ (fun s g => held_handTarget s g t) gs s

@[simp] theorem held_handAll (t : Target) : held (handAll s t) = held s := held_handTargets s _ t

@[simp] theorem held_restartJunctionRun : held (restartJunctionRun s) = held s := rfl

@[simp] theorem held_refreshInhibit : held (refreshInhibit s) = held s :=
  held_groups s _ fun g => by rw [getElem_tab]; rfl

/-! ## Engine -/

@[simp] theorem held_raiseInvalid (p : Fin 8) : held (raiseInvalid s p) = held s := by simp [raiseInvalid]

@[simp] theorem held_refreshInvalid : held (refreshInvalid s) = held s :=
  held_foldl _ (fun s p => by split <;> simp) _ s

@[simp] theorem held_changeGroup (was : GroupSet) (now : List (Fin 32)) (g : Fin 32) :
    held (changeGroup was now s g) = held s := by
  unfold changeGroup; repeat' split
  all_goals simp

@[simp] theorem held_beginInterstage (p : Fin 8) (b : Fin 16) : held (beginInterstage s p b) = held s := by
  unfold beginInterstage
  exact held_foldl _ (fun s g => held_changeGroup s _ _ g) _ _

@[simp] theorem held_stopServed : held (stopServed s) = held s := by simp [stopServed]

@[simp] theorem held_takeover (q : Fin 8) (req : Option StepReq) : held (takeover s q req) = held s := by
  unfold takeover
  dsimp only
  split <;> simp

@[simp] theorem held_leaveStep (p : Fin 8) : held (leaveStep s p) = held s := by
  unfold leaveStep; split <;> simp

@[simp] theorem held_goOn (p : Fin 8) (found : Option (Fin 16) × Bool) (req : Option StepReq) :
    held (goOn s p found req) = held s := by
  unfold goOn
  dsimp only
  repeat' split
  all_goals simp

@[simp] theorem held_endStep (p : Fin 8) : held (endStep s p) = held s := by simp [endStep]

@[simp] theorem held_endForStep (p : Fin 8) (req : StepReq) : held (endForStep s p req) = held s := by
  unfold endForStep
  dsimp only
  split <;> simp

@[simp] theorem held_stageStart (p : Fin 8) : held (stageStart s p) = held s := by
  unfold stageStart
  dsimp only
  split <;> simp

@[simp] theorem held_abandonStep (p : Fin 8) : held (abandonStep s p) = held s := by
  unfold abandonStep
  dsimp only
  repeat' split
  all_goals simp

@[simp] theorem held_gainGroup (g : Fin 32) : held (gainGroup s g) = held s := by
  unfold gainGroup; repeat' split
  all_goals simp

theorem held_gainGroups (l : List (Fin 32)) : held (l.foldl gainGroup s) = held s :=
  held_foldl _ (fun s g => held_gainGroup s g) _ _

@[simp] theorem held_interstageProgress : held (interstageProgress s) = held s := by
  unfold interstageProgress
  dsimp only
  repeat' split
  all_goals simp [held_gainGroups]

@[simp] theorem held_refreshSub : held (refreshSub s) = held s := by
  unfold refreshSub; repeat' split
  all_goals simp

@[simp] theorem held_judgeStepEnd (p : Fin 8) : held (judgeStepEnd s p) = held s := by
  unfold judgeStepEnd; repeat' split
  all_goals simp

@[simp] theorem held_readCounter : held (readCounter s) = held s := by
  unfold readCounter; dsimp only; repeat' split
  all_goals simp

@[simp] theorem held_restPulse (p : Fin 8) : held (restPulse s p) = held s := by
  unfold restPulse; dsimp only; repeat' split
  all_goals simp

@[simp] theorem held_enginePulse (ran : Bool) : held (enginePulse s ran) = held s := by
  unfold enginePulse; dsimp only; repeat' split
  all_goals simp

@[simp] theorem held_engineIdle : held (engineIdle s) = held s := rfl

@[simp] theorem held_engineStart (p : Fin 8) : held (engineStart s p) = held s := by
  unfold engineStart; dsimp only; split <;> simp

@[simp] theorem held_orderlyStop : held (orderlyStop s) = held s := by
  unfold orderlyStop; dsimp only; split
  · rw [held_foldl _ (fun s g => by split <;> simp)]; simp
  · simp

@[simp] theorem held_dealGoverning (p : Fin 8) : held (dealGoverning s p) = held s := by
  unfold dealGoverning; dsimp only; repeat' split
  all_goals simp

@[simp] theorem held_nameGoverning (p : Fin 8) : held (nameGoverning s p) = held s := by
  unfold nameGoverning; dsimp only; split <;> simp

/-! ## Modes -/

@[simp] theorem held_leaveStartRed (m : Mode) : held (leaveStartRed s m) = held s := by
  unfold leaveStartRed; split
  · rw [held_setMode]; exacts [held_takeClear s _ _, rfl, rfl]
  · rfl

@[simp] theorem held_writeMode (m : Mode) (r : Reason) : held (writeMode s m r) = held s := by
  unfold writeMode; rw [held_setMode]; exacts [held_leaveStartRed s m, rfl, rfl]

@[simp] theorem held_zeroModeTimer : held (zeroModeTimer s) = held s := held_setMode s _ rfl rfl

@[simp] theorem held_setReason (r : Reason) : held (setReason s r) = held s := held_setMode s _ rfl rfl

@[simp] theorem held_takeMode (m : Mode) (r : Reason) : held (takeMode s m r) = held s := by
  unfold takeMode
  cases m <;> dsimp only <;> simp
  rw [held_setMode]
  exacts [by simp, rfl, rfl]

@[simp] theorem held_enterDemanded : held (enterDemanded s) = held s := by
  unfold enterDemanded; repeat' split
  all_goals simp

@[simp] theorem held_enterMode (m : Mode) (r : Reason) : held (enterMode s m r) = held s := by
  unfold enterMode; repeat' split
  all_goals simp

@[simp] theorem held_enterOrKeep (m : Mode) (r : Reason) : held (enterOrKeep s m r) = held s := by
  unfold enterOrKeep; split <;> simp

@[simp] theorem held_enterPlan (p : Fin 8) (r : Reason) : held (enterPlan s p r) = held s := by
  unfold enterPlan; split <;> simp

@[simp] theorem held_raiseBothInvalid (p f : Fin 8) : held (raiseBothInvalid s p f) = held s := by
  unfold raiseBothInvalid; split <;> simp

@[simp] theorem held_planEntry (r : Reason) : held (planEntry s r) = held s := by
  unfold planEntry; dsimp only; repeat' split
  all_goals simp

@[simp] theorem held_takeExit (r : Reason) : held (takeExit s r) = held s := by
  unfold takeExit; repeat' split
  all_goals simp

@[simp] theorem held_noPlanExit : held (noPlanExit s) = held s := by unfold noPlanExit; split <;> simp

@[simp] theorem held_setDeparture (d : Dest) (r : Reason) : held (setDeparture s d r) = held s := by
  have h : held (setMode s fun j => { j with departure := some ⟨d, r⟩ }) = held s := held_setMode s _ rfl rfl
  unfold setDeparture; dsimp only; split <;> simp [h]

@[simp] theorem held_completeDeparture (d : Departure) : held (completeDeparture s d) = held s := by
  unfold completeDeparture; dsimp only; split <;> simp

@[simp] theorem held_judgeDeparture : held (judgeDeparture s) = held s := by
  unfold judgeDeparture; repeat' split
  all_goals simp

@[simp] theorem held_takeStartFlashEnd : held (takeStartFlashEnd s) = held s := by
  unfold takeStartFlashEnd; split <;> simp

@[simp] theorem held_takeStartRedEnd : held (takeStartRedEnd s) = held s := by
  unfold takeStartRedEnd; split <;> simp

@[simp] theorem held_takeProvingTimeout : held (takeProvingTimeout s) = held s := by
  unfold takeProvingTimeout; split
  · rw [held_setMode]
    · simp
    · rfl
    · rfl
  · rfl

@[simp] theorem held_takeSilent : held (takeSilent s) = held s := by
  have h : held (setMode (takeRaise s .controllerSilent 0 .absent) fun j => { j with silent := true }) = held s := by
    rw [held_setMode]
    · simp
    · rfl
    · rfl
  unfold takeSilent; dsimp only; repeat' split
  all_goals simp [h]

@[simp] theorem held_heardRequest : held (heardRequest s) = held s := by
  have h (x y : Bool) : held (setMode s fun j => { j with silence := 0, silenceFresh := x, silent := y }) = held s :=
    held_setMode s _ rfl rfl
  unfold heardRequest; dsimp only; split <;> simp [h]

@[simp] theorem held_advanceMode : held (advanceMode s) = held s := held_setMode s _ rfl rfl

@[simp] theorem held_obeyDemand (old : Demanded) : held (obeyDemand s old) = held s := by
  unfold obeyDemand; dsimp only; repeat' split
  all_goals simp

@[simp] theorem held_mainsRestart : held (mainsRestart s) = held s := by
  unfold mainsRestart; repeat' split
  all_goals simp

/-! ## Hand-overs -/

@[simp] theorem held_formInhibit : held (formInhibit s) = held s := by simp [formInhibit]

@[simp] theorem held_handInhibit : held (handInhibit s) = held s := by simp [handInhibit]

@[simp] theorem held_handDemand : held (handDemand s) = held s := by
  unfold handDemand; dsimp only; split <;> simp

@[simp] theorem held_handAlarm : held (handAlarm s) = held s := rfl

@[simp] theorem held_settleOnce : held (settleOnce s) = held s := by simp [settleOnce]

@[simp] theorem held_settleN (n : Nat) : held (settleN n s) = held s := by
  induction n generalizing s with
  | zero => rfl
  | succ n ih => rw [settleN, ih, held_settleOnce]

@[simp] theorem held_refreshSummary : held (refreshSummary s) = held s := rfl

/-- Settling leaves the held part alone. -/
@[simp] theorem held_settle : held (settle s) = held s := by simp [settle]

@[simp] theorem held_raise (k : Kind) (n : Nat) (d : Detail) : held (raise s k n d) = held s := by simp [raise]

@[simp] theorem held_clear (k : Kind) (n : Nat) : held (clear s k n) = held s := by simp [clear]

/-! ## What the shared operations leave of the kept part -/

@[simp] theorem kept_settle : kept (settle s) = kept s := kept_of_held (held_settle s)

@[simp] theorem kept_raise (k : Kind) (n : Nat) (d : Detail) : kept (raise s k n d) = kept s :=
  kept_of_held (held_raise s k n d)

@[simp] theorem kept_clear (k : Kind) (n : Nat) : kept (clear s k n) = kept s := kept_of_held (held_clear s k n)

@[simp] theorem kept_heardRequest : kept (heardRequest s) = kept s := kept_of_held (held_heardRequest s)

@[simp] theorem kept_takeFrame : kept (takeFrame s) = kept s := by
  unfold takeFrame; repeat' split
  all_goals rfl

@[simp] theorem kept_kick : kept (kick s) = kept s := by unfold kick; split <;> simp

/-- The end of a command leaves the kept part alone. -/
@[simp] theorem kept_finish : kept (finish s) = kept s := by simp [finish]

/-- A change of the port is seen in the kept part through the port's own kept fields. -/
theorem kept_setPort (f : Port → Port) :
    kept (setPort s f) =
      { kept s with
        receiver := (f s.port).receiver, inService := (f s.port).inService, busy := (f s.port).busy
        configOpen := (f s.port).configOpen, identity := (f s.port).identity } := rfl

/-- Of the kept part, what is taken changes the event that stands alone. -/
@[simp] theorem kept_between : kept (between s) = { kept s with moment := .between } := rfl

/-- A request received leaves the kept part alone but for the receiver, which hunts, and the event that stands. -/
@[simp] theorem kept_received : kept (received s) = { kept s with receiver := .hunting, moment := .between } := by
  simp only [received, kept_settle, kept_heardRequest, kept_setPort]
  simp only [kept, between]

/-- What taking a request into service leaves of the kept part. -/
@[simp] theorem kept_taken (kind tag : Byte) : kept (taken kind tag s) = keptTaken kind tag s := by
  have h : kept (taken kind tag s) = { kept (received s) with inService := some (kind, tag) } := by
    simp only [taken, kept, setPort]
  rw [h, kept_received, keptTaken]

/-- Answering leaves the kept part as the request's own rule left it. -/
@[simp] theorem kept_answered (kind tag : Byte) (u : State) (r : Result) (d : ReplyData) :
    kept (answered kind tag u r d) = kept u := by
  simp only [answered, kept_finish, answer, kept_setPort]
  rw [← kept_settle u]
  simp only [kept]

/-- A fold keeps the kept part when each of its steps does. -/
theorem kept_foldl {α : Type} (f : State → α → State) (h : ∀ s a, kept (f s a) = kept s) (l : List α) (s : State) :
    kept (l.foldl f s) = kept s := foldl_inv kept f h l s

/-! ## What a record update does to the kept part -/

@[simp] theorem kept_setTables (f : Tables → Tables) : kept (setTables s f) = { kept s with tables := f s.tables } := rfl

@[simp] theorem kept_setClock (f : Clock → Clock) : kept (setClock s f) = { kept s with clock := f s.clock } := rfl

@[simp] theorem kept_setMains (f : Mains → Mains) : kept (setMains s f) = { kept s with mains := f s.mains } := rfl

@[simp] theorem kept_setInput (e : Fin 64) (f : InputRec → InputRec) :
    kept (setInput s e f) = { kept s with inputs := upd s.inputs e f } := rfl

@[simp] theorem kept_setProv (c : Fin 96) (f : ProvRec → ProvRec) :
    kept (setProv s c f) = { kept s with prov := { s.prov with circuits := upd s.prov.circuits c f } } := rfl

@[simp] theorem kept_setLearn (c : Fin 96) (f : LearnRec → LearnRec) :
    kept (setLearn s c f) = { kept s with prov := { s.prov with learn := upd s.prov.learn c f } } := rfl

@[simp] theorem kept_setCable (c : Fin 96) (f : CableRec → CableRec) :
    kept (setCable s c f) = { kept s with cable := { s.cable with circuits := upd s.cable.circuits c f } } := rfl

@[simp] theorem kept_setLeak (u : Fin 12) (f : LeakRec → LeakRec) :
    kept (setLeak s u f) = { kept s with cable := { s.cable with leak := upd s.cable.leak u f } } := rfl

@[simp] theorem kept_setUnit (u : Fin 12) (f : UnitRec → UnitRec) :
    kept (setUnit s u f) = { kept s with bus := { s.bus with units := upd s.bus.units u f, queue := [] } } := rfl

@[simp] theorem kept_setEng (f : Engine → Engine) : kept (setEng s f) = kept s := rfl

@[simp] theorem kept_setColl (f : Collector → Collector) : kept (setColl s f) = kept s := rfl

/-- A change of the whole bus controller. -/
theorem kept_setBus (f : Bus → Bus) : kept (setBus s f) = { kept s with bus := { f s.bus with queue := [] } } := rfl

/-- A change of the schedule record. -/
theorem kept_sched (r : SchedRec) : kept { s with sched := r } = { kept s with sched := r } := rfl

/-! ## Replies -/

theorem settle_tx : (settle s).port.tx = s.port.tx := by
  have h := held_settle s
  simp only [held, Prod.mk.injEq] at h
  exact h.2.2.1

theorem settle_replies : (settle s).port.replies = s.port.replies := by
  have h := held_settle s
  simp only [held, Prod.mk.injEq] at h
  exact h.2.2.2

theorem settle_queue : (settle s).bus.queue = s.bus.queue := by
  have h := held_settle s
  simp only [held, Prod.mk.injEq] at h
  exact h.2.1

/-- A free transmitter with a reply ready takes the first; a busy one takes nothing. -/
theorem kick_reply (r : Reply) (rest : List Reply) (h : s.port.replies = r :: rest) :
    kick s = if s.port.tx.isNone then setPort s (fun p => { p with tx := some (.reply r), replies := rest }) else s := by
  simp only [kick, takeFrame, h]

/-- The reply made ready last is being sent or is the last of those ready once the command ends. -/
theorem finish_reply (x : Reply) (l : List Reply) (h : s.port.replies = l ++ [x]) :
    (finish s).port.tx = some (.reply x) ∨ (finish s).port.replies.getLast? = some x := by
  have hr : (settle s).port.replies = l ++ [x] := by rw [settle_replies, h]
  unfold finish
  cases l with
  | nil =>
    rw [kick_reply _ x [] (by simpa using hr)]
    split
    · left; rfl
    · right; rw [hr]; rfl
  | cons a l =>
    rw [kick_reply _ a (l ++ [x]) (by simpa using hr)]
    right
    split
    · simp
    · rw [hr, List.getLast?_append]; rfl

/-- An answered request has its reply. -/
theorem replied_answered (kind tag : Byte) (u : State) (r : Result) (d : ReplyData) :
    Replied (answered kind tag u r d) kind tag r d := by
  unfold answered answer Replied
  dsimp only
  exact ⟨⟨kind, tag, r, (settle u).port.summary, d, false⟩, rfl, rfl, rfl, rfl, rfl,
    finish_reply _ _ (settle u).port.replies (by simp)⟩

/-- A request that arrives with none in service is judged in the state `taken` and answered as its own rule says. -/
theorem serve_eq (kind tag : Byte) (body : State → Answer) (h : s.port.inService = none) :
    serve kind tag body s =
      answered kind tag (body (taken kind tag s)).state (body (taken kind tag s)).result
        (body (taken kind tag s)).data := by
  have h' : (received s).port.inService = none := by
    have := congrArg Kept.inService (kept_received s)
    simpa [kept, h] using this
  simp [serve, h', answered, taken]

end Sys2Proof.Machine
end

