-- ==== Sys2Proof/Laws/Fields.lean ====
section
/-! SUPPORT. Laws.Fields: each kept field after each of the shared operations: settling, raising, clearing, the end of a command, taking a
request into service and answering it. -/

namespace Sys2Proof.Machine

open Sys2Proof

/-! ## A field of the kept part, from the kept part -/

variable {a b : State}

theorem tables_of_kept (h : kept a = kept b) : a.tables = b.tables := congrArg Kept.tables h

theorem map_of_kept (h : kept a = kept b) : a.map = b.map := congrArg Kept.map h

theorem inputs_of_kept (h : kept a = kept b) : a.inputs = b.inputs := congrArg Kept.inputs h

theorem mains_of_kept (h : kept a = kept b) : a.mains = b.mains := congrArg Kept.mains h

theorem clock_of_kept (h : kept a = kept b) : a.clock = b.clock := congrArg Kept.clock h

theorem sched_of_kept (h : kept a = kept b) : a.sched = b.sched := congrArg Kept.sched h

theorem prov_of_kept (h : kept a = kept b) : a.prov = b.prov := congrArg Kept.prov h

theorem cable_of_kept (h : kept a = kept b) : a.cable = b.cable := congrArg Kept.cable h

theorem inPulse_of_kept (h : kept a = kept b) : a.inPulse = b.inPulse := congrArg Kept.inPulse h
theorem moment_of_kept (h : kept a = kept b) : a.moment = b.moment := congrArg Kept.moment h

theorem pending_of_kept (h : kept a = kept b) : a.pending = b.pending := congrArg Kept.pending h

theorem started_of_kept (h : kept a = kept b) : a.jm.started = b.jm.started := congrArg Kept.started h

theorem schedMode_of_kept (h : kept a = kept b) : a.jm.schedMode = b.jm.schedMode := congrArg Kept.schedMode h

theorem receiver_of_kept (h : kept a = kept b) : a.port.receiver = b.port.receiver := congrArg Kept.receiver h

theorem inService_of_kept (h : kept a = kept b) : a.port.inService = b.port.inService := congrArg Kept.inService h

theorem busy_of_kept (h : kept a = kept b) : a.port.busy = b.port.busy := congrArg Kept.busy h

theorem configOpen_of_kept (h : kept a = kept b) : a.port.configOpen = b.port.configOpen := congrArg Kept.configOpen h

theorem identity_of_kept (h : kept a = kept b) : a.port.identity = b.port.identity := congrArg Kept.identity h

theorem bus_units_of_kept (h : kept a = kept b) : a.bus.units = b.bus.units := congrArg (fun k => k.bus.units) h

theorem bus_seq_of_kept (h : kept a = kept b) : a.bus.seq = b.bus.seq := congrArg (fun k => k.bus.seq) h

theorem bus_sinceRoll_of_kept (h : kept a = kept b) : a.bus.sinceRoll = b.bus.sinceRoll := congrArg (fun k => k.bus.sinceRoll) h

theorem bus_round_of_kept (h : kept a = kept b) : a.bus.round = b.bus.round := congrArg (fun k => k.bus.round) h

theorem bus_slot_of_kept (h : kept a = kept b) : a.bus.slot = b.bus.slot := congrArg (fun k => k.bus.slot) h

theorem bus_forward_of_kept (h : kept a = kept b) : a.bus.forward = b.bus.forward := congrArg (fun k => k.bus.forward) h

theorem bus_dropped_of_kept (h : kept a = kept b) : a.bus.dropped = b.bus.dropped := congrArg (fun k => k.bus.dropped) h

theorem bus_windowInGap_of_kept (h : kept a = kept b) : a.bus.windowInGap = b.bus.windowInGap := congrArg (fun k => k.bus.windowInGap) h

theorem bus_lastInGap_of_kept (h : kept a = kept b) : a.bus.lastInGap = b.bus.lastInGap := congrArg (fun k => k.bus.lastInGap) h

theorem bus_sent_of_kept (h : kept a = kept b) : a.bus.sent = b.bus.sent := congrArg (fun k => k.bus.sent) h

theorem tables_eq_of_kept {K : Kept} (h : kept a = K) : a.tables = K.tables := by rw [← h]; rfl

theorem map_eq_of_kept {K : Kept} (h : kept a = K) : a.map = K.map := by rw [← h]; rfl

theorem inputs_eq_of_kept {K : Kept} (h : kept a = K) : a.inputs = K.inputs := by rw [← h]; rfl

theorem mains_eq_of_kept {K : Kept} (h : kept a = K) : a.mains = K.mains := by rw [← h]; rfl

theorem clock_eq_of_kept {K : Kept} (h : kept a = K) : a.clock = K.clock := by rw [← h]; rfl

theorem sched_eq_of_kept {K : Kept} (h : kept a = K) : a.sched = K.sched := by rw [← h]; rfl

theorem prov_eq_of_kept {K : Kept} (h : kept a = K) : a.prov = K.prov := by rw [← h]; rfl

theorem cable_eq_of_kept {K : Kept} (h : kept a = K) : a.cable = K.cable := by rw [← h]; rfl

theorem inPulse_eq_of_kept {K : Kept} (h : kept a = K) : a.inPulse = K.inPulse := by rw [← h]; rfl
theorem moment_eq_of_kept {K : Kept} (h : kept a = K) : a.moment = K.moment := by rw [← h]; rfl

theorem pending_eq_of_kept {K : Kept} (h : kept a = K) : a.pending = K.pending := by rw [← h]; rfl

theorem started_eq_of_kept {K : Kept} (h : kept a = K) : a.jm.started = K.started := by rw [← h]; rfl

theorem schedMode_eq_of_kept {K : Kept} (h : kept a = K) : a.jm.schedMode = K.schedMode := by rw [← h]; rfl

theorem receiver_eq_of_kept {K : Kept} (h : kept a = K) : a.port.receiver = K.receiver := by rw [← h]; rfl

theorem inService_eq_of_kept {K : Kept} (h : kept a = K) : a.port.inService = K.inService := by rw [← h]; rfl

theorem busy_eq_of_kept {K : Kept} (h : kept a = K) : a.port.busy = K.busy := by rw [← h]; rfl

theorem configOpen_eq_of_kept {K : Kept} (h : kept a = K) : a.port.configOpen = K.configOpen := by rw [← h]; rfl

theorem identity_eq_of_kept {K : Kept} (h : kept a = K) : a.port.identity = K.identity := by rw [← h]; rfl

theorem bus_units_eq_of_kept {K : Kept} (h : kept a = K) : a.bus.units = K.bus.units := by rw [← h]; rfl

theorem bus_seq_eq_of_kept {K : Kept} (h : kept a = K) : a.bus.seq = K.bus.seq := by rw [← h]; rfl

theorem bus_sinceRoll_eq_of_kept {K : Kept} (h : kept a = K) : a.bus.sinceRoll = K.bus.sinceRoll := by rw [← h]; rfl

theorem bus_round_eq_of_kept {K : Kept} (h : kept a = K) : a.bus.round = K.bus.round := by rw [← h]; rfl

theorem bus_slot_eq_of_kept {K : Kept} (h : kept a = K) : a.bus.slot = K.bus.slot := by rw [← h]; rfl

theorem bus_forward_eq_of_kept {K : Kept} (h : kept a = K) : a.bus.forward = K.bus.forward := by rw [← h]; rfl

theorem bus_dropped_eq_of_kept {K : Kept} (h : kept a = K) : a.bus.dropped = K.bus.dropped := by rw [← h]; rfl

theorem bus_windowInGap_eq_of_kept {K : Kept} (h : kept a = K) : a.bus.windowInGap = K.bus.windowInGap := by rw [← h]; rfl

theorem bus_lastInGap_eq_of_kept {K : Kept} (h : kept a = K) : a.bus.lastInGap = K.bus.lastInGap := by rw [← h]; rfl

theorem bus_sent_eq_of_kept {K : Kept} (h : kept a = K) : a.bus.sent = K.bus.sent := by rw [← h]; rfl

theorem marks_of_kept (h : kept a = kept b) (g : Fin 32) : marksOf a.groups[g] = marksOf b.groups[g] := by
  have := congrArg (fun k : Kept => k.marks[g]) h
  simpa only [kept, getElem_tab] using this

/-! ## settle -/

@[simp] theorem settle_tables (s : State) : (settle s).tables = s.tables :=
  tables_of_kept (kept_settle s)

@[simp] theorem settle_map (s : State) : (settle s).map = s.map :=
  map_of_kept (kept_settle s)

@[simp] theorem settle_inputs (s : State) : (settle s).inputs = s.inputs :=
  inputs_of_kept (kept_settle s)

@[simp] theorem settle_mains (s : State) : (settle s).mains = s.mains :=
  mains_of_kept (kept_settle s)

@[simp] theorem settle_clock (s : State) : (settle s).clock = s.clock :=
  clock_of_kept (kept_settle s)

@[simp] theorem settle_sched (s : State) : (settle s).sched = s.sched :=
  sched_of_kept (kept_settle s)

@[simp] theorem settle_prov (s : State) : (settle s).prov = s.prov :=
  prov_of_kept (kept_settle s)

@[simp] theorem settle_cable (s : State) : (settle s).cable = s.cable :=
  cable_of_kept (kept_settle s)

@[simp] theorem settle_inPulse (s : State) : (settle s).inPulse = s.inPulse :=
  inPulse_of_kept (kept_settle s)
@[simp] theorem settle_moment (s : State) : (settle s).moment = s.moment :=
  moment_of_kept (kept_settle s)

@[simp] theorem settle_pending (s : State) : (settle s).pending = s.pending :=
  pending_of_kept (kept_settle s)

@[simp] theorem settle_started (s : State) : (settle s).jm.started = s.jm.started :=
  started_of_kept (kept_settle s)

@[simp] theorem settle_schedMode (s : State) : (settle s).jm.schedMode = s.jm.schedMode :=
  schedMode_of_kept (kept_settle s)

@[simp] theorem settle_receiver (s : State) : (settle s).port.receiver = s.port.receiver :=
  receiver_of_kept (kept_settle s)

@[simp] theorem settle_inService (s : State) : (settle s).port.inService = s.port.inService :=
  inService_of_kept (kept_settle s)

@[simp] theorem settle_busy (s : State) : (settle s).port.busy = s.port.busy :=
  busy_of_kept (kept_settle s)

@[simp] theorem settle_configOpen (s : State) : (settle s).port.configOpen = s.port.configOpen :=
  configOpen_of_kept (kept_settle s)

@[simp] theorem settle_identity (s : State) : (settle s).port.identity = s.port.identity :=
  identity_of_kept (kept_settle s)

@[simp] theorem settle_bus_units (s : State) : (settle s).bus.units = s.bus.units :=
  bus_units_of_kept (kept_settle s)

@[simp] theorem settle_bus_seq (s : State) : (settle s).bus.seq = s.bus.seq :=
  bus_seq_of_kept (kept_settle s)

@[simp] theorem settle_bus_sinceRoll (s : State) : (settle s).bus.sinceRoll = s.bus.sinceRoll :=
  bus_sinceRoll_of_kept (kept_settle s)

@[simp] theorem settle_bus_round (s : State) : (settle s).bus.round = s.bus.round :=
  bus_round_of_kept (kept_settle s)

@[simp] theorem settle_bus_slot (s : State) : (settle s).bus.slot = s.bus.slot :=
  bus_slot_of_kept (kept_settle s)

@[simp] theorem settle_bus_forward (s : State) : (settle s).bus.forward = s.bus.forward :=
  bus_forward_of_kept (kept_settle s)

@[simp] theorem settle_bus_dropped (s : State) : (settle s).bus.dropped = s.bus.dropped :=
  bus_dropped_of_kept (kept_settle s)

@[simp] theorem settle_bus_windowInGap (s : State) : (settle s).bus.windowInGap = s.bus.windowInGap :=
  bus_windowInGap_of_kept (kept_settle s)

@[simp] theorem settle_bus_lastInGap (s : State) : (settle s).bus.lastInGap = s.bus.lastInGap :=
  bus_lastInGap_of_kept (kept_settle s)

@[simp] theorem settle_bus_sent (s : State) : (settle s).bus.sent = s.bus.sent :=
  bus_sent_of_kept (kept_settle s)

@[simp] theorem settle_marks (s : State) (g : Fin 32) :
    marksOf (settle s).groups[g] = marksOf s.groups[g] := marks_of_kept (kept_settle s) g

/-! ## finish -/

@[simp] theorem finish_tables (s : State) : (finish s).tables = s.tables :=
  tables_of_kept (kept_finish s)

@[simp] theorem finish_map (s : State) : (finish s).map = s.map :=
  map_of_kept (kept_finish s)

@[simp] theorem finish_inputs (s : State) : (finish s).inputs = s.inputs :=
  inputs_of_kept (kept_finish s)

@[simp] theorem finish_mains (s : State) : (finish s).mains = s.mains :=
  mains_of_kept (kept_finish s)

@[simp] theorem finish_clock (s : State) : (finish s).clock = s.clock :=
  clock_of_kept (kept_finish s)

@[simp] theorem finish_sched (s : State) : (finish s).sched = s.sched :=
  sched_of_kept (kept_finish s)

@[simp] theorem finish_prov (s : State) : (finish s).prov = s.prov :=
  prov_of_kept (kept_finish s)

@[simp] theorem finish_cable (s : State) : (finish s).cable = s.cable :=
  cable_of_kept (kept_finish s)

@[simp] theorem finish_inPulse (s : State) : (finish s).inPulse = s.inPulse :=
  inPulse_of_kept (kept_finish s)
@[simp] theorem finish_moment (s : State) : (finish s).moment = s.moment :=
  moment_of_kept (kept_finish s)

@[simp] theorem finish_pending (s : State) : (finish s).pending = s.pending :=
  pending_of_kept (kept_finish s)

@[simp] theorem finish_started (s : State) : (finish s).jm.started = s.jm.started :=
  started_of_kept (kept_finish s)

@[simp] theorem finish_schedMode (s : State) : (finish s).jm.schedMode = s.jm.schedMode :=
  schedMode_of_kept (kept_finish s)

@[simp] theorem finish_receiver (s : State) : (finish s).port.receiver = s.port.receiver :=
  receiver_of_kept (kept_finish s)

@[simp] theorem finish_inService (s : State) : (finish s).port.inService = s.port.inService :=
  inService_of_kept (kept_finish s)

@[simp] theorem finish_busy (s : State) : (finish s).port.busy = s.port.busy :=
  busy_of_kept (kept_finish s)

@[simp] theorem finish_configOpen (s : State) : (finish s).port.configOpen = s.port.configOpen :=
  configOpen_of_kept (kept_finish s)

@[simp] theorem finish_identity (s : State) : (finish s).port.identity = s.port.identity :=
  identity_of_kept (kept_finish s)

@[simp] theorem finish_bus_units (s : State) : (finish s).bus.units = s.bus.units :=
  bus_units_of_kept (kept_finish s)

@[simp] theorem finish_bus_seq (s : State) : (finish s).bus.seq = s.bus.seq :=
  bus_seq_of_kept (kept_finish s)

@[simp] theorem finish_bus_sinceRoll (s : State) : (finish s).bus.sinceRoll = s.bus.sinceRoll :=
  bus_sinceRoll_of_kept (kept_finish s)

@[simp] theorem finish_bus_round (s : State) : (finish s).bus.round = s.bus.round :=
  bus_round_of_kept (kept_finish s)

@[simp] theorem finish_bus_slot (s : State) : (finish s).bus.slot = s.bus.slot :=
  bus_slot_of_kept (kept_finish s)

@[simp] theorem finish_bus_forward (s : State) : (finish s).bus.forward = s.bus.forward :=
  bus_forward_of_kept (kept_finish s)

@[simp] theorem finish_bus_dropped (s : State) : (finish s).bus.dropped = s.bus.dropped :=
  bus_dropped_of_kept (kept_finish s)

@[simp] theorem finish_bus_windowInGap (s : State) : (finish s).bus.windowInGap = s.bus.windowInGap :=
  bus_windowInGap_of_kept (kept_finish s)

@[simp] theorem finish_bus_lastInGap (s : State) : (finish s).bus.lastInGap = s.bus.lastInGap :=
  bus_lastInGap_of_kept (kept_finish s)

@[simp] theorem finish_bus_sent (s : State) : (finish s).bus.sent = s.bus.sent :=
  bus_sent_of_kept (kept_finish s)

@[simp] theorem finish_marks (s : State) (g : Fin 32) :
    marksOf (finish s).groups[g] = marksOf s.groups[g] := marks_of_kept (kept_finish s) g

/-! ## raise -/

@[simp] theorem raise_tables (s : State) (k : Kind) (n : Nat) (d : Detail) : (raise s k n d).tables = s.tables :=
  tables_of_kept (kept_raise s k n d)

@[simp] theorem raise_map (s : State) (k : Kind) (n : Nat) (d : Detail) : (raise s k n d).map = s.map :=
  map_of_kept (kept_raise s k n d)

@[simp] theorem raise_inputs (s : State) (k : Kind) (n : Nat) (d : Detail) : (raise s k n d).inputs = s.inputs :=
  inputs_of_kept (kept_raise s k n d)

@[simp] theorem raise_mains (s : State) (k : Kind) (n : Nat) (d : Detail) : (raise s k n d).mains = s.mains :=
  mains_of_kept (kept_raise s k n d)

@[simp] theorem raise_clock (s : State) (k : Kind) (n : Nat) (d : Detail) : (raise s k n d).clock = s.clock :=
  clock_of_kept (kept_raise s k n d)

@[simp] theorem raise_sched (s : State) (k : Kind) (n : Nat) (d : Detail) : (raise s k n d).sched = s.sched :=
  sched_of_kept (kept_raise s k n d)

@[simp] theorem raise_prov (s : State) (k : Kind) (n : Nat) (d : Detail) : (raise s k n d).prov = s.prov :=
  prov_of_kept (kept_raise s k n d)

@[simp] theorem raise_cable (s : State) (k : Kind) (n : Nat) (d : Detail) : (raise s k n d).cable = s.cable :=
  cable_of_kept (kept_raise s k n d)

@[simp] theorem raise_inPulse (s : State) (k : Kind) (n : Nat) (d : Detail) : (raise s k n d).inPulse = s.inPulse :=
  inPulse_of_kept (kept_raise s k n d)
@[simp] theorem raise_moment (s : State) (k : Kind) (n : Nat) (d : Detail) : (raise s k n d).moment = s.moment :=
  moment_of_kept (kept_raise s k n d)

@[simp] theorem raise_pending (s : State) (k : Kind) (n : Nat) (d : Detail) : (raise s k n d).pending = s.pending :=
  pending_of_kept (kept_raise s k n d)

@[simp] theorem raise_started (s : State) (k : Kind) (n : Nat) (d : Detail) : (raise s k n d).jm.started = s.jm.started :=
  started_of_kept (kept_raise s k n d)

@[simp] theorem raise_schedMode (s : State) (k : Kind) (n : Nat) (d : Detail) : (raise s k n d).jm.schedMode = s.jm.schedMode :=
  schedMode_of_kept (kept_raise s k n d)

@[simp] theorem raise_receiver (s : State) (k : Kind) (n : Nat) (d : Detail) : (raise s k n d).port.receiver = s.port.receiver :=
  receiver_of_kept (kept_raise s k n d)

@[simp] theorem raise_inService (s : State) (k : Kind) (n : Nat) (d : Detail) : (raise s k n d).port.inService = s.port.inService :=
  inService_of_kept (kept_raise s k n d)

@[simp] theorem raise_busy (s : State) (k : Kind) (n : Nat) (d : Detail) : (raise s k n d).port.busy = s.port.busy :=
  busy_of_kept (kept_raise s k n d)

@[simp] theorem raise_configOpen (s : State) (k : Kind) (n : Nat) (d : Detail) : (raise s k n d).port.configOpen = s.port.configOpen :=
  configOpen_of_kept (kept_raise s k n d)

@[simp] theorem raise_identity (s : State) (k : Kind) (n : Nat) (d : Detail) : (raise s k n d).port.identity = s.port.identity :=
  identity_of_kept (kept_raise s k n d)

@[simp] theorem raise_bus_units (s : State) (k : Kind) (n : Nat) (d : Detail) : (raise s k n d).bus.units = s.bus.units :=
  bus_units_of_kept (kept_raise s k n d)

@[simp] theorem raise_bus_seq (s : State) (k : Kind) (n : Nat) (d : Detail) : (raise s k n d).bus.seq = s.bus.seq :=
  bus_seq_of_kept (kept_raise s k n d)

@[simp] theorem raise_bus_sinceRoll (s : State) (k : Kind) (n : Nat) (d : Detail) : (raise s k n d).bus.sinceRoll = s.bus.sinceRoll :=
  bus_sinceRoll_of_kept (kept_raise s k n d)

@[simp] theorem raise_bus_round (s : State) (k : Kind) (n : Nat) (d : Detail) : (raise s k n d).bus.round = s.bus.round :=
  bus_round_of_kept (kept_raise s k n d)

@[simp] theorem raise_bus_slot (s : State) (k : Kind) (n : Nat) (d : Detail) : (raise s k n d).bus.slot = s.bus.slot :=
  bus_slot_of_kept (kept_raise s k n d)

@[simp] theorem raise_bus_forward (s : State) (k : Kind) (n : Nat) (d : Detail) : (raise s k n d).bus.forward = s.bus.forward :=
  bus_forward_of_kept (kept_raise s k n d)

@[simp] theorem raise_bus_dropped (s : State) (k : Kind) (n : Nat) (d : Detail) : (raise s k n d).bus.dropped = s.bus.dropped :=
  bus_dropped_of_kept (kept_raise s k n d)

@[simp] theorem raise_bus_windowInGap (s : State) (k : Kind) (n : Nat) (d : Detail) : (raise s k n d).bus.windowInGap = s.bus.windowInGap :=
  bus_windowInGap_of_kept (kept_raise s k n d)

@[simp] theorem raise_bus_lastInGap (s : State) (k : Kind) (n : Nat) (d : Detail) : (raise s k n d).bus.lastInGap = s.bus.lastInGap :=
  bus_lastInGap_of_kept (kept_raise s k n d)

@[simp] theorem raise_bus_sent (s : State) (k : Kind) (n : Nat) (d : Detail) : (raise s k n d).bus.sent = s.bus.sent :=
  bus_sent_of_kept (kept_raise s k n d)

@[simp] theorem raise_marks (s : State) (k : Kind) (n : Nat) (d : Detail) (g : Fin 32) :
    marksOf (raise s k n d).groups[g] = marksOf s.groups[g] := marks_of_kept (kept_raise s k n d) g

/-! ## clear -/

@[simp] theorem clear_tables (s : State) (k : Kind) (n : Nat) : (clear s k n).tables = s.tables :=
  tables_of_kept (kept_clear s k n)

@[simp] theorem clear_map (s : State) (k : Kind) (n : Nat) : (clear s k n).map = s.map :=
  map_of_kept (kept_clear s k n)

@[simp] theorem clear_inputs (s : State) (k : Kind) (n : Nat) : (clear s k n).inputs = s.inputs :=
  inputs_of_kept (kept_clear s k n)

@[simp] theorem clear_mains (s : State) (k : Kind) (n : Nat) : (clear s k n).mains = s.mains :=
  mains_of_kept (kept_clear s k n)

@[simp] theorem clear_clock (s : State) (k : Kind) (n : Nat) : (clear s k n).clock = s.clock :=
  clock_of_kept (kept_clear s k n)

@[simp] theorem clear_sched (s : State) (k : Kind) (n : Nat) : (clear s k n).sched = s.sched :=
  sched_of_kept (kept_clear s k n)

@[simp] theorem clear_prov (s : State) (k : Kind) (n : Nat) : (clear s k n).prov = s.prov :=
  prov_of_kept (kept_clear s k n)

@[simp] theorem clear_cable (s : State) (k : Kind) (n : Nat) : (clear s k n).cable = s.cable :=
  cable_of_kept (kept_clear s k n)

@[simp] theorem clear_inPulse (s : State) (k : Kind) (n : Nat) : (clear s k n).inPulse = s.inPulse :=
  inPulse_of_kept (kept_clear s k n)
@[simp] theorem clear_moment (s : State) (k : Kind) (n : Nat) : (clear s k n).moment = s.moment :=
  moment_of_kept (kept_clear s k n)

@[simp] theorem clear_pending (s : State) (k : Kind) (n : Nat) : (clear s k n).pending = s.pending :=
  pending_of_kept (kept_clear s k n)

@[simp] theorem clear_started (s : State) (k : Kind) (n : Nat) : (clear s k n).jm.started = s.jm.started :=
  started_of_kept (kept_clear s k n)

@[simp] theorem clear_schedMode (s : State) (k : Kind) (n : Nat) : (clear s k n).jm.schedMode = s.jm.schedMode :=
  schedMode_of_kept (kept_clear s k n)

@[simp] theorem clear_receiver (s : State) (k : Kind) (n : Nat) : (clear s k n).port.receiver = s.port.receiver :=
  receiver_of_kept (kept_clear s k n)

@[simp] theorem clear_inService (s : State) (k : Kind) (n : Nat) : (clear s k n).port.inService = s.port.inService :=
  inService_of_kept (kept_clear s k n)

@[simp] theorem clear_busy (s : State) (k : Kind) (n : Nat) : (clear s k n).port.busy = s.port.busy :=
  busy_of_kept (kept_clear s k n)

@[simp] theorem clear_configOpen (s : State) (k : Kind) (n : Nat) : (clear s k n).port.configOpen = s.port.configOpen :=
  configOpen_of_kept (kept_clear s k n)

@[simp] theorem clear_identity (s : State) (k : Kind) (n : Nat) : (clear s k n).port.identity = s.port.identity :=
  identity_of_kept (kept_clear s k n)

@[simp] theorem clear_bus_units (s : State) (k : Kind) (n : Nat) : (clear s k n).bus.units = s.bus.units :=
  bus_units_of_kept (kept_clear s k n)

@[simp] theorem clear_bus_seq (s : State) (k : Kind) (n : Nat) : (clear s k n).bus.seq = s.bus.seq :=
  bus_seq_of_kept (kept_clear s k n)

@[simp] theorem clear_bus_sinceRoll (s : State) (k : Kind) (n : Nat) : (clear s k n).bus.sinceRoll = s.bus.sinceRoll :=
  bus_sinceRoll_of_kept (kept_clear s k n)

@[simp] theorem clear_bus_round (s : State) (k : Kind) (n : Nat) : (clear s k n).bus.round = s.bus.round :=
  bus_round_of_kept (kept_clear s k n)

@[simp] theorem clear_bus_slot (s : State) (k : Kind) (n : Nat) : (clear s k n).bus.slot = s.bus.slot :=
  bus_slot_of_kept (kept_clear s k n)

@[simp] theorem clear_bus_forward (s : State) (k : Kind) (n : Nat) : (clear s k n).bus.forward = s.bus.forward :=
  bus_forward_of_kept (kept_clear s k n)

@[simp] theorem clear_bus_dropped (s : State) (k : Kind) (n : Nat) : (clear s k n).bus.dropped = s.bus.dropped :=
  bus_dropped_of_kept (kept_clear s k n)

@[simp] theorem clear_bus_windowInGap (s : State) (k : Kind) (n : Nat) : (clear s k n).bus.windowInGap = s.bus.windowInGap :=
  bus_windowInGap_of_kept (kept_clear s k n)

@[simp] theorem clear_bus_lastInGap (s : State) (k : Kind) (n : Nat) : (clear s k n).bus.lastInGap = s.bus.lastInGap :=
  bus_lastInGap_of_kept (kept_clear s k n)

@[simp] theorem clear_bus_sent (s : State) (k : Kind) (n : Nat) : (clear s k n).bus.sent = s.bus.sent :=
  bus_sent_of_kept (kept_clear s k n)

@[simp] theorem clear_marks (s : State) (k : Kind) (n : Nat) (g : Fin 32) :
    marksOf (clear s k n).groups[g] = marksOf s.groups[g] := marks_of_kept (kept_clear s k n) g

/-! ## answered -/

@[simp] theorem answered_tables (kind tag : Byte) (u : State) (r : Result) (d : ReplyData) : (answered kind tag u r d).tables = u.tables :=
  tables_of_kept (kept_answered kind tag u r d)

@[simp] theorem answered_map (kind tag : Byte) (u : State) (r : Result) (d : ReplyData) : (answered kind tag u r d).map = u.map :=
  map_of_kept (kept_answered kind tag u r d)

@[simp] theorem answered_inputs (kind tag : Byte) (u : State) (r : Result) (d : ReplyData) : (answered kind tag u r d).inputs = u.inputs :=
  inputs_of_kept (kept_answered kind tag u r d)

@[simp] theorem answered_mains (kind tag : Byte) (u : State) (r : Result) (d : ReplyData) : (answered kind tag u r d).mains = u.mains :=
  mains_of_kept (kept_answered kind tag u r d)

@[simp] theorem answered_clock (kind tag : Byte) (u : State) (r : Result) (d : ReplyData) : (answered kind tag u r d).clock = u.clock :=
  clock_of_kept (kept_answered kind tag u r d)

@[simp] theorem answered_sched (kind tag : Byte) (u : State) (r : Result) (d : ReplyData) : (answered kind tag u r d).sched = u.sched :=
  sched_of_kept (kept_answered kind tag u r d)

@[simp] theorem answered_prov (kind tag : Byte) (u : State) (r : Result) (d : ReplyData) : (answered kind tag u r d).prov = u.prov :=
  prov_of_kept (kept_answered kind tag u r d)

@[simp] theorem answered_cable (kind tag : Byte) (u : State) (r : Result) (d : ReplyData) : (answered kind tag u r d).cable = u.cable :=
  cable_of_kept (kept_answered kind tag u r d)

@[simp] theorem answered_inPulse (kind tag : Byte) (u : State) (r : Result) (d : ReplyData) : (answered kind tag u r d).inPulse = u.inPulse :=
  inPulse_of_kept (kept_answered kind tag u r d)
@[simp] theorem answered_moment (kind tag : Byte) (u : State) (r : Result) (d : ReplyData) : (answered kind tag u r d).moment = u.moment :=
  moment_of_kept (kept_answered kind tag u r d)

@[simp] theorem answered_pending (kind tag : Byte) (u : State) (r : Result) (d : ReplyData) : (answered kind tag u r d).pending = u.pending :=
  pending_of_kept (kept_answered kind tag u r d)

@[simp] theorem answered_started (kind tag : Byte) (u : State) (r : Result) (d : ReplyData) : (answered kind tag u r d).jm.started = u.jm.started :=
  started_of_kept (kept_answered kind tag u r d)

@[simp] theorem answered_schedMode (kind tag : Byte) (u : State) (r : Result) (d : ReplyData) : (answered kind tag u r d).jm.schedMode = u.jm.schedMode :=
  schedMode_of_kept (kept_answered kind tag u r d)

@[simp] theorem answered_receiver (kind tag : Byte) (u : State) (r : Result) (d : ReplyData) : (answered kind tag u r d).port.receiver = u.port.receiver :=
  receiver_of_kept (kept_answered kind tag u r d)

@[simp] theorem answered_inService (kind tag : Byte) (u : State) (r : Result) (d : ReplyData) : (answered kind tag u r d).port.inService = u.port.inService :=
  inService_of_kept (kept_answered kind tag u r d)

@[simp] theorem answered_busy (kind tag : Byte) (u : State) (r : Result) (d : ReplyData) : (answered kind tag u r d).port.busy = u.port.busy :=
  busy_of_kept (kept_answered kind tag u r d)

@[simp] theorem answered_configOpen (kind tag : Byte) (u : State) (r : Result) (d : ReplyData) : (answered kind tag u r d).port.configOpen = u.port.configOpen :=
  configOpen_of_kept (kept_answered kind tag u r d)

@[simp] theorem answered_identity (kind tag : Byte) (u : State) (r : Result) (d : ReplyData) : (answered kind tag u r d).port.identity = u.port.identity :=
  identity_of_kept (kept_answered kind tag u r d)

@[simp] theorem answered_bus_units (kind tag : Byte) (u : State) (r : Result) (d : ReplyData) : (answered kind tag u r d).bus.units = u.bus.units :=
  bus_units_of_kept (kept_answered kind tag u r d)

@[simp] theorem answered_bus_seq (kind tag : Byte) (u : State) (r : Result) (d : ReplyData) : (answered kind tag u r d).bus.seq = u.bus.seq :=
  bus_seq_of_kept (kept_answered kind tag u r d)

@[simp] theorem answered_bus_sinceRoll (kind tag : Byte) (u : State) (r : Result) (d : ReplyData) : (answered kind tag u r d).bus.sinceRoll = u.bus.sinceRoll :=
  bus_sinceRoll_of_kept (kept_answered kind tag u r d)

@[simp] theorem answered_bus_round (kind tag : Byte) (u : State) (r : Result) (d : ReplyData) : (answered kind tag u r d).bus.round = u.bus.round :=
  bus_round_of_kept (kept_answered kind tag u r d)

@[simp] theorem answered_bus_slot (kind tag : Byte) (u : State) (r : Result) (d : ReplyData) : (answered kind tag u r d).bus.slot = u.bus.slot :=
  bus_slot_of_kept (kept_answered kind tag u r d)

@[simp] theorem answered_bus_forward (kind tag : Byte) (u : State) (r : Result) (d : ReplyData) : (answered kind tag u r d).bus.forward = u.bus.forward :=
  bus_forward_of_kept (kept_answered kind tag u r d)

@[simp] theorem answered_bus_dropped (kind tag : Byte) (u : State) (r : Result) (d : ReplyData) : (answered kind tag u r d).bus.dropped = u.bus.dropped :=
  bus_dropped_of_kept (kept_answered kind tag u r d)

@[simp] theorem answered_bus_windowInGap (kind tag : Byte) (u : State) (r : Result) (d : ReplyData) : (answered kind tag u r d).bus.windowInGap = u.bus.windowInGap :=
  bus_windowInGap_of_kept (kept_answered kind tag u r d)

@[simp] theorem answered_bus_lastInGap (kind tag : Byte) (u : State) (r : Result) (d : ReplyData) : (answered kind tag u r d).bus.lastInGap = u.bus.lastInGap :=
  bus_lastInGap_of_kept (kept_answered kind tag u r d)

@[simp] theorem answered_bus_sent (kind tag : Byte) (u : State) (r : Result) (d : ReplyData) : (answered kind tag u r d).bus.sent = u.bus.sent :=
  bus_sent_of_kept (kept_answered kind tag u r d)

@[simp] theorem answered_marks (kind tag : Byte) (u : State) (r : Result) (d : ReplyData) (g : Fin 32) :
    marksOf (answered kind tag u r d).groups[g] = marksOf u.groups[g] := marks_of_kept (kept_answered kind tag u r d) g

/-! ## received -/

@[simp] theorem received_tables (s : State) : (received s).tables = s.tables :=
  tables_eq_of_kept (kept_received s)

@[simp] theorem received_map (s : State) : (received s).map = s.map :=
  map_eq_of_kept (kept_received s)

@[simp] theorem received_inputs (s : State) : (received s).inputs = s.inputs :=
  inputs_eq_of_kept (kept_received s)

@[simp] theorem received_mains (s : State) : (received s).mains = s.mains :=
  mains_eq_of_kept (kept_received s)

@[simp] theorem received_clock (s : State) : (received s).clock = s.clock :=
  clock_eq_of_kept (kept_received s)

@[simp] theorem received_sched (s : State) : (received s).sched = s.sched :=
  sched_eq_of_kept (kept_received s)

@[simp] theorem received_prov (s : State) : (received s).prov = s.prov :=
  prov_eq_of_kept (kept_received s)

@[simp] theorem received_cable (s : State) : (received s).cable = s.cable :=
  cable_eq_of_kept (kept_received s)

@[simp] theorem received_inPulse (s : State) : (received s).inPulse = s.inPulse :=
  inPulse_eq_of_kept (kept_received s)
@[simp] theorem received_moment (s : State) : (received s).moment = .between :=
  moment_eq_of_kept (kept_received s)

@[simp] theorem received_pending (s : State) : (received s).pending = s.pending :=
  pending_eq_of_kept (kept_received s)

@[simp] theorem received_started (s : State) : (received s).jm.started = s.jm.started :=
  started_eq_of_kept (kept_received s)

@[simp] theorem received_schedMode (s : State) : (received s).jm.schedMode = s.jm.schedMode :=
  schedMode_eq_of_kept (kept_received s)

@[simp] theorem received_receiver (s : State) : (received s).port.receiver = Receiver.hunting :=
  receiver_eq_of_kept (kept_received s)

@[simp] theorem received_inService (s : State) : (received s).port.inService = s.port.inService :=
  inService_eq_of_kept (kept_received s)

@[simp] theorem received_busy (s : State) : (received s).port.busy = s.port.busy :=
  busy_eq_of_kept (kept_received s)

@[simp] theorem received_configOpen (s : State) : (received s).port.configOpen = s.port.configOpen :=
  configOpen_eq_of_kept (kept_received s)

@[simp] theorem received_identity (s : State) : (received s).port.identity = s.port.identity :=
  identity_eq_of_kept (kept_received s)

@[simp] theorem received_bus_units (s : State) : (received s).bus.units = s.bus.units :=
  bus_units_eq_of_kept (kept_received s)

@[simp] theorem received_bus_seq (s : State) : (received s).bus.seq = s.bus.seq :=
  bus_seq_eq_of_kept (kept_received s)

@[simp] theorem received_bus_sinceRoll (s : State) : (received s).bus.sinceRoll = s.bus.sinceRoll :=
  bus_sinceRoll_eq_of_kept (kept_received s)

@[simp] theorem received_bus_round (s : State) : (received s).bus.round = s.bus.round :=
  bus_round_eq_of_kept (kept_received s)

@[simp] theorem received_bus_slot (s : State) : (received s).bus.slot = s.bus.slot :=
  bus_slot_eq_of_kept (kept_received s)

@[simp] theorem received_bus_forward (s : State) : (received s).bus.forward = s.bus.forward :=
  bus_forward_eq_of_kept (kept_received s)

@[simp] theorem received_bus_dropped (s : State) : (received s).bus.dropped = s.bus.dropped :=
  bus_dropped_eq_of_kept (kept_received s)

@[simp] theorem received_bus_windowInGap (s : State) : (received s).bus.windowInGap = s.bus.windowInGap :=
  bus_windowInGap_eq_of_kept (kept_received s)

@[simp] theorem received_bus_lastInGap (s : State) : (received s).bus.lastInGap = s.bus.lastInGap :=
  bus_lastInGap_eq_of_kept (kept_received s)

@[simp] theorem received_bus_sent (s : State) : (received s).bus.sent = s.bus.sent :=
  bus_sent_eq_of_kept (kept_received s)

/-! ## taken -/

@[simp] theorem taken_tables (kind tag : Byte) (s : State) : (taken kind tag s).tables = s.tables :=
  tables_eq_of_kept (kept_taken s kind tag)

@[simp] theorem taken_map (kind tag : Byte) (s : State) : (taken kind tag s).map = s.map :=
  map_eq_of_kept (kept_taken s kind tag)

@[simp] theorem taken_inputs (kind tag : Byte) (s : State) : (taken kind tag s).inputs = s.inputs :=
  inputs_eq_of_kept (kept_taken s kind tag)

@[simp] theorem taken_mains (kind tag : Byte) (s : State) : (taken kind tag s).mains = s.mains :=
  mains_eq_of_kept (kept_taken s kind tag)

@[simp] theorem taken_clock (kind tag : Byte) (s : State) : (taken kind tag s).clock = s.clock :=
  clock_eq_of_kept (kept_taken s kind tag)

@[simp] theorem taken_sched (kind tag : Byte) (s : State) : (taken kind tag s).sched = s.sched :=
  sched_eq_of_kept (kept_taken s kind tag)

@[simp] theorem taken_prov (kind tag : Byte) (s : State) : (taken kind tag s).prov = s.prov :=
  prov_eq_of_kept (kept_taken s kind tag)

@[simp] theorem taken_cable (kind tag : Byte) (s : State) : (taken kind tag s).cable = s.cable :=
  cable_eq_of_kept (kept_taken s kind tag)

@[simp] theorem taken_inPulse (kind tag : Byte) (s : State) : (taken kind tag s).inPulse = s.inPulse :=
  inPulse_eq_of_kept (kept_taken s kind tag)
@[simp] theorem taken_moment (kind tag : Byte) (s : State) : (taken kind tag s).moment = .between :=
  moment_eq_of_kept (kept_taken s kind tag)

@[simp] theorem taken_pending (kind tag : Byte) (s : State) : (taken kind tag s).pending = s.pending :=
  pending_eq_of_kept (kept_taken s kind tag)

@[simp] theorem taken_started (kind tag : Byte) (s : State) : (taken kind tag s).jm.started = s.jm.started :=
  started_eq_of_kept (kept_taken s kind tag)

@[simp] theorem taken_schedMode (kind tag : Byte) (s : State) : (taken kind tag s).jm.schedMode = s.jm.schedMode :=
  schedMode_eq_of_kept (kept_taken s kind tag)

@[simp] theorem taken_receiver (kind tag : Byte) (s : State) : (taken kind tag s).port.receiver = Receiver.hunting :=
  receiver_eq_of_kept (kept_taken s kind tag)

@[simp] theorem taken_inService (kind tag : Byte) (s : State) : (taken kind tag s).port.inService = some (kind, tag) :=
  inService_eq_of_kept (kept_taken s kind tag)

@[simp] theorem taken_busy (kind tag : Byte) (s : State) : (taken kind tag s).port.busy = s.port.busy :=
  busy_eq_of_kept (kept_taken s kind tag)

@[simp] theorem taken_configOpen (kind tag : Byte) (s : State) : (taken kind tag s).port.configOpen = s.port.configOpen :=
  configOpen_eq_of_kept (kept_taken s kind tag)

@[simp] theorem taken_identity (kind tag : Byte) (s : State) : (taken kind tag s).port.identity = s.port.identity :=
  identity_eq_of_kept (kept_taken s kind tag)

@[simp] theorem taken_bus_units (kind tag : Byte) (s : State) : (taken kind tag s).bus.units = s.bus.units :=
  bus_units_eq_of_kept (kept_taken s kind tag)

@[simp] theorem taken_bus_seq (kind tag : Byte) (s : State) : (taken kind tag s).bus.seq = s.bus.seq :=
  bus_seq_eq_of_kept (kept_taken s kind tag)

@[simp] theorem taken_bus_sinceRoll (kind tag : Byte) (s : State) : (taken kind tag s).bus.sinceRoll = s.bus.sinceRoll :=
  bus_sinceRoll_eq_of_kept (kept_taken s kind tag)

@[simp] theorem taken_bus_round (kind tag : Byte) (s : State) : (taken kind tag s).bus.round = s.bus.round :=
  bus_round_eq_of_kept (kept_taken s kind tag)

@[simp] theorem taken_bus_slot (kind tag : Byte) (s : State) : (taken kind tag s).bus.slot = s.bus.slot :=
  bus_slot_eq_of_kept (kept_taken s kind tag)

@[simp] theorem taken_bus_forward (kind tag : Byte) (s : State) : (taken kind tag s).bus.forward = s.bus.forward :=
  bus_forward_eq_of_kept (kept_taken s kind tag)

@[simp] theorem taken_bus_dropped (kind tag : Byte) (s : State) : (taken kind tag s).bus.dropped = s.bus.dropped :=
  bus_dropped_eq_of_kept (kept_taken s kind tag)

@[simp] theorem taken_bus_windowInGap (kind tag : Byte) (s : State) : (taken kind tag s).bus.windowInGap = s.bus.windowInGap :=
  bus_windowInGap_eq_of_kept (kept_taken s kind tag)

@[simp] theorem taken_bus_lastInGap (kind tag : Byte) (s : State) : (taken kind tag s).bus.lastInGap = s.bus.lastInGap :=
  bus_lastInGap_eq_of_kept (kept_taken s kind tag)

@[simp] theorem taken_bus_sent (kind tag : Byte) (s : State) : (taken kind tag s).bus.sent = s.bus.sent :=
  bus_sent_eq_of_kept (kept_taken s kind tag)

end Sys2Proof.Machine
end

