-- ==== Sys2Proof/Laws/Requests.lean ====
section
/-! SUPPORT. Laws.Requests: how a request is served: its checks, its answer, and the values it is judged by in the state `taken`. -/

namespace Sys2Proof.Machine

open Sys2Proof

/-! ## Service -/

/-- A request taken into service leaves what its own rule leaves and answers what its own rule answers (R170). -/
theorem serve_of {kind tag : Byte} {body : State → Answer} {s u : State} {r : Result} {d : ReplyData}
    (h : s.port.inService = none) (hb : body (taken kind tag s) = ⟨u, r, d⟩) :
    serve kind tag body s = answered kind tag u r d := by
  rw [serve_eq _ _ _ _ h, hb]

/-- Checks that refuse nothing let the request be taken. -/
theorem checked_pass {cs : List (Bool × Result)} {s : State} {a : Answer} (h : firstRefusal cs = none) :
    checked cs s a = a := by
  simp [checked, h]

/-- The first check that refuses is the answer, and nothing changes. -/
theorem checked_refuse {cs : List (Bool × Result)} {s : State} {a : Answer} {r : Result} (h : firstRefusal cs = some r) :
    checked cs s a = ⟨s, r, .none⟩ := by
  simp [checked, h, refuse]

/-- Every request command but BUSY_REQUEST is served by its own body (R170). -/
theorem exec_serve {c : Instr} {kind tag : Byte} (hc : requestOf c = some (kind, tag))
    (hb : ∀ k t, c ≠ .busyRequest k t) : ∃ body : State → Answer, ∀ s, exec c s = .next (serve kind tag body s) := by
  cases c
  case busyRequest => exact absurd rfl (hb _ _)
  all_goals cases hc <;> exact ⟨_, fun _ => rfl⟩

@[simp] theorem firstRefusal_nil : firstRefusal [] = none := rfl

@[simp] theorem firstRefusal_true (r : Result) (l : List (Bool × Result)) : firstRefusal ((true, r) :: l) = some r := rfl

@[simp] theorem firstRefusal_false (r : Result) (l : List (Bool × Result)) :
    firstRefusal ((false, r) :: l) = firstRefusal l := rfl

/-! ## Values that depend on the tables and the circuit map alone -/

/-- The reset state with the tables and the circuit map of another. -/
def ofTables (s : State) : State := { State.reset with tables := s.tables, map := s.map }

/-- States with the same tables and map have the same such state. -/
theorem ofTables_congr {a b : State} (h : a.tables = b.tables) (h' : a.map = b.map) : ofTables a = ofTables b := by
  simp [ofTables, h, h']

variable {a b : State} (h : a.tables = b.tables) (h' : a.map = b.map)

include h

theorem groupType_congr : groupType a = groupType b := by
  funext g; simp [groupType, h]

theorem live_congr : live a = live b := by
  funext g; simp [live, groupType_congr h]

theorem liveGroups_congr : liveGroups a = liveGroups b := by simp [liveGroups, live_congr h]

theorem present_congr : present a = present b := by
  funext g; simp [present, h]

theorem conflicts_congr : conflicts a = conflicts b := by
  funext i j; simp [conflicts, live_congr h, ig, h]

theorem greenSet_congr : greenSet a = greenSet b := by
  funext n; unfold greenSet; split <;> simp [h]

theorem badTarget_congr : badTarget a = badTarget b := by
  funext e; simp [badTarget, live_congr h]

include h'

theorem inMap_congr : inMap a = inMap b := by
  funext c
  have (s : State) : inMap s c = inMap (ofTables s) c := rfl
  rw [this a, this b, ofTables_congr h h']

theorem mapped_congr : mapped a = mapped b := by simp [mapped, inMap_congr h h', h']

theorem namedCircuits_congr : namedCircuits a = namedCircuits b := by
  funext cs; cases cs <;> simp [namedCircuits, mapped_congr h h']

theorem unmapped_congr : unmapped a = unmapped b := by
  funext cs; cases cs <;> simp [unmapped, h', inMap_congr h h']

theorem planErrors_congr : planErrors a = planErrors b := by
  have (s : State) : planErrors s = planErrors (ofTables s) := rfl
  rw [this a, this b, ofTables_congr h h']

theorem structuralErrors_congr : structuralErrors a = structuralErrors b := by
  have (s : State) : structuralErrors s = structuralErrors (ofTables s) := rfl
  rw [this a, this b, ofTables_congr h h']

theorem buildMap_congr : buildMap a = buildMap b := by
  have (s : State) : buildMap s = buildMap (ofTables s) := rfl
  rw [this a, this b, ofTables_congr h h']

omit h h'

/-! ## The same values in the state `taken` -/

variable (kind tag : Byte) (s : State)

@[simp] theorem taken_stamp : stamp (taken kind tag s) = stamp s := by simp [stamp]

@[simp] theorem taken_effSlot : effSlot (taken kind tag s) = effSlot s := by simp [effSlot]

@[simp] theorem taken_groupType : groupType (taken kind tag s) = groupType s := groupType_congr (taken_tables kind tag s)

@[simp] theorem taken_live : live (taken kind tag s) = live s := live_congr (taken_tables kind tag s)

@[simp] theorem taken_liveGroups : liveGroups (taken kind tag s) = liveGroups s := liveGroups_congr (taken_tables kind tag s)

@[simp] theorem taken_present : present (taken kind tag s) = present s := present_congr (taken_tables kind tag s)

@[simp] theorem taken_conflicts : conflicts (taken kind tag s) = conflicts s := conflicts_congr (taken_tables kind tag s)

@[simp] theorem taken_greenSet : greenSet (taken kind tag s) = greenSet s := greenSet_congr (taken_tables kind tag s)

@[simp] theorem taken_badTarget : badTarget (taken kind tag s) = badTarget s := badTarget_congr (taken_tables kind tag s)

@[simp] theorem taken_inMap : inMap (taken kind tag s) = inMap s :=
  inMap_congr (taken_tables kind tag s) (taken_map kind tag s)

@[simp] theorem taken_mapped : mapped (taken kind tag s) = mapped s :=
  mapped_congr (taken_tables kind tag s) (taken_map kind tag s)

@[simp] theorem taken_namedCircuits : namedCircuits (taken kind tag s) = namedCircuits s :=
  namedCircuits_congr (taken_tables kind tag s) (taken_map kind tag s)

@[simp] theorem taken_unmapped : unmapped (taken kind tag s) = unmapped s :=
  unmapped_congr (taken_tables kind tag s) (taken_map kind tag s)

@[simp] theorem taken_planErrors : planErrors (taken kind tag s) = planErrors s :=
  planErrors_congr (taken_tables kind tag s) (taken_map kind tag s)

@[simp] theorem taken_structuralErrors : structuralErrors (taken kind tag s) = structuralErrors s :=
  structuralErrors_congr (taken_tables kind tag s) (taken_map kind tag s)

@[simp] theorem taken_buildMap : buildMap (taken kind tag s) = buildMap s :=
  buildMap_congr (taken_tables kind tag s) (taken_map kind tag s)

end Sys2Proof.Machine
end

