-- ==== Sys2Proof/Laws/Monitor.lean ====
section
/-! SUPPORT. Laws.Monitor: what a change of aspect and a target do to the groups and their clearance runs, and that they touch nothing else. -/

namespace Sys2Proof.Machine

open Sys2Proof

variable (s : State)

/-! ## One group (R21, R24 to R26) -/

/-- A change of aspect touches the group records and the clearance runs alone. -/
theorem setAspect_frame (g : Fin 32) (a : Aspect) :
    setAspect s g a = { s with groups := (setAspect s g a).groups, clearRuns := (setAspect s g a).clearRuns } := by
  unfold setAspect; dsimp only; split <;> rfl

/-- The group has the aspect it enters. -/
@[simp] theorem setAspect_aspect (g : Fin 32) (a : Aspect) : (setAspect s g a).groups[g].aspect = a := by
  unfold setAspect; dsimp only; split
  · assumption
  · rw [getElem_put_self]

/-- A change of aspect changes no target. -/
@[simp] theorem setAspect_target (g j : Fin 32) (a : Aspect) : (setAspect s g a).groups[j].target = s.groups[j].target := by
  unfold setAspect; dsimp only; split
  · rfl
  · by_cases h : g = j
    · subst h; rw [getElem_put_self]
    · rw [getElem_put_of_ne _ _ _ _ h]

/-- A change of aspect changes no inhibit mark. -/
@[simp] theorem setAspect_inhibited (g j : Fin 32) (a : Aspect) :
    (setAspect s g a).groups[j].inhibited = s.groups[j].inhibited := by
  unfold setAspect; dsimp only; split
  · rfl
  · by_cases h : g = j
    · subst h; rw [getElem_put_self]
    · rw [getElem_put_of_ne _ _ _ _ h]

/-- Another group's record is as it was. -/
theorem setAspect_of_ne (g j : Fin 32) (a : Aspect) (h : g ≠ j) : (setAspect s g a).groups[j] = s.groups[j] := by
  unfold setAspect; dsimp only; split
  · rfl
  · rw [getElem_put_of_ne _ _ _ _ h]

/-- Another group's clearance run is as it was. -/
theorem setAspect_run_of_ne (g j : Fin 32) (a : Aspect) (h : g ≠ j) :
    (setAspect s g a).clearRuns[j] = s.clearRuns[j] := by
  unfold setAspect; dsimp only; split
  · rfl
  · dsimp only
    split
    · rw [getElem_put_of_ne _ _ _ _ h]
    · split
      · rw [getElem_put_of_ne _ _ _ _ h]
      · rfl

/-- The aspect a group has after a target is handed to it (R24 to R26). -/
def handedAspect (g : Fin 32) (t : Target) : Aspect :=
  match t with
  | .go | .stop =>
    match s.groups[g].aspect with
    | .flashAmber | .dark => .red
    | .red => .red
    | .redAmber => .redAmber
    | .green => .green
    | .amber => .amber
    | .greenFlash => .greenFlash
  | .flash => flashAspect s g
  | .dark => .dark

/-- A target handed touches the group records and the clearance runs alone. -/
theorem handTarget_frame (g : Fin 32) (t : Target) :
    handTarget s g t = { s with groups := (handTarget s g t).groups, clearRuns := (handTarget s g t).clearRuns } := by
  unfold handTarget
  split
  · cases t <;> dsimp only <;> (try split) <;>
      first
      | rfl
      | (rw [setAspect_frame]; rfl)
  · rfl

/-- What a target handed to a group in use does to it. -/
theorem handTarget_self (g : Fin 32) (t : Target) (h : live s g = true) :
    (handTarget s g t).groups[g].target = t ∧ (handTarget s g t).groups[g].aspect = handedAspect s g t ∧
      (handTarget s g t).groups[g].inhibited = s.groups[g].inhibited := by
  unfold handTarget handedAspect
  rw [if_pos h]
  cases t <;> dsimp only
  case go | stop =>
    cases ha : s.groups[g].aspect <;> dsimp only <;>
      simp only [setAspect_target, setAspect_aspect, setAspect_inhibited, setGroup_groups, getElem_upd_self, ha, and_true]
  case flash | dark =>
    simp only [setAspect_target, setAspect_aspect, setAspect_inhibited, setGroup_groups, getElem_upd_self, and_true]

/-- Another group's record and clearance run are as they were. -/
theorem handTarget_of_ne (g j : Fin 32) (t : Target) (h : g ≠ j) :
    (handTarget s g t).groups[j] = s.groups[j] ∧ (handTarget s g t).clearRuns[j] = s.clearRuns[j] := by
  have hs (f : GroupRec → GroupRec) : (setGroup s g f).groups[j] = s.groups[j] := getElem_upd_of_ne _ _ _ _ h
  unfold handTarget
  split
  · cases t <;> dsimp only <;> (try split) <;>
      first
      | exact ⟨hs _, rfl⟩
      | (rw [setAspect_of_ne _ _ _ _ h, setAspect_run_of_ne _ _ _ _ h]; exact ⟨hs _, rfl⟩)
  · exact ⟨rfl, rfl⟩

/-- A target for a group of type UNUSED has no effect. -/
theorem handTarget_unused (g : Fin 32) (t : Target) (h : live s g = false) : handTarget s g t = s := by
  simp [handTarget, h]

/-! ## Many groups (R23, R75) -/

/-- Handing a target to a list of groups touches the group records and the clearance runs alone. -/
theorem handTargets_frame (gs : List (Fin 32)) (t : Target) :
    handTargets s gs t =
      { s with groups := (handTargets s gs t).groups, clearRuns := (handTargets s gs t).clearRuns } := by
  unfold handTargets
  induction gs generalizing s with
  | nil => rfl
  | cons g gs ih =>
    rw [List.foldl_cons, ih, handTarget_frame]

/-- The groups in use are the same after a target is handed. -/
theorem handTarget_live (g : Fin 32) (t : Target) : live (handTarget s g t) = live s :=
  live_congr (by rw [handTarget_frame])

/-- The aspect a target gives does not depend on another group. -/
theorem handedAspect_of_ne (g j : Fin 32) (t u : Target) (h : g ≠ j) :
    handedAspect (handTarget s g t) j u = handedAspect s j u := by
  have h1 := (handTarget_of_ne s g j t h).1
  have h2 : groupType (handTarget s g t) = groupType s := groupType_congr (by rw [handTarget_frame])
  unfold handedAspect flashAspect
  rw [h1, h2]

/-- What handing a target to a list of groups, each named once, does to each group: those in use and named take it, the others keep their
record and clearance run. -/
theorem handTargets_groups (gs : List (Fin 32)) (hn : gs.Nodup) (t : Target) (g : Fin 32) :
    (g ∈ gs → live s g = true →
      (handTargets s gs t).groups[g].target = t ∧ (handTargets s gs t).groups[g].aspect = handedAspect s g t ∧
        (handTargets s gs t).groups[g].inhibited = s.groups[g].inhibited) ∧
    (g ∉ gs ∨ live s g = false →
      (handTargets s gs t).groups[g] = s.groups[g] ∧ (handTargets s gs t).clearRuns[g] = s.clearRuns[g]) := by
  unfold handTargets
  induction gs generalizing s with
  | nil => simp
  | cons x gs ih =>
    rw [List.foldl_cons]
    have hx : x ∉ gs := (List.nodup_cons.1 hn).1
    obtain ⟨i1, i2⟩ := ih (handTarget s x t) (List.nodup_cons.1 hn).2
    rw [handTarget_live] at i1 i2
    by_cases e : x = g
    · subst e
      refine ⟨fun _ hl => ?_, fun h => ?_⟩
      · rw [(i2 (Or.inl hx)).1]; exact handTarget_self s x t hl
      · have hl : live s x = false := by
          rcases h with h | h
          · exact absurd List.mem_cons_self h
          · exact h
        rw [(i2 (Or.inl hx)).1, (i2 (Or.inl hx)).2, handTarget_unused s x t hl]; exact ⟨rfl, rfl⟩
    · have ho := handTarget_of_ne s x g t e
      refine ⟨fun hm hl => ?_, fun h => ?_⟩
      · have := i1 ((List.mem_cons.1 hm).resolve_left (Ne.symm e)) hl
        rw [handedAspect_of_ne s x g t t e, ho.1] at this; exact this
      · have := i2 (h.imp (fun h hm => h (List.mem_cons_of_mem _ hm)) id)
        rw [this.1, this.2]; exact ho

/-- Handing a target to every group touches the group records and the clearance runs alone. -/
theorem handAll_frame (t : Target) :
    handAll s t = { s with groups := (handAll s t).groups, clearRuns := (handAll s t).clearRuns } :=
  handTargets_frame s _ t

/-- Every group in use takes the target, and a group of type UNUSED keeps its record (R75). -/
theorem handAll_groups (t : Target) (g : Fin 32) :
    (live s g = true → (handAll s t).groups[g].target = t ∧ (handAll s t).groups[g].aspect = handedAspect s g t ∧
      (handAll s t).groups[g].inhibited = s.groups[g].inhibited) ∧
    (live s g = false → (handAll s t).groups[g] = s.groups[g]) := by
  have h := handTargets_groups s (liveGroups s) (List.Nodup.filter _ (List.nodup_finRange 32)) t g
  have hm : g ∈ liveGroups s ↔ live s g = true := by simp [liveGroups]
  exact ⟨fun hl => h.1 (hm.2 hl) hl, fun hl => (h.2 (Or.inr hl)).1⟩

end Sys2Proof.Machine
end

