-- ==== Sys2Proof/Laws/Proving.lean ====
section
/-! SUPPORT. Laws.Proving: what lamp proving and cable supervision leave of the kept part: each operation says which of the two records it
changes and leaves the rest. -/

namespace Sys2Proof.Machine

open Sys2Proof

variable (s : State)

/-- The kept part with the lamp proving unit replaced. -/
def Kept.withProv (k : Kept) (p : Proving) : Kept := { k with prov := p }

/-- The kept part with the cable supervision unit replaced. -/
def Kept.withCable (k : Kept) (c : Cable) : Kept := { k with cable := c }

/-- The lamp proving unit with one circuit's record rewritten. -/
def Proving.withCircuit (p : Proving) (c : Fin 96) (f : ProvRec → ProvRec) : Proving := { p with circuits := upd p.circuits c f }

/-- The cable supervision unit with one circuit's record rewritten. -/
def Cable.withCircuit (x : Cable) (c : Fin 96) (f : CableRec → CableRec) : Cable := { x with circuits := upd x.circuits c f }

/-- Entry `c` rewritten twice is rewritten once. -/
theorem upd_upd {α : Type} {n : Nat} (t : Vector α n) (i : Fin n) (f g : α → α) : upd (upd t i f) i g = upd t i (g ∘ f) := by
  ext j hj
  by_cases h : i = ⟨j, hj⟩
  · subst h
    rw [getElem_upd_self_val, getElem_upd_self_val, getElem_upd_self_val]; rfl
  · have h1 := getElem_upd_of_ne (upd t i f) i ⟨j, hj⟩ g h
    have h2 := getElem_upd_of_ne t i ⟨j, hj⟩ f h
    have h3 := getElem_upd_of_ne t i ⟨j, hj⟩ (g ∘ f) h
    simp only [Fin.getElem_fin] at h1 h2 h3
    rw [h1, h2, h3]

/-- Rewriting an entry as it stands changes nothing. -/
theorem upd_id {α : Type} {n : Nat} (t : Vector α n) (i : Fin n) (f : α → α) (h : f t[i] = t[i]) : upd t i f = t := by
  unfold upd put; rw [h]; simp

@[simp] theorem withCircuit_withCircuit (p : Proving) (c : Fin 96) (f g : ProvRec → ProvRec) :
    (p.withCircuit c f).withCircuit c g = p.withCircuit c (g ∘ f) := by
  simp [Proving.withCircuit, upd_upd]

@[simp] theorem withCircuit_self (p : Proving) (c : Fin 96) (f : ProvRec → ProvRec) :
    (p.withCircuit c f).circuits[c] = f p.circuits[c] := getElem_upd_self _ _ _

/-- The record of another circuit. -/
theorem withCircuit_of_ne (p : Proving) (c d : Fin 96) (f : ProvRec → ProvRec) (h : c ≠ d) :
    (p.withCircuit c f).circuits[d] = p.circuits[d] := getElem_upd_of_ne _ _ _ _ h

@[simp] theorem withCircuit_learn (p : Proving) (c : Fin 96) (f : ProvRec → ProvRec) :
    (p.withCircuit c f).learn = p.learn := rfl

@[simp] theorem withCircuit_lastWin (p : Proving) (c : Fin 96) (f : ProvRec → ProvRec) :
    (p.withCircuit c f).lastWin = p.lastWin := rfl

@[simp] theorem withCircuit_red (p : Proving) (c : Fin 96) (f : ProvRec → ProvRec) :
    (p.withCircuit c f).red = p.red := rfl

theorem kept_setProv' (c : Fin 96) (f : ProvRec → ProvRec) :
    kept (setProv s c f) = (kept s).withProv (s.prov.withCircuit c f) := rfl

theorem kept_setCable' (c : Fin 96) (f : CableRec → CableRec) :
    kept (setCable s c f) = (kept s).withCable (s.cable.withCircuit c f) := rfl

/-! ## Verdicts and lamp faults (R134 to R136) -/

/-- A change of the lamp fault held changes that field of the circuit's record alone (R135). -/
@[simp] theorem kept_changeLampFault (c : Fin 96) (f : Option LampFault) (d : Detail) :
    kept (changeLampFault s c f d) = (kept s).withProv (s.prov.withCircuit c fun r => { r with fault := f }) := by
  unfold changeLampFault
  dsimp only
  split
  · rename_i h
    have : s.prov.withCircuit c (fun r => { r with fault := f }) = s.prov := by
      simp only [Proving.withCircuit]
      rw [upd_id _ _ _ (by rw [← h])]
    rw [this]; rfl
  · split <;> split <;> simp only [kept_raise, kept_clear, kept_setProv']

/-- A change of verdict writes the verdict and its lamp fault and drops the candidate (R134 to R136). -/
@[simp] theorem kept_changeVerdict (c : Fin 96) (v : Verdict) :
    kept (changeVerdict s c v) =
      (kept s).withProv (s.prov.withCircuit c fun r =>
        { r with verdict := v, cand := none, run := 0, fault := lampFault s c v }) := by
  unfold changeVerdict
  rw [kept_changeLampFault, kept_setProv']
  have : (setProv s c fun r => { r with verdict := v, cand := none, run := 0 }).prov =
      s.prov.withCircuit c (fun r => { r with verdict := v, cand := none, run := 0 }) := rfl
  rw [this, withCircuit_withCircuit]
  rfl

/-- The change taken by a circuit whose candidate is confirmed, if it is (R134). -/
theorem kept_takeConfirm (c : Fin 96) :
    kept (takeConfirm s c) = match confirmDue s c with
      | some v => (kept s).withProv (s.prov.withCircuit c fun r =>
          { r with verdict := v, cand := none, run := 0, fault := lampFault s c v })
      | none => kept s := by
  unfold takeConfirm
  split <;> simp_all

/-- Handing on the changes of red status leaves the kept part alone (R143). -/
@[simp] theorem kept_handRed (before : Vector RedStatus 32) (g : Fin 32) : kept (handRed before s g) = kept s := by
  unfold handRed
  dsimp only
  repeat' split
  all_goals simp

/-- Recomputing writes the red status of every group, and nothing else (R143). -/
@[simp] theorem kept_recomputeRed :
    kept (recomputeRed s) = (kept s).withProv { s.prov with red := tab fun g => redStatusNow s g } := by
  unfold recomputeRed
  rw [kept_settle, kept_foldl _ (fun s g => kept_handRed s _ g)]
  rfl

/-- A circuit leaves the forced-off set (R136). -/
theorem kept_releaseVerdict (c : Fin 96) :
    ∃ red : Vector RedStatus 32, kept (releaseVerdict s c) = (kept s).withProv
      { (s.prov.withCircuit c fun r => { r with verdict := .unknown, cand := none, run := 0, fault := none }) with
        red := red } := by
  unfold releaseVerdict
  have h := kept_changeVerdict s c .unknown
  have hp := prov_eq_of_kept h
  refine ⟨tab fun g => redStatusNow (changeVerdict s c .unknown) g, ?_⟩
  rw [kept_recomputeRed, h, hp]
  rfl

/-! ## Cable faults (R149) -/

/-- CABLE_OPEN cleared changes that mark alone. -/
@[simp] theorem kept_clearOpen (c : Fin 96) :
    kept (clearOpen s c) = (kept s).withCable (s.cable.withCircuit c fun r => { r with openRaised := false }) := by
  unfold clearOpen
  split
  · rw [kept_clear, kept_setCable']
  · rename_i h
    simp only [Bool.not_eq_true] at h
    simp only [Cable.withCircuit]
    rw [upd_id _ _ _ (by rw [← h])]; rfl

/-- CABLE_SHORT cleared changes that mark alone. -/
@[simp] theorem kept_clearShort (c : Fin 96) :
    kept (clearShort s c) = (kept s).withCable (s.cable.withCircuit c fun r => { r with shortRaised := false }) := by
  unfold clearShort
  split
  · rw [kept_clear, kept_setCable']
  · rename_i h
    simp only [Bool.not_eq_true] at h
    simp only [Cable.withCircuit]
    rw [upd_id _ _ _ (by rw [← h])]; rfl

/-- CABLE_OPEN raised changes that mark alone. -/
@[simp] theorem kept_raiseOpen (c : Fin 96) (k : TestClass) :
    kept (raiseOpen s c k) = (kept s).withCable (s.cable.withCircuit c fun r => { r with openRaised := true }) := by
  unfold raiseOpen
  split
  · rename_i h
    simp only [Cable.withCircuit]
    rw [upd_id _ _ _ (by rw [← h])]; rfl
  · rw [kept_raise, kept_setCable']

/-- CABLE_SHORT raised changes that mark alone. -/
@[simp] theorem kept_raiseShort (c : Fin 96) (k : TestClass) :
    kept (raiseShort s c k) = (kept s).withCable (s.cable.withCircuit c fun r => { r with shortRaised := true }) := by
  unfold raiseShort
  split
  · rename_i h
    simp only [Cable.withCircuit]
    rw [upd_id _ _ _ (by rw [← h])]; rfl
  · rw [kept_raise, kept_setCable']

@[simp] theorem cableWith_cableWith (x : Cable) (c : Fin 96) (f g : CableRec → CableRec) :
    (x.withCircuit c f).withCircuit c g = x.withCircuit c (g ∘ f) := by
  simp [Cable.withCircuit, upd_upd]

/-- A confirmed cable fault writes the two marks of the circuit and nothing else (R149). -/
theorem kept_takeCableFault (c : Fin 96) :
    kept (takeCableFault s c) = match cableFaultDue s c with
      | some m => (kept s).withCable (s.cable.withCircuit c fun r =>
          { r with openRaised := decide (m = .isOpen), shortRaised := decide (m = .short) })
      | none => kept s := by
  unfold takeCableFault
  split
  · have h := kept_clearShort s c
    rw [kept_raiseOpen, h, cable_eq_of_kept h]
    simp only [Kept.withCable, cableWith_cableWith, *]
    rfl
  · have h := kept_clearOpen s c
    rw [kept_raiseShort, h, cable_eq_of_kept h]
    simp only [Kept.withCable, cableWith_cableWith, *]
    rfl
  · simp [*]

/-- A release that is due returns the circuit to NORMAL with its verdict UNKNOWN; the rest of the two units is as it was but for red status
(R136, R153). -/
theorem kept_takeRelease (c : Fin 96) :
    (releaseDue s c = false → takeRelease s c = s) ∧
    (releaseDue s c = true → ∃ red : Vector RedStatus 32, kept (takeRelease s c) =
      ((kept s).withCable (s.cable.withCircuit c fun r =>
        { r with retry := .normal, retryTimer := 0, retryFresh := false })).withProv
      { (s.prov.withCircuit c fun r => { r with verdict := .unknown, cand := none, run := 0, fault := none }) with
        red := red }) := by
  unfold takeRelease
  refine ⟨fun h => by simp [h], fun h => ?_⟩
  rw [if_pos h]
  obtain ⟨red, hk⟩ := kept_releaseVerdict
    (setCable s c fun r => { r with retry := .normal, retryTimer := 0, retryFresh := false }) c
  exact ⟨red, hk⟩

end Sys2Proof.Machine
end

