-- ==== Sys2Proof/Laws/Sched.lean ====
section
/-! SUPPORT. Laws.Sched: what schedule evaluation, the overrides and the clock leave of the kept part. -/

namespace Sys2Proof.Machine

open Sys2Proof

variable (s : State)

/-! ## Evaluation (R103) -/

/-- The schedule record after its results have been formed in a state (R103, R104, R105). -/
def formedSched : SchedRec :=
  { s.sched with
    mode := schedModeNow s, plan := schedPlanNow s, dim := schedDimNow s
    effPlan := s.sched.planOverride.getD (schedPlanNow s), effDim := s.sched.dimOverride.getD (schedDimNow s) }

@[simp] theorem kept_nameSchedule (m : SchedMode) : kept (nameSchedule s m) = { kept s with schedMode := m } := by
  have h (j : ModeRec) (hs : j.started = s.jm.started) (hm : j.schedMode = m) :
      kept { s with jm := j } = { kept s with schedMode := m } := by
    simp [kept, hs, hm]
  have h' := h { s.jm with schedMode := m } rfl rfl
  unfold nameSchedule
  dsimp only [setMode]
  repeat' split
  all_goals first
    | exact h'
    | rw [kept_of_held (held_setDeparture _ _ _), h']
    | rw [kept_of_held (held_enterOrKeep _ _ _), h']
    | rw [kept_of_held (held_takeExit _ _), h']

@[simp] theorem kept_handPlan (always : Bool) :
    kept (handPlan always s) =
      { kept s with sched := { s.sched with effPlan := s.sched.planOverride.getD s.sched.plan } } := by
  unfold handPlan
  dsimp only
  split
  · rw [kept_of_held (held_noPlanExit _), kept_of_held (held_nameGoverning _ _)]; rfl
  · rename_i h
    have h : s.sched.planOverride.getD s.sched.plan = s.sched.effPlan := by
      simp only [Bool.or_eq_true, decide_eq_true_eq, not_or, not_not] at h; exact h.2
    rw [h]; rfl

@[simp] theorem kept_handDim :
    kept (handDim s) = { kept s with sched := { s.sched with effDim := s.sched.dimOverride.getD s.sched.dim } } := rfl

/-- What forming the schedule results leaves of the kept part: the schedule record formed, and the schedule mode handed on when it has changed
or is handed always (R103). -/
theorem kept_formResults (always : Bool) :
    kept (formResults always s) =
      { kept s with
        sched := formedSched s
        schedMode := if always = true ∨ schedModeNow s ≠ s.sched.mode then schedModeNow s else s.jm.schedMode } := by
  unfold formResults
  dsimp only
  generalize hx : (if (always || decide (schedModeNow s ≠ s.sched.mode)) = true then _ else _ : State) = x
  have hk : kept x =
      { kept s with
        sched := { s.sched with mode := schedModeNow s, plan := schedPlanNow s, dim := schedDimNow s }
        schedMode := if always = true ∨ schedModeNow s ≠ s.sched.mode then schedModeNow s else s.jm.schedMode } := by
    rw [← hx]
    by_cases h : always = true ∨ schedModeNow s ≠ s.sched.mode
    · have h' : (always || decide (schedModeNow s ≠ s.sched.mode)) = true := by simpa using h
      rw [if_pos h', if_pos h, kept_settle, kept_nameSchedule]
      rfl
    · have h' : ¬ (always || decide (schedModeNow s ≠ s.sched.mode)) = true := by simpa using h
      rw [if_neg h', if_neg h]
      rfl
  have hs := sched_eq_of_kept hk
  have hp := kept_handPlan x always
  have hs' := sched_eq_of_kept hp
  rw [kept_handDim, hp, hs', hs, hk]
  rfl

@[simp] theorem kept_evaluate :
    kept (evaluate s) =
      { kept s with
        sched := formedSched s
        schedMode := if schedModeNow s ≠ s.sched.mode then schedModeNow s else s.jm.schedMode } := by
  have h := kept_formResults s false
  simpa only [evaluate, Bool.false_eq_true, false_or] using h

/-! ## The clock (R98, R99) -/

/-- The clock with a day taken off at midnight (R98). -/
def rolled (c : Clock) : Clock :=
  if 86400000 ≤ c.ms then
    { c with ms := c.ms - 86400000, weekday := (c.weekday + 1) % 7, day := (c.day + 1) % 65536 }
  else c

@[simp] theorem kept_reportRollover : kept (reportRollover s) = kept s := by
  unfold reportRollover; split <;> rfl

@[simp] theorem kept_reportStep (ms : Int) : kept (reportStep s ms) = kept s := by
  unfold reportStep; repeat' split
  all_goals rfl

@[simp] theorem kept_takeMidnight : kept (takeMidnight s) = { kept s with clock := rolled s.clock } := by
  unfold takeMidnight rolled dayMs
  split
  · rw [kept_reportRollover]; rfl
  · rfl

/-- What the clock's advance leaves of the kept part: the clock moved on, the schedule evaluated or left alone, and no event standing. -/
theorem kept_advanceClock (n : Nat) :
    ∃ (r : SchedRec) (m : SchedMode), kept (advanceClock s n) =
      { kept s with
        clock := rolled { s.clock with ms := s.clock.ms + n }, sched := r, schedMode := m, moment := .between } := by
  unfold advanceClock
  dsimp only
  have h := kept_takeMidnight (setClock (between s) fun c => { c with ms := c.ms + n })
  split
  · exact ⟨_, _, by rw [kept_evaluate, h]; rfl⟩
  · exact ⟨s.sched, s.jm.schedMode, by rw [h]; rfl⟩

/-- What a window start leaves of the kept part by the clock (R98). -/
theorem kept_windowClock :
    ∃ (c : Clock) (r : SchedRec) (m : SchedMode) (x : Moment),
      kept (windowClock s) = { kept s with clock := c, sched := r, schedMode := m, moment := x } := by
  unfold windowClock
  split
  · split
    · obtain ⟨r, m, h⟩ := kept_advanceClock (setClock s fun c => { c with phase60 := (c.phase60 + 1) % 3 }) (mainsMs s)
      exact ⟨_, r, m, _, h⟩
    · obtain ⟨r, m, h⟩ := kept_advanceClock s (mainsMs s)
      exact ⟨_, r, m, _, h⟩
  · exact ⟨s.clock, s.sched, s.jm.schedMode, s.moment, rfl⟩

end Sys2Proof.Machine
end

