-- ==== Sys2Proof/Laws/Bus.lean ====
section
/-! SUPPORT. Laws.Bus: what the field bus controller's operations leave alone: the steady part, which no exchange, roll call or poll round
changes, and the part of a unit's record that composition does not write. -/

namespace Sys2Proof.Machine

open Sys2Proof

variable (s : State)

/-- The part of the state that no exchange, roll call or poll round changes: the tables, the circuit map, the mains supervisor, the clock, the
schedule, the started flag, the window sequence with its gap flags, the forward set and the waiting commands. -/
structure Steady where
  tables : Tables
  map : Option CircuitMap
  mains : Mains
  clock : Clock
  sched : SchedRec
  started : Bool
  seq : Nat
  windowInGap : Bool
  lastInGap : Bool
  forward : BitVec 12
  inPulse : Bool
  pending : List Instr

/-- The steady part of a state. -/
def steady (s : State) : Steady :=
  ⟨s.tables, s.map, s.mains, s.clock, s.sched, s.jm.started, s.bus.seq, s.bus.windowInGap, s.bus.lastInGap, s.bus.forward, s.inPulse, s.pending⟩

variable {s} in
theorem steady_of_kept {t : State} (h : kept t = kept s) : steady t = steady s := by
  simp only [steady, tables_of_kept h, map_of_kept h, mains_of_kept h, clock_of_kept h, sched_of_kept h, started_of_kept h, bus_seq_of_kept h,
    bus_windowInGap_of_kept h, bus_lastInGap_of_kept h, bus_forward_of_kept h, inPulse_of_kept h, pending_of_kept h]

variable {s} in
theorem steady_of_withProv {t : State} {p : Proving} (h : kept t = (kept s).withProv p) : steady t = steady s :=
  steady_of_kept (s := { s with prov := p }) h

variable {s} in
theorem steady_of_withCable {t : State} {c : Cable} (h : kept t = (kept s).withCable c) : steady t = steady s :=
  steady_of_kept (s := { s with cable := c }) h

theorem steady_foldl {α : Type} (f : State → α → State) (h : ∀ s a, steady (f s a) = steady s) (l : List α) (s : State) :
    steady (l.foldl f s) = steady s := foldl_inv steady f h l s

@[simp] theorem steady_setCable (c : Fin 96) (f : CableRec → CableRec) : steady (setCable s c f) = steady s := rfl

@[simp] theorem steady_setProv (c : Fin 96) (f : ProvRec → ProvRec) : steady (setProv s c f) = steady s := rfl

@[simp] theorem steady_setUnit (u : Fin 12) (f : UnitRec → UnitRec) : steady (setUnit s u f) = steady s := rfl

@[simp] theorem steady_setLeak (u : Fin 12) (f : LeakRec → LeakRec) : steady (setLeak s u f) = steady s := rfl

@[simp] theorem steady_setInput (e : Fin 64) (f : InputRec → InputRec) : steady (setInput s e f) = steady s := rfl

@[simp] theorem steady_setEng (f : Engine → Engine) : steady (setEng s f) = steady s := rfl

@[simp] theorem steady_between : steady (between s) = steady s := rfl

@[simp] theorem steady_setRound (f : Round → Round) : steady (setRound s f) = steady s := rfl

@[simp] theorem steady_sendBus (f : BusFrame) : steady (sendBus s f) = steady s := rfl

@[simp] theorem steady_settle : steady (settle s) = steady s := steady_of_kept (kept_settle s)

@[simp] theorem steady_raise (k : Kind) (n : Nat) (d : Detail) : steady (raise s k n d) = steady s := steady_of_kept (kept_raise s k n d)

@[simp] theorem steady_clear (k : Kind) (n : Nat) : steady (clear s k n) = steady s := steady_of_kept (kept_clear s k n)

@[simp] theorem steady_finish : steady (finish s) = steady s := steady_of_kept (kept_finish s)

@[simp] theorem steady_takeClear (k : Kind) (n : Nat) : steady (takeClear s k n) = steady s :=
  steady_of_kept (kept_of_held (held_takeClear s k n))

@[simp] theorem steady_recomputeRed : steady (recomputeRed s) = steady s := steady_of_withProv (kept_recomputeRed s)

@[simp] theorem steady_changeVerdict (c : Fin 96) (v : Verdict) : steady (changeVerdict s c v) = steady s :=
  steady_of_withProv (kept_changeVerdict s c v)

@[simp] theorem steady_clearOpen (c : Fin 96) : steady (clearOpen s c) = steady s := steady_of_withCable (kept_clearOpen s c)

@[simp] theorem steady_clearShort (c : Fin 96) : steady (clearShort s c) = steady s := steady_of_withCable (kept_clearShort s c)

@[simp] theorem steady_raiseOpen (c : Fin 96) (k : TestClass) : steady (raiseOpen s c k) = steady s :=
  steady_of_withCable (kept_raiseOpen s c k)

@[simp] theorem steady_raiseShort (c : Fin 96) (k : TestClass) : steady (raiseShort s c k) = steady s :=
  steady_of_withCable (kept_raiseShort s c k)

@[simp] theorem steady_takeCableFault (c : Fin 96) : steady (takeCableFault s c) = steady s := by
  unfold takeCableFault
  split <;> simp

/-! ## Tests in flight (R148) -/

@[simp] theorem steady_takeTestResult (c : Fin 96) (residual : Nat) : steady (takeTestResult s c residual) = steady s := by
  unfold takeTestResult
  dsimp only
  split <;> simp

@[simp] theorem steady_resolveTest (v : Nat) (xs : Option (Vector Sample 8)) (tc : Fin 8 × Fin 96) :
    steady (resolveTest v xs s tc) = steady s := by
  unfold resolveTest
  repeat' split
  all_goals simp

@[simp] theorem steady_resolveTests (u : Fin 12) (v : Nat) (xs : Option (Vector Sample 8)) :
    steady (resolveTests s u v xs) = steady s :=
  steady_foldl _ (fun s tc => steady_resolveTest s v xs tc) _ s

/-! ## Leaving ADMITTED (R49, R113, R128) -/

@[simp] theorem steady_resyncIfReleased (t : State) : steady (resyncIfReleased s t) = steady t := by
  unfold resyncIfReleased; split <;> simp

@[simp] theorem steady_inputOff (e : Fin 64) : steady (inputOff s e) = steady s := by
  unfold inputOff
  dsimp only
  split <;> simp

@[simp] theorem steady_inputOn (e : Fin 64) : steady (inputOn s e) = steady s := by
  unfold inputOn
  dsimp only
  split <;> simp [steady]

@[simp] theorem steady_dropInputs (u : Fin 12) : steady (dropInputs s u) = steady s :=
  steady_foldl _ (fun s e => by split <;> simp) _ s

@[simp] theorem steady_unitLeavesCable (u : Fin 12) : steady (unitLeavesCable s u) = steady s := by
  simp only [unitLeavesCable, steady_setLeak]
  exact steady_foldl _ (fun s (tc : Fin 8 × Fin 96) => steady_setCable s tc.2 _) _ s

@[simp] theorem steady_unitLeavesProving (u : Fin 12) : steady (unitLeavesProving s u) = steady s := by
  simp only [unitLeavesProving, steady_recomputeRed]
  rw [steady_foldl]
  · rfl
  · intro s tc; split <;> simp

@[simp] theorem steady_leaveAdmitted (u : Fin 12) : steady (leaveAdmitted s u) = steady s := by simp [leaveAdmitted]

@[simp] theorem steady_takeLost (u : Fin 12) : steady (takeLost s u) = steady s := by
  unfold takeLost
  dsimp only
  repeat' split
  all_goals simp

@[simp] theorem steady_countMiss (u : Fin 12) : steady (countMiss s u) = steady s := rfl

@[simp] theorem steady_takeMiss (u : Fin 12) : steady (takeMiss s u) = steady s := by
  unfold takeMiss
  dsimp only
  split <;> simp

/-! ## The poll round (R109) -/

@[simp] theorem steady_compose (u : Fin 12) : steady (compose s u) = steady s := by
  unfold compose
  dsimp only
  split <;> simp

@[simp] theorem steady_passStep : steady (passStep s) = steady s := by
  unfold passStep
  split
  · split <;> rfl
  all_goals rfl

@[simp] theorem steady_rollStep : steady (rollStep s) = steady s := by
  unfold rollStep
  split <;> simp

@[simp] theorem steady_goRound : steady (goRound s) = steady s := by
  unfold goRound
  dsimp only
  repeat' split
  all_goals simp

@[simp] theorem steady_exchangeOver : steady (exchangeOver s) = steady s := by simp [exchangeOver]

@[simp] theorem steady_senseMissed (u : Fin 12) : steady (senseMissed s u) = steady s := by
  unfold senseMissed; split <;> simp

@[simp] theorem steady_callOver : steady (callOver s) = steady s := by simp [callOver]

@[simp] theorem steady_identTimedOut (u : Fin 12) : steady (identTimedOut s u) = steady s := by
  unfold identTimedOut; split <;> simp

@[simp] theorem steady_takeRollRound : steady (takeRollRound s) = steady s := by
  unfold takeRollRound; split <;> rfl

@[simp] theorem steady_judgeDim (u : Fin 12) : steady (judgeDim s u) = steady s := by
  unfold judgeDim
  dsimp only
  repeat' split
  all_goals simp

@[simp] theorem steady_beginRound : steady (beginRound s) = steady s := by
  unfold beginRound
  split
  · dsimp only
    rw [steady_goRound, steady_takeRollRound]
    have h := steady_foldl judgeDim (fun s u => steady_judgeDim s u) (idx 12) s
    generalize (idx 12).foldl judgeDim s = t at h
    exact h
  · rfl

theorem steady_times (n : Nat) (f : State → State) (h : ∀ s, steady (f s) = steady s) (s : State) :
    steady (times n f s) = steady s := by
  induction n generalizing s with
  | zero => rfl
  | succ n ih => rw [times, ih, h]

/-- The close of a round leaves the steady part as it was. -/
@[simp] theorem steady_closeRound : steady (closeRound s) = steady s := by
  have h : steady (times 12 timeoutOutstanding (times 12 missOutstanding s)) = steady s := by
    refine (steady_times 12 timeoutOutstanding (fun s => ?_) _).trans (steady_times 12 missOutstanding (fun s => ?_) s)
    · unfold timeoutOutstanding; split <;> simp
    · unfold missOutstanding; split <;> simp
  unfold closeRound
  generalize times 12 timeoutOutstanding (times 12 missOutstanding s) = t at h
  exact h

/-! ## What the round's sending leaves of the units and of lamp proving -/

/-- A unit's record but for what composition writes: its dim tap and its composition log (R114, R115). -/
def unitCore (x : UnitRec) : UnitRec := { x with dim := .bright, log := [] }

theorem units_setUnit (u k : Fin 12) (f : UnitRec → UnitRec) :
    (setUnit s u f).bus.units[k] = if u = k then f s.bus.units[k] else s.bus.units[k] := by
  by_cases h : u = k
  · subst h; rw [if_pos rfl]; exact getElem_upd_self _ _ _
  · rw [if_neg h]; exact getElem_upd_of_ne _ _ _ _ h

/-- Composition writes a unit's dim tap and log alone, and leaves lamp proving and the inputs. -/
theorem compose_frame (u : Fin 12) :
    (∀ k : Fin 12, unitCore (compose s u).bus.units[k] = unitCore s.bus.units[k]) ∧ (compose s u).prov = s.prov ∧
      (compose s u).inputs = s.inputs := by
  have h : ∀ (t : State) (f : UnitRec → UnitRec), (∀ x, unitCore (f x) = unitCore x) → ∀ k : Fin 12,
      unitCore (setUnit t u f).bus.units[k] = unitCore t.bus.units[k] := by
    intro t f hf k
    rw [units_setUnit]
    split
    · exact hf _
    · rfl
  unfold compose
  dsimp only
  split
  · refine ⟨fun k => ?_, rfl, rfl⟩
    exact h (setCable s _ _) (fun x => { x with dim := (composeRecord s u).1.tap, log := joinLog x.log (composeRecord s u).1 }) (fun _ => rfl) k
  · refine ⟨fun k => ?_, rfl, rfl⟩
    exact h s (fun x => { x with dim := (composeRecord s u).1.tap, log := joinLog x.log (composeRecord s u).1 }) (fun _ => rfl) k

/-- Going on with the round leaves the units but for dim tap and log, lamp proving and the inputs. -/
theorem goRound_frame :
    (∀ k : Fin 12, unitCore (goRound s).bus.units[k] = unitCore s.bus.units[k]) ∧ (goRound s).prov = s.prov ∧
      (goRound s).inputs = s.inputs := by
  have pass : ∀ t : State, (passStep t).bus.units = t.bus.units ∧ (passStep t).prov = t.prov ∧ (passStep t).inputs = t.inputs := by
    intro t
    unfold passStep
    split
    · split <;> exact ⟨rfl, rfl, rfl⟩
    all_goals exact ⟨rfl, rfl, rfl⟩
  have roll : ∀ t : State, (rollStep t).bus.units = t.bus.units ∧ (rollStep t).prov = t.prov ∧ (rollStep t).inputs = t.inputs := by
    intro t
    unfold rollStep
    split
    · exact ⟨rfl, rfl, rfl⟩
    · exact pass _
  unfold goRound
  dsimp only
  split
  · exact ⟨fun _ => rfl, rfl, rfl⟩
  · split
    · exact compose_frame (setRound s _) _
    · have h := roll (if s.bus.round.isRoll then setRound s fun r => { r with roll := unadmitted s, isRoll := false } else s)
      refine ⟨fun k => ?_, ?_, ?_⟩
      · simp only [h.1]; split <;> rfl
      · rw [h.2.1]; split <;> rfl
      · rw [h.2.2]; split <;> rfl

end Sys2Proof.Machine
end

