-- ==== Sys2Proof/Laws/Collector.lean ====
section
/-! SUPPORT. Collector: which slot of the fault table a raise or a clear finds, takes or evicts (R159, R161, R162). -/

namespace Sys2Proof.Machine

open Sys2Proof

/-- With one record of each kind and subject, the slot found is the one that holds the record (R159). -/
theorem findSlot_some (s : State) (k : Kind) (n : Nat) (ho : OneRecordEach s) (i : Fin 64) (r : FaultRec)
    (h : s.coll.slots[i] = some r) (hk : r.kind = k) (hn : r.subject = n) : findSlot s k n = some i := by
  unfold findSlot
  have hi : ((fun i : Fin 64 => match s.coll.slots[i] with | some r => decide (r.kind = k) && decide (r.subject = n) | none => false) i) = true := by
    simp only [h, hk, hn]; simp
  rcases hf : (idx 64).find? (fun i : Fin 64 => match s.coll.slots[i] with | some r => decide (r.kind = k) && decide (r.subject = n) | none => false) with _ | j
  · rw [List.find?_eq_none] at hf
    exact absurd hi (hf i (List.mem_finRange i))
  · have := List.find?_some hf
    cases hj : s.coll.slots[j] with
    | none => simp only [hj] at this; cases this
    | some q =>
      simp only [hj, Bool.and_eq_true, decide_eq_true_eq] at this
      have := ho j i q r hj h (this.1.trans hk.symm) (this.2.trans hn.symm)
      rw [this]

/-- No slot is found for a kind and subject that no record has (R159). -/
theorem findSlot_none (s : State) (k : Kind) (n : Nat)
    (h : ∀ (i : Fin 64) (r : FaultRec), s.coll.slots[i] = some r → ¬ (r.kind = k ∧ r.subject = n)) : findSlot s k n = none := by
  unfold findSlot
  rw [List.find?_eq_none]
  intro i _
  cases hj : s.coll.slots[i] with
  | none => simp only []; simp
  | some q => simpa using h i q hj

/-- The slot taken is the lowest-numbered empty one (R161). -/
theorem emptySlot_some (s : State) (i : Fin 64) (h : s.coll.slots[i] = none) (hj : ∀ j : Fin 64, j < i → s.coll.slots[j] ≠ none) :
   emptySlot s = some i := by
  unfold emptySlot
  rw [List.find?_eq_some_iff_append]
  refine ⟨by simp only [h]; rfl, (idx 64).take i.val, (idx 64).drop (i.val+1), ?_, ?_⟩
  · have := List.take_append_drop i.val (idx 64)
    conv_lhs => rw [← this]
    congr 1
    rw [List.drop_eq_getElem_cons (by simp)]; simp
  · intro a ha
    obtain ⟨m, hm, rfl⟩ := List.mem_take_iff_getElem.1 ha
    simp at hm
    have := hj (idx 64)[m] (by simp [Fin.lt_def]; omega)
    cases h : s.coll.slots[(idx 64)[m]] with
    | none => exact absurd h this
    | some _ => rfl

/-- With every slot held, none is empty (R162). -/
theorem emptySlot_none (s : State) (h : ∀ i : Fin 64, s.coll.slots[i] ≠ none) : emptySlot s = none := by
  unfold emptySlot
  rw [List.find?_eq_none]
  intro i _
  cases hj : s.coll.slots[i] with
  | none => exact absurd hj (h i)
  | some q => simp

/-- One step of the search for a slot to evict (R162). -/
def evictStep (s : State) (best : Option (Fin 64 × Stamp)) (i : Fin 64) : Option (Fin 64 × Stamp) :=
    match s.coll.slots[i] with
    | some r =>
      if decide (r.state = .clearedUnack) && !r.kind.latching then
        match best with
        | none => some (i, r.last)
        | some b => if r.last.older b.2 then some (i, r.last) else best
      else best
    | none => best

/-- The record of slot `i` may be evicted (R162). -/
def Evictable (s : State) (i : Fin 64) (r : FaultRec) : Prop := s.coll.slots[i] = some r ∧ r.state = .clearedUnack ∧ r.kind.latching = false

/-- A slot that may not be evicted leaves the best. -/
theorem evictStep_skip (s : State) (best) (i : Fin 64) (h : ∀ r, ¬ Evictable s i r) : evictStep s best i = best := by
  unfold evictStep
  split
  · next r hr =>
    rw [if_neg]
    intro hc; simp only [Bool.and_eq_true, decide_eq_true_eq, Bool.not_eq_true'] at hc
    exact h r ⟨hr, hc⟩
  · rfl

/-- A slot that may be evicted is the best when none is older. -/
theorem evictStep_take (s : State) (best) (i : Fin 64) (r) (h : Evictable s i r) : evictStep s best i =
   match best with
        | none => some (i, r.last)
        | some b => if r.last.older b.2 then some (i, r.last) else best := by
  unfold evictStep
  simp only [h.1, h.2.1, h.2.2]; simp

/-- The search keeps a slot than which none is older, the lowest-numbered of them (R162). -/
theorem evictStep_fold (s : State) (i : Fin 64) (r : FaultRec) (hc : Evictable s i r)
   (hall : ∀ (j : Fin 64) (q : FaultRec), Evictable s j q → j ≠ i → Stamp.older q.last r.last = false ∧ (j < i → Stamp.older r.last q.last = true))
   (l : List (Fin 64)) (hs : l.Pairwise (· < ·)) : ∀ best : Option (Fin 64 × Stamp),
   (best = some (i, r.last) → (∀ j ∈ l, j ≠ i) → l.foldl (evictStep s) best = some (i, r.last)) ∧
   (i ∈ l → (∀ b, best = some b → ∃ q, Evictable s b.1 q ∧ b.2 = q.last ∧ b.1 < i) → l.foldl (evictStep s) best = some (i, r.last)) := by
  induction l with
  | nil => intro best; exact ⟨fun h _ => h, fun h => by simp at h⟩
  | cons a l ih =>
    intro best
    simp only [List.foldl_cons]
    rw [List.pairwise_cons] at hs
    refine ⟨fun hb ha => ?_, fun hm hb => ?_⟩
    · apply (ih hs.2 _).1 _ (fun j hj => ha j (List.mem_cons_of_mem _ hj))
      by_cases hx : ∃ q, Evictable s a q
      · obtain ⟨q, hq⟩ := hx
        rw [evictStep_take s best a q hq, hb]
        simp only [(hall a q hq (ha a List.mem_cons_self)).1]; simp
      · rw [evictStep_skip s best a (fun r h => hx ⟨r, h⟩), hb]
    · by_cases hai : a = i
      · subst hai
        apply (ih hs.2 _).1 _ (fun j hj => by have := hs.1 j hj; intro h; subst h; exact absurd this (lt_irrefl _))
        rw [evictStep_take s best a r hc]
        cases best with
        | none => rfl
        | some b =>
          obtain ⟨q, hq, hl, hlt⟩ := hb b rfl
          have := (hall b.1 q hq (by intro h; rw [h] at hlt; exact absurd hlt (lt_irrefl _))).2 hlt
          simp only [hl, this]; simp
      · have hm' : i ∈ l := by simpa [Ne.symm hai] using hm
        apply (ih hs.2 _).2 hm'
        intro b hbb
        by_cases hx : ∃ q, Evictable s a q
        · obtain ⟨q, hq⟩ := hx
          rw [evictStep_take s best a q hq] at hbb
          cases best with
          | none => simp only [Option.some.injEq] at hbb; subst hbb; exact ⟨q, hq, rfl, hs.1 i hm'⟩
          | some b' =>
            simp only at hbb
            split at hbb
            · simp only [Option.some.injEq] at hbb; subst hbb; exact ⟨q, hq, rfl, hs.1 i hm'⟩
            · exact hb b hbb
        · rw [evictStep_skip s best a (fun r h => hx ⟨r, h⟩)] at hbb; exact hb b hbb

/-- The slot evicted is one than which none is older, the lowest-numbered of them (R162). -/
theorem evictSlot_some (s : State) (i : Fin 64) (r : FaultRec) (hc : Evictable s i r)
    (hall : ∀ (j : Fin 64) (q : FaultRec), Evictable s j q → j ≠ i →
      Stamp.older q.last r.last = false ∧ (j < i → Stamp.older r.last q.last = true)) :
    evictSlot s = some i := by
  have := (evictStep_fold s i r hc hall (idx 64) (List.pairwise_lt_finRange 64) none).2 (List.mem_finRange i) (by simp)
  show Option.map Prod.fst (List.foldl (evictStep s) none (idx 64)) = _
  rw [this]; rfl

/-- With no slot that may be evicted, none is (R162). -/
theorem evictSlot_none (s : State) (h : ∀ (i : Fin 64) (r : FaultRec), ¬ Evictable s i r) : evictSlot s = none := by
  have : ∀ l : List (Fin 64), l.foldl (evictStep s) none = none := by
    intro l
    induction l with
    | nil => rfl
    | cons a l ih => rw [List.foldl_cons, evictStep_skip s none a (h a), ih]
  show Option.map Prod.fst (List.foldl (evictStep s) none (idx 64)) = _
  rw [this]; rfl

/-- Writing back the record a slot holds changes nothing. -/
theorem put_self {α : Type} {n : Nat} (v : Vector α n) (i : Fin n) (x : α) (h : v[i] = x) : put v i x = v := by
  ext j hj : 1
  by_cases e : i.val = j
  · subst e; simpa [put] using h.symm
  · simp [put, e]

/-! ## The inhibit demand (R166, R41) -/

/-- Forming the inhibit demand changes nothing outside the collector. -/
theorem formInhibit_frame (s : State) : formInhibit s = { s with coll := (formInhibit s).coll } := rfl

/-- What forming the inhibit demand does: where CONFIG_OPEN left it and no circuit map exists it stands, and otherwise it is formed afresh. -/
theorem formInhibit_coll (s : State) :
    (s.coll.demandStands = true ∧ s.map = none → (formInhibit s).coll = s.coll) ∧
    (s.coll.demandStands = false ∨ s.map ≠ none →
      (formInhibit s).coll = { s.coll with inhibitDemand := inhibitDemandNow s, demandStands := false }) := by
  constructor <;> intro h
  · simp [formInhibit, h.1, h.2]
  · have : (s.coll.demandStands && s.map.isNone) = false := by
      rcases h with h | h
      · simp [h]
      · cases hm : s.map with
        | none => exact absurd hm h
        | some m => simp
    simp only [formInhibit, setColl_coll, this]; simp

end Sys2Proof.Machine
end

