-- ==== Sys2Proof/Laws/Engine.lean ====
section
/-! SUPPORT. Laws.Engine: sets held as masks, what the beginning of an interstage does to each group (R56), and what a search finds (R53). -/

namespace Sys2Proof.Machine

open Sys2Proof

variable (s : State)

/-! ## Sets held as masks -/

theorem mem_ins {n : Nat} (m : BitVec n) (i j : Nat) (hi : i < n) : mem (ins m i) j = (mem m j || decide (i = j)) := by
  by_cases h : i = j
  · subst h; simp [mem, ins, hi]
  · simp [mem, ins, BitVec.getLsbD_twoPow, h]

theorem mem_del {n : Nat} (m : BitVec n) (i j : Nat) : mem (del m i) j = (mem m j && decide (i ≠ j)) := by
  by_cases hj : j < n
  · by_cases h : i = j
    · subst h; simp [mem, del, hj]
    · simp [mem, del, h, hj, Ne.symm h]
  · have : m.getLsbD j = false := BitVec.getLsbD_of_ge _ _ (by omega)
    simp [mem, del, this]

theorem mem_zero {n : Nat} (j : Nat) : mem (0 : BitVec n) j = false := by simp [mem]

/-- A mask gathered over a table's indices holds those that pass the test. -/
theorem mem_gather {n k : Nat} (f : Fin k → Bool) (h : k ≤ n) (l : List (Fin k)) (m : BitVec n) (j : Fin k) :
    mem (l.foldl (fun acc i => if f i then ins acc i else acc) m) j = (mem m j || (l.contains j && f j)) := by
  induction l generalizing m with
  | nil => simp
  | cons x l ih =>
    rw [List.foldl_cons, ih]
    have hx : x.val < n := by have := x.isLt; omega
    by_cases hf : f x = true
    · by_cases e : x = j
      · subst e; simp [hf, mem_ins _ _ _ hx]
      · have e' : ¬ x.val = j.val := fun q => e (Fin.ext q)
        simp [hf, mem_ins _ _ _ hx, e', Ne.symm e]
    · by_cases e : x = j
      · subst e; simp [hf]
      · simp [hf, Ne.symm e]

/-- The set of the groups in use holds exactly those. -/
@[simp] theorem mem_liveSet (g : Fin 32) : mem (liveSet s) g = live s g := by
  rw [liveSet, mem_gather _ (Nat.le_refl 32), mem_zero]; simp

/-- While configuration is open the types of the last START count, and otherwise those the table holds (R41). -/
theorem monitored_open (h : s.port.configOpen = true) (g : Fin 32) : monitored s g = mem s.acting g := by simp [monitored, h]

theorem monitored_closed (h : s.port.configOpen = false) (g : Fin 32) : monitored s g = live s g := by simp [monitored, h]

/-! ## The beginning of an interstage (R56) -/

/-- The three things an interstage can do with a group: end it, take it up, or leave it (R56). -/
theorem changeGroup_cases (was : GroupSet) (now : List (Fin 32)) (g : Fin 32) :
    (mem was g = true ∧ now.contains g = false ∧ changeGroup was now s g = setEng (handTarget s g .stop) fun e =>
      { e with served := del e.served g, losing := ins e.losing g }) ∨
    (mem was g = false ∧ now.contains g = true ∧ s.groups[g].inhibited = false ∧
      changeGroup was now s g = setEng (handTarget s g .go) fun e =>
        { e with served := ins e.served g, gaining := ins e.gaining g }) ∨
    (¬ (mem was g = true ∧ now.contains g = false) ∧
      ¬ (mem was g = false ∧ now.contains g = true ∧ s.groups[g].inhibited = false) ∧ changeGroup was now s g = s) := by
  unfold changeGroup
  by_cases hw : mem was g = true
  · rw [if_pos hw]
    by_cases hn : now.contains g = true
    · rw [if_pos hn]; exact .inr (.inr ⟨fun h => by simp_all, fun h => by simp_all, rfl⟩)
    · rw [if_neg hn]; exact .inl ⟨hw, by simpa using hn, rfl⟩
  · rw [if_neg hw]
    by_cases hn : (now.contains g && !s.groups[g].inhibited) = true
    · rw [if_pos hn]
      rw [Bool.and_eq_true, Bool.not_eq_true'] at hn
      exact .inr (.inl ⟨by simpa using hw, hn.1, hn.2, rfl⟩)
    · rw [if_neg hn]
      refine .inr (.inr ⟨fun h => hw h.1, fun h => hn ?_, rfl⟩)
      rw [h.2.1, h.2.2]; rfl

/-- What the engine keeps through an interstage's targets. -/
def engCore (e : Engine) : Engine := { e with served := 0, gaining := 0, losing := 0 }

/-- The beginning of an interstage taken group by group over a list that names each once (R56): the groups in use take the targets of R56, the
others keep their records, and the rest of the engine and of the state is as it was. -/
theorem changeGroups_spec (was : GroupSet) (now : List (Fin 32)) (l : List (Fin 32)) (hn : l.Nodup) (s : State) :
    (l.foldl (changeGroup was now) s).tables = s.tables ∧
    engCore (l.foldl (changeGroup was now) s).eng = engCore s.eng ∧
    ∀ g : Fin 32,
      (g ∉ l → (l.foldl (changeGroup was now) s).groups[g] = s.groups[g] ∧
        mem (l.foldl (changeGroup was now) s).eng.served g = mem s.eng.served g ∧
        mem (l.foldl (changeGroup was now) s).eng.losing g = mem s.eng.losing g ∧
        mem (l.foldl (changeGroup was now) s).eng.gaining g = mem s.eng.gaining g) ∧
      (g ∈ l → live s g = true →
        if mem was g = true ∧ now.contains g = false then
          (l.foldl (changeGroup was now) s).groups[g].target = .stop ∧
            mem (l.foldl (changeGroup was now) s).eng.served g = false ∧
            mem (l.foldl (changeGroup was now) s).eng.losing g = true
        else if mem was g = false ∧ now.contains g = true ∧ s.groups[g].inhibited = false then
          (l.foldl (changeGroup was now) s).groups[g].target = .go ∧
            mem (l.foldl (changeGroup was now) s).eng.served g = true ∧
            mem (l.foldl (changeGroup was now) s).eng.gaining g = true
        else (l.foldl (changeGroup was now) s).groups[g].target = s.groups[g].target ∧
          mem (l.foldl (changeGroup was now) s).eng.served g = mem s.eng.served g) := by
  induction l generalizing s with
  | nil => exact ⟨rfl, rfl, fun g => ⟨fun _ => ⟨rfl, rfl, rfl, rfl⟩, fun h => absurd h (by simp)⟩⟩
  | cons x l ih =>
    rw [List.foldl_cons]
    rw [List.nodup_cons] at hn
    obtain ⟨i1, i2, i3⟩ := ih hn.2 (changeGroup was now s x)
    generalize l.foldl (changeGroup was now) (changeGroup was now s x) = w at i1 i2 i3 ⊢
    have hl : ∀ g, live (handTarget s x .stop) g = live s g ∧ live (handTarget s x .go) g = live s g := fun g => by
      rw [handTarget_live, handTarget_live]; exact ⟨rfl, rfl⟩
    have he : ∀ t : Target, (handTarget s x t).eng = s.eng ∧ (handTarget s x t).tables = s.tables := fun t => by
      rw [handTarget_frame]; exact ⟨rfl, rfl⟩
    rcases changeGroup_cases s was now x with ⟨a, b, e⟩ | ⟨a, b, c, e⟩ | ⟨a, b, e⟩
    · rw [e] at i1 i2 i3
      refine ⟨i1.trans (he .stop).2, i2.trans ?_, fun g => ⟨fun hg => ?_, fun hg hlg => ?_⟩⟩
      · simp only [setEng, (he .stop).1]; rfl
      · have hne : x ≠ g := fun h => hg (by simp [h])
        have := (i3 g).1 (fun h => hg (List.mem_cons_of_mem _ h))
        rw [this.1, this.2.1, this.2.2.1, this.2.2.2]
        refine ⟨(handTarget_of_ne s x g _ hne).1, ?_⟩
        simp only [setEng, (he .stop).1, mem_del, mem_ins _ _ _ x.isLt]
        simp [Fin.val_inj, hne]
      · by_cases hx : x = g
        · subst hx
          rw [if_pos ⟨a, b⟩]
          have := (i3 x).1 hn.1
          rw [this.1, this.2.1, this.2.2.1]
          refine ⟨(handTarget_self s x .stop hlg).1, ?_⟩
          simp only [setEng, (he .stop).1, mem_del, mem_ins _ _ _ x.isLt]
          simp
        · have := (i3 g).2 ((List.mem_cons.1 hg).resolve_left (Ne.symm hx)) (by exact (hl g).1.trans hlg)
          have hr := (handTarget_of_ne s x g .stop hx).1
          have hi : (setEng (handTarget s x .stop) fun e => { e with served := del e.served x, losing := ins e.losing x }).groups[g] = s.groups[g] := hr
          have hs : mem (setEng (handTarget s x .stop) fun e => { e with served := del e.served x, losing := ins e.losing x }).eng.served g = mem s.eng.served g := by
            simp only [setEng, (he .stop).1, mem_del]; simp [Fin.val_inj, hx]
          rw [hi, hs] at this
          exact this
    · rw [e] at i1 i2 i3
      refine ⟨i1.trans (he .go).2, i2.trans ?_, fun g => ⟨fun hg => ?_, fun hg hlg => ?_⟩⟩
      · simp only [setEng, (he .go).1]; rfl
      · have hne : x ≠ g := fun h => hg (by simp [h])
        have := (i3 g).1 (fun h => hg (List.mem_cons_of_mem _ h))
        rw [this.1, this.2.1, this.2.2.1, this.2.2.2]
        refine ⟨(handTarget_of_ne s x g _ hne).1, ?_⟩
        simp only [setEng, (he .go).1, mem_ins _ _ _ x.isLt]
        simp [Fin.val_inj, hne]
      · by_cases hx : x = g
        · subst hx
          rw [if_neg (fun h => by simp [a] at h), if_pos ⟨a, b, c⟩]
          have := (i3 x).1 hn.1
          rw [this.1, this.2.1, this.2.2.2]
          refine ⟨(handTarget_self s x .go hlg).1, ?_⟩
          simp only [setEng, (he .go).1, mem_ins _ _ _ x.isLt]
          simp
        · have := (i3 g).2 ((List.mem_cons.1 hg).resolve_left (Ne.symm hx)) (by exact (hl g).2.trans hlg)
          have hr := (handTarget_of_ne s x g .go hx).1
          have hi : (setEng (handTarget s x .go) fun e => { e with served := ins e.served x, gaining := ins e.gaining x }).groups[g] = s.groups[g] := hr
          have hs : mem (setEng (handTarget s x .go) fun e => { e with served := ins e.served x, gaining := ins e.gaining x }).eng.served g = mem s.eng.served g := by
            simp only [setEng, (he .go).1, mem_ins _ _ _ x.isLt]; simp [Fin.val_inj, hx]
          rw [hi, hs] at this
          exact this
    · rw [e] at i1 i2 i3
      refine ⟨i1, i2, fun g => ⟨fun hg => (i3 g).1 (fun h => hg (List.mem_cons_of_mem _ h)), fun hg hlg => ?_⟩⟩
      by_cases hx : x = g
      · subst hx
        rw [if_neg a, if_neg b]
        have := (i3 x).1 hn.1
        rw [this.1, this.2.1]
        exact ⟨rfl, rfl⟩
      · exact (i3 g).2 ((List.mem_cons.1 hg).resolve_left (Ne.symm hx)) hlg

end Sys2Proof.Machine
end

