-- ==== Sys2Proof/Laws/Frames.lean ====
section
/-! SUPPORT. Laws of the bytes of Machine/Frames.lean: numbers read back from their bytes, and the CRC of a run that carries it. -/

namespace Sys2Proof.Machine

open Sys2Proof

@[simp] theorem byte1_toNat {n : Nat} (h : n < 256) : (byte1 n).toNat = n := by
  simp [byte1, Nat.mod_eq_of_lt h]

theorem be16_bytes2 {n : Nat} (h : n < 65536) :
    be16 (BitVec.ofNat 8 (n / 256)) (BitVec.ofNat 8 n) = n := by
  simp only [be16, BitVec.toNat_ofNat]; omega

@[simp] theorem bytes2_length (n : Nat) : (bytes2 n).length = 2 := rfl

@[simp] theorem bytes4_length (n : Nat) : (bytes4 n).length = 4 := rfl

@[simp] theorem crcBytes_length (bs : List Byte) : (crcBytes bs).length = 2 := rfl

@[simp] theorem withCrc_length (bs : List Byte) : (withCrc bs).length = bs.length + 2 := by simp [withCrc]

/-- A run to which its CRC is joined ends with its CRC (R169). -/
@[simp] theorem crcOk_withCrc (bs : List Byte) : crcOk (withCrc bs) = true := by
  simp [crcOk, withCrc]

theorem addressByte_type {t u : Nat} (ht : t < 16) (hu : u < 16) : frameType (addressByte t u) = t := by
  simp only [frameType, addressByte, byte1, BitVec.toNat_ofNat]; omega

theorem addressByte_unit {t u : Nat} (hu : u < 16) : frameUnit (addressByte t u) = u := by
  simp only [frameUnit, addressByte, byte1, BitVec.toNat_ofNat]; omega

@[simp] theorem sampleBytes_length (x : Sample) : (sampleBytes x).length = 5 := rfl

end Sys2Proof.Machine
end

