-- ==== Sys2Proof/Laws/Modes.lean ====
section
/-! SUPPORT. Laws.Modes: what the entry to a mode leaves in the mode record, the engine and the groups, and what the collector's operations
touch. -/

namespace Sys2Proof.Machine

open Sys2Proof

variable (s : State)

/-! ## The collector's operations (R161 to R163) -/

/-- A raise touches the collector alone. -/
theorem takeRaise_frame (k : Kind) (n : Nat) (d : Detail) :
    takeRaise s k n d = { s with coll := (takeRaise s k n d).coll } := by
  unfold takeRaise; repeat' split
  all_goals rfl

/-- A clear touches the collector alone. -/
theorem takeClear_frame (k : Kind) (n : Nat) : takeClear s k n = { s with coll := (takeClear s k n).coll } := by
  unfold takeClear; repeat' split
  all_goals rfl

/-- An acknowledgement touches the collector alone. -/
theorem ackSlot_frame (i : Fin 64) : ackSlot s i = { s with coll := (ackSlot s i).coll } := by
  unfold ackSlot; repeat' split
  all_goals rfl

/-! ## Writing the mode (R75) -/

/-- Writing the mode touches the mode record and the collector alone. -/
theorem writeMode_frame (m : Mode) (r : Reason) :
    writeMode s m r = { s with jm := (writeMode s m r).jm, coll := (writeMode s m r).coll } := by
  unfold writeMode leaveStartRed
  split
  · rw [takeClear_frame]; rfl
  · rfl

@[simp] theorem writeMode_inPulse (m : Mode) (r : Reason) : (writeMode s m r).inPulse = s.inPulse := by
  rw [writeMode_frame]

/-- The mode record after the mode is written. -/
theorem writeMode_jm (m : Mode) (r : Reason) :
    (writeMode s m r).jm =
      { s.jm with
        mode := m, reason := r, departure := none
        provingTimeout := if s.jm.mode = .startRed ∧ m ≠ .startRed then false else s.jm.provingTimeout } := by
  unfold writeMode leaveStartRed
  by_cases h : s.jm.mode = .startRed ∧ m ≠ .startRed
  · rw [if_pos h]
    by_cases h' : s.jm.provingTimeout = true
    · rw [if_pos ⟨h.1, h.2, h'⟩, takeClear_frame]; rfl
    · rw [if_neg (fun x => h' x.2.2)]
      simp only [Bool.not_eq_true] at h'
      simp only [setMode, h']
  · rw [if_neg h, if_neg (fun x => h ⟨x.1, x.2.1⟩)]; rfl

/-! ## Entry to a mode other than PLAN (R75) -/

/-- The target a mode hands to every group (R75). -/
def modeTarget : Mode → Target
  | .dark => .dark
  | .startRed => .stop
  | .startFlash | .flash => .flash
  | .plan | .directDrive => .stop

/-- An entry touches the mode record, the collector, the engine, the groups with their clearance runs and the junction flash run alone. -/
theorem takeMode_frame (m : Mode) (r : Reason) :
    takeMode s m r =
      { s with
        jm := (takeMode s m r).jm, coll := (takeMode s m r).coll, eng := (takeMode s m r).eng
        groups := (takeMode s m r).groups, clearRuns := (takeMode s m r).clearRuns
        junctionRun := (takeMode s m r).junctionRun } := by
  unfold takeMode
  cases m <;> dsimp only <;> (try rw [handAll_frame]) <;>
    simp only [restartJunctionRun, zeroModeTimer, setMode, engineIdle, setEng] <;> rw [writeMode_frame]

/-- The mode record after an entry. -/
theorem takeMode_jm (m : Mode) (r : Reason) :
    (takeMode s m r).jm.mode = m ∧ (takeMode s m r).jm.reason = r ∧ (takeMode s m r).jm.departure = none ∧
      (takeMode s m r).jm.started = s.jm.started ∧ (takeMode s m r).jm.schedMode = s.jm.schedMode ∧
      (takeMode s m r).jm.silent = s.jm.silent ∧ (takeMode s m r).jm.silence = s.jm.silence ∧
      (takeMode s m r).jm.silenceFresh = s.jm.silenceFresh := by
  have h := writeMode_jm s m r
  unfold takeMode
  cases m <;> dsimp only <;> (try rw [handAll_frame]) <;>
    simp only [restartJunctionRun, zeroModeTimer, setMode, engineIdle, setEng, h, and_self]

/-- START_FLASH and START_RED start the mode timer (R75). -/
theorem takeMode_timer (m : Mode) (r : Reason) (h : m = .startFlash ∨ m = .startRed) :
    (takeMode s m r).jm.timer = 0 ∧ (takeMode s m r).jm.timerFresh = !s.inPulse := by
  unfold takeMode
  rcases h with rfl | rfl <;> dsimp only <;> rw [handAll_frame] <;>
    simp only [restartJunctionRun, zeroModeTimer, setMode, engineIdle, setEng, writeMode_inPulse, and_self]

/-- An entry to FLASH or START_FLASH restarts the junction flash run; another leaves it (R75, R92). -/
theorem takeMode_junctionRun (m : Mode) (r : Reason) :
    (takeMode s m r).junctionRun =
      if m = .flash ∨ m = .startFlash then newRun s s.tables.startUp.pattern else s.junctionRun := by
  unfold takeMode
  cases m <;> dsimp only <;> (try rw [handAll_frame]) <;>
    simp only [restartJunctionRun, zeroModeTimer, setMode, engineIdle, setEng] <;> rw [writeMode_frame] <;> rfl

/-- The engine is IDLE after an entry (R72, R75). -/
theorem takeMode_eng (m : Mode) (r : Reason) :
    (takeMode s m r).eng =
      { enginePor with governing := s.eng.governing, invalidRaised := s.eng.invalidRaised } := by
  unfold takeMode
  cases m <;> dsimp only <;> (try rw [handAll_frame]) <;>
    simp only [restartJunctionRun, zeroModeTimer, setMode, engineIdle, setEng] <;> rw [writeMode_frame]

/-- Every group in use takes the mode's target at the entry to a mode other than PLAN and DIRECT_DRIVE, and a group of type UNUSED keeps its
record (R75). -/
theorem takeMode_groups (m : Mode) (r : Reason) (h : m ≠ .plan) (h' : m ≠ .directDrive) (g : Fin 32) :
    (live s g = true →
      (takeMode s m r).groups[g].target = modeTarget m ∧
        (takeMode s m r).groups[g].aspect = handedAspect s g (modeTarget m) ∧
        (takeMode s m r).groups[g].inhibited = s.groups[g].inhibited) ∧
    (live s g = false → (takeMode s m r).groups[g] = s.groups[g]) := by
  have key (x : State) (hg : x.groups = s.groups) (ht : x.tables = s.tables) (t : Target) :
      (live s g = true → (handAll x t).groups[g].target = t ∧ (handAll x t).groups[g].aspect = handedAspect s g t ∧
        (handAll x t).groups[g].inhibited = s.groups[g].inhibited) ∧
      (live s g = false → (handAll x t).groups[g] = s.groups[g]) := by
    have := handAll_groups x t g
    have ha : handedAspect x g t = handedAspect s g t := by
      unfold handedAspect flashAspect; rw [hg, groupType_congr ht]
    rw [live_congr ht, ha, hg] at this
    exact this
  have hw' : (writeMode s m r).groups = s.groups ∧ (writeMode s m r).tables = s.tables := by
    rw [writeMode_frame]; exact ⟨rfl, rfl⟩
  generalize hx : writeMode s m r = x at hw'
  obtain ⟨hg, ht⟩ := hw'
  cases m
  case plan => contradiction
  case directDrive => contradiction
  case dark =>
    have := key (engineIdle x) hg ht .dark
    simp only [takeMode, modeTarget, hx]; exact this
  case startFlash =>
    have := key (restartJunctionRun (zeroModeTimer (engineIdle x))) hg ht .flash
    simp only [takeMode, modeTarget, hx]; exact this
  case startRed =>
    have := key (setMode (zeroModeTimer (engineIdle x)) fun j => { j with provingTimeout := false }) hg ht .stop
    simp only [takeMode, modeTarget, hx]; exact this
  case flash =>
    have := key (restartJunctionRun (engineIdle x)) hg ht .flash
    simp only [takeMode, modeTarget, hx]; exact this

/-- PLAN and DIRECT_DRIVE hand no target (R75). -/
theorem takeMode_groups_kept (m : Mode) (r : Reason) (h : m = .plan ∨ m = .directDrive) :
    (takeMode s m r).groups = s.groups ∧ (takeMode s m r).clearRuns = s.clearRuns := by
  have hw : (writeMode s m r).groups = s.groups ∧ (writeMode s m r).clearRuns = s.clearRuns := by
    rw [writeMode_frame]; exact ⟨rfl, rfl⟩
  unfold takeMode
  rcases h with rfl | rfl <;> exact hw

end Sys2Proof.Machine
end

