-- ==== Sys2Proof/Laws/Units.lean ====
section
/-! SUPPORT. Laws.Units: what leaving ADMITTED, a miss and a test result do to the units and the inputs (R49, R112, R113, R148). -/

namespace Sys2Proof.Machine

open Sys2Proof

variable (s : State)

/-! ## The units, the inputs and lamp proving (R148) -/

/-- The units, the inputs, lamp proving and the round. -/
def site (s : State) : Vector UnitRec 12 × Vector InputRec 64 × Proving × Round :=
  (s.bus.units, s.inputs, s.prov, s.bus.round)

variable {s} in
theorem site_of_kept {t : State} (h : kept t = kept s) : site t = site s := by
  simp only [site, bus_units_of_kept h, inputs_of_kept h, prov_of_kept h, bus_round_of_kept h]

variable {s} in
theorem site_of_withCable {t : State} {c : Cable} (h : kept t = (kept s).withCable c) : site t = site s :=
  site_of_kept (s := { s with cable := c }) h

theorem site_takeTestResult (c : Fin 96) (residual : Nat) : site (takeTestResult s c residual) = site s := by
  unfold takeTestResult
  dsimp only
  split
  · rw [site_of_withCable (kept_clearShort _ _), site_of_withCable (kept_clearOpen _ _)]; rfl
  · rfl
  · unfold takeCableFault
    split
    · rw [site_of_withCable (kept_raiseOpen _ _ _), site_of_withCable (kept_clearShort _ _)]; rfl
    · rw [site_of_withCable (kept_raiseShort _ _ _), site_of_withCable (kept_clearOpen _ _)]; rfl
    · rfl

/-- Resolving tests leaves the units, the inputs, lamp proving and the round. -/
theorem site_resolveTests (u : Fin 12) (v : Nat) (xs : Option (Vector Sample 8)) : site (resolveTests s u v xs) = site s := by
  refine foldl_inv site (resolveTest v xs) (fun s tc => ?_) _ s
  unfold resolveTest
  repeat' split
  · exact site_takeTestResult _ _ _
  all_goals rfl

/-! ## Inputs of a unit (R49) -/

/-- An entry going INACTIVE changes its own record, the collector and the engine alone. -/
theorem inputOff_frame (e : Fin 64) :
    inputOff s e = { s with inputs := put s.inputs e inputRecPor, coll := (inputOff s e).coll, eng := (inputOff s e).eng } := by
  unfold inputOff resyncIfReleased
  dsimp only
  split
  · split
    · rw [takeClear_frame]; rfl
    · rw [takeClear_frame]; rfl
  · split <;> rfl

/-- The entries of a unit go INACTIVE; nothing but their records, the collector and the engine changes. -/
theorem dropInputs_frame (u : Fin 12) :
    ∃ (i : Vector InputRec 64) (c : Collector) (g : Engine), dropInputs s u = { s with inputs := i, coll := c, eng := g } ∧
      ∀ e : Fin 64, i[e] = if inputUnit s e = some u then inputRecPor else s.inputs[e] := by
  have key : ∀ (l : List (Fin 64)) (t : State), ∃ (i : Vector InputRec 64) (c : Collector) (g : Engine),
      (l.foldl (fun (t : State) (e : Fin 64) => if inputUnit t e = some u then inputOff t e else t) t) =
        { t with inputs := i, coll := c, eng := g } ∧
      ∀ e : Fin 64, i[e] = if e ∈ l ∧ inputUnit t e = some u then inputRecPor else t.inputs[e] := by
    intro l
    induction l with
    | nil => intro t; exact ⟨t.inputs, t.coll, t.eng, rfl, fun e => by simp⟩
    | cons a l ih =>
      intro t
      simp only [List.foldl_cons]
      split
      · rename_i h
        have hf := inputOff_frame t a
        generalize (inputOff t a).coll = c1 at hf
        generalize (inputOff t a).eng = g1 at hf
        rw [hf]
        obtain ⟨i, c, g, h1, h2⟩ := ih { t with inputs := put t.inputs a inputRecPor, coll := c1, eng := g1 }
        refine ⟨i, c, g, h1, fun e => ?_⟩
        rw [h2 e]
        have hu : inputUnit { t with inputs := put t.inputs a inputRecPor, coll := c1, eng := g1 } e = inputUnit t e := rfl
        rw [hu]
        by_cases he : a = e
        · subst he
          simp only [List.mem_cons, true_or, h, if_true, and_true]
          split
          · rfl
          · exact getElem_put_self _ _ _
        · simp only [List.mem_cons, Ne.symm he, false_or]
          split
          · rfl
          · exact getElem_put_of_ne _ _ _ _ he
      · rename_i h
        obtain ⟨i, c, g, h1, h2⟩ := ih t
        refine ⟨i, c, g, h1, fun e => ?_⟩
        rw [h2 e]
        by_cases he : e = a
        · subst he; simp [h]
        · simp [he]
  obtain ⟨i, c, g, h1, h2⟩ := key (idx 64) s
  refine ⟨i, c, g, h1, fun e => ?_⟩
  have := h2 e
  simp only [List.mem_finRange, true_and] at this
  exact this

/-! ## Leaving ADMITTED (R113) -/

/-- Lamp proving's part in a unit leaving ADMITTED touches no unit and no input. -/
theorem unitLeavesProving_site (u : Fin 12) :
    (unitLeavesProving s u).bus.units = s.bus.units ∧ (unitLeavesProving s u).inputs = s.inputs ∧
      (unitLeavesProving s u).bus.round = s.bus.round := by
  have key : ∀ (l : List (Fin 8 × Fin 96)) (t : State), ∃ p : Proving,
      kept (l.foldl (fun (s : State) (tc : Fin 8 × Fin 96) =>
        if s.prov.circuits[tc.2].verdict = .forced then s
        else setProv (changeVerdict s tc.2 .unknown) tc.2 fun r => { r with onRun := 0 }) t) = (kept t).withProv p := by
    intro l
    induction l with
    | nil => intro t; exact ⟨t.prov, rfl⟩
    | cons a l ih =>
      intro t
      simp only [List.foldl_cons]
      split
      · exact ih t
      · obtain ⟨p, hp⟩ := ih (setProv (changeVerdict t a.2 .unknown) a.2 fun r => { r with onRun := 0 })
        refine ⟨p, ?_⟩
        rw [hp, kept_setProv', kept_changeVerdict]
        rfl
  unfold unitLeavesProving
  dsimp only
  obtain ⟨p, hp⟩ := key (circuitsOf s u) { s with prov := { s.prov with lastWin := put s.prov.lastWin u none } }
  generalize (circuitsOf s u).foldl _ _ = x at hp
  have h := kept_recomputeRed x
  generalize recomputeRed x = y at h
  have h' : kept y = (kept s).withProv y.prov := by
    rw [h, hp]; simp only [prov_eq_of_kept h]; rfl
  exact ⟨bus_units_eq_of_kept h', inputs_eq_of_kept h', bus_round_eq_of_kept h'⟩

theorem abandonTests_site (u : Fin 12) : site (abandonTests s u) = site s :=
  foldl_inv site _ (fun s (tc : Fin 8 × Fin 96) => (rfl : site (setCable s tc.2 _) = site s)) _ s

theorem unitLeavesCable_site (u : Fin 12) : site (unitLeavesCable s u) = site s := by
  unfold unitLeavesCable
  have h := abandonTests_site s u
  generalize abandonTests s u = t at h
  exact h

/-- What leaving ADMITTED does to the units and the inputs (R49, R113). -/
theorem leaveAdmitted_site (u : Fin 12) :
    (∀ k : Fin 12, (leaveAdmitted s u).bus.units[k] =
      if u = k then { s.bus.units[k] with miss := 0, hotRun := 0, hotQuiet := 0, log := [] } else s.bus.units[k]) ∧
    (∀ e : Fin 64, (leaveAdmitted s u).inputs[e] = if inputUnit s e = some u then inputRecPor else s.inputs[e]) ∧
    (leaveAdmitted s u).bus.round = s.bus.round := by
  unfold leaveAdmitted
  dsimp only
  generalize hs1 : (setUnit s u fun x => { x with miss := 0, hotRun := 0, hotQuiet := 0, log := [] }) = s1
  obtain ⟨i, c, g, h1, h2⟩ := dropInputs_frame s1 u
  have h3 := unitLeavesProving_site (unitLeavesCable (settle (dropInputs s1 u)) u) u
  have h4 := (unitLeavesCable_site (settle (dropInputs s1 u)) u).trans (site_of_kept (kept_settle (dropInputs s1 u)))
  generalize unitLeavesCable (settle (dropInputs s1 u)) u = y at h3 h4 ⊢
  generalize unitLeavesProving y u = z at h3 ⊢
  rw [h1] at h4
  simp only [site, Prod.mk.injEq] at h4
  obtain ⟨a, b, _, d⟩ := h4
  refine ⟨fun k => ?_, fun e => ?_, ?_⟩
  · simp only [h3.1, a]
    subst hs1
    exact units_setUnit s u k _
  · simp only [h3.2.1, b]
    subst hs1
    exact h2 e
  · rw [h3.2.2, d]
    subst hs1; rfl

/-- What becoming LOST does to the units and the inputs when the misses have reached the limit (R112, R113). -/
theorem takeLost_site (u : Fin 12) (h : lostDue s u = true) :
    (∀ k : Fin 12, (takeLost s u).bus.units[k] = if u = k then
        { s.bus.units[k] with state := .lost, lostRaised := true, miss := 0, hotRun := 0, hotQuiet := 0, log := [] }
      else s.bus.units[k]) ∧
    (∀ e : Fin 64, (takeLost s u).inputs[e] = if inputUnit s e = some u then inputRecPor else s.inputs[e]) ∧
    (takeLost s u).bus.round = s.bus.round := by
  unfold takeLost
  rw [if_pos h]
  dsimp only
  have fin : ∀ t : State, kept t = kept (setUnit s u fun x => { x with state := .lost, lostRaised := true }) →
      (∀ k : Fin 12, (leaveAdmitted t u).bus.units[k] = if u = k then
          { s.bus.units[k] with state := .lost, lostRaised := true, miss := 0, hotRun := 0, hotQuiet := 0, log := [] }
        else s.bus.units[k]) ∧
      (∀ e : Fin 64, (leaveAdmitted t u).inputs[e] = if inputUnit s e = some u then inputRecPor else s.inputs[e]) ∧
      (leaveAdmitted t u).bus.round = s.bus.round := by
    intro t ht
    obtain ⟨a, b, c⟩ := leaveAdmitted_site t u
    refine ⟨fun k => ?_, fun e => ?_, ?_⟩
    · rw [a k]
      have hu := bus_units_of_kept ht
      have hk : t.bus.units[k] = if u = k then { s.bus.units[k] with state := .lost, lostRaised := true } else s.bus.units[k] := by
        simp only [hu]; exact units_setUnit s u k _
      rw [hk]
      by_cases e : u = k
      · simp only [e, if_true]
      · simp only [e, if_false]
    · rw [b e]
      have hi := inputs_of_kept ht
      have ht' := tables_of_kept ht
      have : inputUnit t e = inputUnit s e := by unfold inputUnit; rw [ht']; rfl
      rw [this, hi]; rfl
    · rw [c, bus_round_of_kept ht]; rfl
  split
  · exact fin _ rfl
  · exact fin _ (kept_raise _ _ _ _)

theorem takeLost_not_due (u : Fin 12) (h : lostDue s u = false) : takeLost s u = s := by
  unfold takeLost; rw [h]; rfl

theorem takeMiss_not_counted (u : Fin 12) (h : counting s = false) :
    takeMiss s u = resolveTests (between s) u (lastWindowNo s) none := by
  unfold takeMiss; simp only [h, Bool.false_eq_true, if_false]

/-- When the miss of an exchange loses its unit (R112). -/
theorem lostByMiss_iff (u : Fin 12) : lostByMiss s u = true ↔
    s.bus.round.awaiting = some u ∧ counting s = true ∧ lostDue (countMiss s u) u = true := by
  simp only [lostByMiss, Bool.and_eq_true, decide_eq_true_eq, and_assoc]

/-! ## Commands that name a moment (log entry 2) -/

/-- A moment of a pulse that is due is taken as work of the pulse that stands. -/
theorem atPulse_due {due : Bool} (f : State → State) (h : pulseStands s = true) (d : due = true) :
    atPulse due f s = { finish (f { s with inPulse := true }) with inPulse := s.inPulse } := by
  unfold atPulse; rw [h, d]; rfl

/-- A moment of a pulse changes nothing while it is not due or no pulse stands. -/
theorem atPulse_idle {due : Bool} (f : State → State) (h : pulseStands s = false ∨ due = false) :
    atPulse due f s = finish s := by
  unfold atPulse; rcases h with h | h <;> simp [h]

theorem atWindow_stands (f : State → State) (h : windowStands s = true) : atWindow f s = finish (f s) := by
  unfold atWindow; rw [if_pos h]

theorem atWindow_idle (f : State → State) (h : windowStands s = false) : atWindow f s = finish s := by
  simp [atWindow, h]

theorem atFrame_stands {b : Bool} (f : State → State) (h : b = true) : atFrame b f s = finish (f s) := by
  unfold atFrame; rw [if_pos h]

theorem atFrame_idle {b : Bool} (f : State → State) (h : b = false) : atFrame b f s = finish s := by
  simp [atFrame, h]

variable {s} in
/-- A moment of a pulse keeps of the kept part what its work keeps. -/
theorem kept_atPulse {due : Bool} {f : State → State} (h : ∀ t, kept (f t) = kept t) : kept (atPulse due f s) = kept s := by
  unfold atPulse
  split
  · have k := (kept_finish (f { s with inPulse := true })).trans (h _)
    generalize finish (f { s with inPulse := true }) = t at k
    have e : kept { t with inPulse := s.inPulse } = { kept t with inPulse := s.inPulse } := rfl
    rw [e, k]; rfl
  · exact kept_finish s

end Sys2Proof.Machine
end

