-- ==== Sys2Proof/Laws/Intake.lean ====
section
/-! SUPPORT. Laws.Intake: what the stages of intake leave of the units, the last windows taken in and the round (R116, R126, R157). -/

namespace Sys2Proof.Machine

open Sys2Proof

variable (s : State)

/-- The units and the round, with the last window taken in from each unit (R126). -/
def taking (s : State) : Vector UnitRec 12 × Vector (Option (Nat × Tap)) 12 × Round := (s.bus.units, s.prov.lastWin, s.bus.round)

variable {s} in
theorem taking_of_kept {t : State} (h : kept t = kept s) : taking t = taking s := by
  simp only [taking, bus_units_of_kept h, prov_of_kept h, bus_round_of_kept h]

variable {s} in
theorem taking_of_withProv {t : State} {p : Proving} (h : kept t = (kept s).withProv p) (hp : p.lastWin = s.prov.lastWin) :
    taking t = taking s := by
  rw [taking_of_kept (s := { s with prov := p }) h]; simp only [taking, hp]

variable {s} in
theorem taking_of_site {t : State} (h : site t = site s) : taking t = taking s := by
  simp only [site, Prod.mk.injEq] at h
  simp only [taking, h]

theorem taking_foldl {α : Type} (f : State → α → State) (h : ∀ s a, taking (f s a) = taking s) (l : List α) (s : State) :
    taking (l.foldl f s) = taking s := foldl_inv taking f h l s

@[simp] theorem taking_settle : taking (settle s) = taking s := taking_of_kept (kept_settle s)

@[simp] theorem taking_raise (k : Kind) (n : Nat) (d : Detail) : taking (raise s k n d) = taking s := taking_of_kept (kept_raise s k n d)

@[simp] theorem taking_clear (k : Kind) (n : Nat) : taking (clear s k n) = taking s := taking_of_kept (kept_clear s k n)

@[simp] theorem taking_setProv (c : Fin 96) (f : ProvRec → ProvRec) : taking (setProv s c f) = taking s := rfl

@[simp] theorem taking_setLearn (c : Fin 96) (f : LearnRec → LearnRec) : taking (setLearn s c f) = taking s := rfl

@[simp] theorem taking_setCable (c : Fin 96) (f : CableRec → CableRec) : taking (setCable s c f) = taking s := rfl

@[simp] theorem taking_setLeak (u : Fin 12) (f : LeakRec → LeakRec) : taking (setLeak s u f) = taking s := rfl

@[simp] theorem taking_setTables (f : Tables → Tables) : taking (setTables s f) = taking s := rfl

@[simp] theorem taking_setInput (e : Fin 64) (f : InputRec → InputRec) : taking (setInput s e f) = taking s := rfl

@[simp] theorem taking_setGroup (g : Fin 32) (f : GroupRec → GroupRec) : taking (setGroup s g f) = taking s := rfl

@[simp] theorem taking_recomputeRed : taking (recomputeRed s) = taking s := taking_of_withProv (kept_recomputeRed s) rfl

@[simp] theorem taking_changeVerdict (c : Fin 96) (v : Verdict) : taking (changeVerdict s c v) = taking s :=
  taking_of_withProv (kept_changeVerdict s c v) rfl

@[simp] theorem taking_takeConfirm (c : Fin 96) : taking (takeConfirm s c) = taking s := by
  unfold takeConfirm; split <;> simp

@[simp] theorem taking_learnDone (c : Fin 96) : taking (learnDone s c) = taking s := rfl

@[simp] theorem taking_takeConverge (c : Fin 96) : taking (takeConverge s c) = taking s := by
  unfold takeConverge; dsimp only; repeat' split
  all_goals simp

@[simp] theorem taking_takeUnstable (c : Fin 96) : taking (takeUnstable s c) = taking s := by
  unfold takeUnstable; dsimp only; split <;> simp

@[simp] theorem taking_learnWindow (c : Fin 96) (t : Tap) (isum vsup : Nat) : taking (learnWindow s c t isum vsup) = taking s := by
  unfold learnWindow; dsimp only; split <;> simp

@[simp] theorem taking_judgeEligible (f : SenseFrame) (c : Fin 96) (x : Sample) : taking (judgeEligible s f c x) = taking s := by
  unfold judgeEligible; dsimp only; split <;> simp

@[simp] theorem taking_proveCircuit (u : Fin 12) (f : SenseFrame) (xs : Vector Sample 8) (cont : Bool) (tc : Fin 8 × Fin 96) :
    taking (proveCircuit u f xs cont s tc) = taking s := by
  unfold proveCircuit; dsimp only; split <;> simp

/-- Lamp proving's work on a frame writes the last window taken in from the unit (R126). -/
theorem taking_proveFrame (u : Fin 12) (f : SenseFrame) (xs : Vector Sample 8) :
    taking (proveFrame s u f xs) = (s.bus.units, put s.prov.lastWin u (some (f.window, f.tap)), s.bus.round) := by
  unfold proveFrame
  dsimp only
  have h := taking_foldl (proveCircuit u f xs (follows s u f.window f.tap)) (fun s tc => taking_proveCircuit s u f xs _ tc) (circuitsOf s u) s
  generalize (circuitsOf s u).foldl (proveCircuit u f xs (follows s u f.window f.tap)) s = t at h
  rw [taking_recomputeRed]
  simp only [taking, Prod.mk.injEq] at h ⊢
  simp only [h, and_self]

@[simp] theorem taking_resolveTests (u : Fin 12) (v : Nat) (xs : Option (Vector Sample 8)) :
    taking (resolveTests s u v xs) = taking s := taking_of_site (site_resolveTests s u v xs)

@[simp] theorem taking_takeOvc (c : Fin 96) : taking (takeOvc s c) = taking s := by
  unfold takeOvc forceVerdict; dsimp only; repeat' split
  all_goals simp

@[simp] theorem taking_ovcCircuit (xs : Vector Sample 8) (tc : Fin 8 × Fin 96) : taking (ovcCircuit xs s tc) = taking s := by
  unfold ovcCircuit; split <;> simp

@[simp] theorem taking_takeCrossRaise (c : Fin 96) : taking (takeCrossRaise s c) = taking s := by
  unfold takeCrossRaise; split <;> simp

@[simp] theorem taking_takeCrossClear (c : Fin 96) : taking (takeCrossClear s c) = taking s := by
  unfold takeCrossClear; split <;> simp

@[simp] theorem taking_passGreen (u : Fin 12) (v : Nat) (tc : Fin 8 × Fin 96) (lit : Bool) : taking (passGreen s u v tc lit) = taking s := by
  unfold passGreen markSeen; repeat' split
  all_goals simp

@[simp] theorem taking_litCircuit (u : Fin 12) (f : SenseFrame) (xs : Vector Sample 8) (tc : Fin 8 × Fin 96) :
    taking (litCircuit u f xs s tc) = taking s := by
  unfold litCircuit; dsimp only; repeat' split
  all_goals simp

@[simp] theorem taking_takeLeakRaise (u : Fin 12) : taking (takeLeakRaise s u) = taking s := by
  unfold takeLeakRaise; split <;> simp

@[simp] theorem taking_takeLeakClear (u : Fin 12) : taking (takeLeakClear s u) = taking s := by
  unfold takeLeakClear; split <;> simp

/-- Cable supervision's work on a frame leaves the units, the last windows and the round (R157). -/
@[simp] theorem taking_superviseFrame (u : Fin 12) (v : Nat) (f : SenseFrame) (xs : Vector Sample 8) :
    taking (superviseFrame s u v f xs) = taking s := by
  unfold superviseFrame judgeLeak
  dsimp only
  rw [taking_recomputeRed, taking_takeLeakClear, taking_takeLeakRaise, taking_setLeak,
    taking_foldl _ (fun s tc => taking_litCircuit s u f xs tc), taking_foldl _ (fun s tc => taking_ovcCircuit s xs tc), taking_resolveTests]

/-- The OVERTEMP flag counted: the run and the quiet count of the unit (R117), besides its mark. -/
theorem taking_takeFlags (u : Fin 12) (f : SenseFrame) :
    (∀ k : Fin 12, (takeFlags s u f).bus.units[k] = if u = k then
      { countHot f.overtemp s.bus.units[k] with hotRaised := (takeFlags s u f).bus.units[k].hotRaised } else s.bus.units[k]) ∧
    (takeFlags s u f).prov = s.prov ∧ (takeFlags s u f).bus.round = s.bus.round := by
  have step : ∀ (t : State) (b : Bool) (x : State), kept x = kept (setUnit t u fun r => { r with hotRaised := b }) →
      (∀ k : Fin 12, x.bus.units[k] = if u = k then { t.bus.units[k] with hotRaised := x.bus.units[k].hotRaised } else t.bus.units[k]) ∧
      x.prov = t.prov ∧ x.bus.round = t.bus.round := by
    intro t b x h
    have hu := bus_units_of_kept h
    have p1 := prov_of_kept h
    have p2 := bus_round_of_kept h
    refine ⟨fun k => ?_, p1, p2⟩
    have : x.bus.units[k] = if u = k then { t.bus.units[k] with hotRaised := b } else t.bus.units[k] := by
      simp only [hu]; exact units_setUnit _ _ _ _
    rw [this]
    split <;> rfl
  have same : ∀ t : State, (∀ k : Fin 12, t.bus.units[k] = if u = k then { t.bus.units[k] with hotRaised := t.bus.units[k].hotRaised } else t.bus.units[k]) ∧
      t.prov = t.prov ∧ t.bus.round = t.bus.round := fun t => ⟨fun k => by split <;> rfl, rfl, rfl⟩
  have r : ∀ t : State, (∀ k : Fin 12, (takeHotRaise t u).bus.units[k] = if u = k then
      { t.bus.units[k] with hotRaised := (takeHotRaise t u).bus.units[k].hotRaised } else t.bus.units[k]) ∧
      (takeHotRaise t u).prov = t.prov ∧ (takeHotRaise t u).bus.round = t.bus.round := by
    intro t; unfold takeHotRaise; split
    · exact step t true _ (kept_raise _ _ _ _)
    · exact same t
  have c : ∀ t : State, (∀ k : Fin 12, (takeHotClear t u).bus.units[k] = if u = k then
      { t.bus.units[k] with hotRaised := (takeHotClear t u).bus.units[k].hotRaised } else t.bus.units[k]) ∧
      (takeHotClear t u).prov = t.prov ∧ (takeHotClear t u).bus.round = t.bus.round := by
    intro t; unfold takeHotClear; split
    · exact step t false _ (kept_clear _ _ _)
    · exact same t
  unfold takeFlags
  obtain ⟨r1, r2, r3⟩ := r (setUnit s u (countHot f.overtemp))
  generalize takeHotRaise (setUnit s u (countHot f.overtemp)) u = t at r1 r2 r3
  obtain ⟨c1, c2, c3⟩ := c t
  refine ⟨fun k => ?_, c2.trans r2, c3.trans r3⟩
  rw [c1 k]
  by_cases h : u = k
  · rw [if_pos h, if_pos h, r1 k, if_pos h, units_setUnit, if_pos h]
  · rw [if_neg h, if_neg h, r1 k, if_neg h, units_setUnit, if_neg h]

@[simp] theorem taking_inputOff (e : Fin 64) : taking (inputOff s e) = taking s := by rw [inputOff_frame]; rfl

@[simp] theorem taking_inputOn (e : Fin 64) : taking (inputOn s e) = taking s := by
  unfold inputOn; dsimp only; split <;> rfl

@[simp] theorem taking_readInput (e : Fin 64) (b : Bool) : taking (readInput s e b) = taking s := by
  unfold readInput takeInputChange; repeat' split
  all_goals simp

@[simp] theorem taking_takeInputs (u : Fin 12) (f : SenseFrame) : taking (takeInputs s u f) = taking s := by
  unfold takeInputs
  rw [taking_settle]
  refine taking_foldl _ (fun s e => ?_) (idx 64) s
  split <;> simp

@[simp] theorem taking_forward (u : Fin 12) (f : SenseFrame) : taking (forward s u f) = taking s := by
  unfold forward queueReport; repeat' split
  all_goals rfl

/-- What the intake of a frame writes of the units, the last windows and the round (R116, R117, R126). -/
theorem taking_intake (u : Fin 12) (f : SenseFrame) :
    (gapFrame s = true → taking (intake s u f) = taking s) ∧
    (gapFrame s = false →
      (∀ k : Fin 12, (intake s u f).bus.units[k] = if u = k then
        { countHot f.overtemp s.bus.units[k] with hotRaised := (intake s u f).bus.units[k].hotRaised } else s.bus.units[k]) ∧
      (intake s u f).prov.lastWin = put s.prov.lastWin u (some (f.window, f.tap)) ∧
      (intake s u f).bus.round = s.bus.round) := by
  refine ⟨fun h => ?_, fun h => ?_⟩
  · unfold intake; rw [if_pos h]; exact taking_resolveTests _ _ _ _
  · unfold intake
    simp only [h, Bool.false_eq_true, if_false]
    have gen : ∀ t y w : State,
        taking t = (s.bus.units, put s.prov.lastWin u (some (f.window, f.tap)), s.bus.round) →
        ((∀ k : Fin 12, y.bus.units[k] = if u = k then
          { countHot f.overtemp t.bus.units[k] with hotRaised := y.bus.units[k].hotRaised } else t.bus.units[k]) ∧
          y.prov = t.prov ∧ y.bus.round = t.bus.round) →
        taking w = taking y →
        (∀ k : Fin 12, w.bus.units[k] = if u = k then
          { countHot f.overtemp s.bus.units[k] with hotRaised := w.bus.units[k].hotRaised } else s.bus.units[k]) ∧
        w.prov.lastWin = put s.prov.lastWin u (some (f.window, f.tap)) ∧ w.bus.round = s.bus.round := by
      intro t y w h1 ⟨f1, f2, f3⟩ h2
      simp only [taking, Prod.mk.injEq] at h1 h2
      obtain ⟨a1, a2, a3⟩ := h1
      obtain ⟨b1, b2, b3⟩ := h2
      refine ⟨fun k => ?_, ?_, ?_⟩
      · simp only [b1]
        have f := f1 k
        simp only [a1] at f
        exact f
      · rw [b2, f2, a2]
      · rw [b3, f3, a3]
    exact gen _ _ _
      ((taking_superviseFrame (proveFrame s u f (inOrder s u f)) u (lastWindowNo s) f (inOrder s u f)).trans
        (taking_proveFrame s u f (inOrder s u f)))
      (taking_takeFlags _ u f) ((taking_forward _ u f).trans (taking_takeInputs _ u f))

end Sys2Proof.Machine
end

