-- ==== Sys2Proof/Laws/Pulse.lean ====
section
/-! SUPPORT. Laws.Pulse: what the decisecond pulse and a window start leave alone (R97, R108). -/

namespace Sys2Proof.Machine

open Sys2Proof

variable (s : State)

/-! ## The monitor's work (R22) -/

@[simp] theorem held_takeTimedEnds : held (takeTimedEnds s) = held s := by
  refine held_foldl _ (fun s g => ?_) _ s
  unfold takeTimedEnd
  split
  · unfold takeClearanceStart; split <;> simp
  · unfold takeAmberEnd; split <;> simp
  · unfold takeClearanceEnd; split <;> simp
  · unfold takeRedAmberEnd; split <;> simp
  all_goals rfl

@[simp] theorem held_judgeReleases : held (judgeReleases s) = held s := by
  refine held_foldl _ (fun s g => ?_) _ s
  unfold judgeRelease; split <;> simp

/-- The mode machine's work at a pulse leaves the kept part. -/
theorem kept_modePulse : kept (modePulse s) = kept s := by
  unfold modePulse
  rw [kept_settle, kept_of_held (held_takeSilent _), kept_settle, kept_of_held (held_takeProvingTimeout _),
    kept_of_held (held_takeStartRedEnd _), kept_settle, kept_of_held (held_takeStartFlashEnd _)]

/-- The monitor's work at a pulse leaves the kept part. -/
theorem kept_monitorPulse : kept (monitorPulse s) = kept s := by
  unfold monitorPulse
  rw [kept_settle, kept_of_held (held_judgeReleases _), kept_settle, kept_of_held (held_takeTimedEnds _)]

/-! ## Inputs that get stuck (R50) -/

/-- Marking stuck entries changes that mark alone. -/
theorem kept_stuckPulse : ∃ i : Vector InputRec 64, kept (stuckPulse s) = { kept s with inputs := i } ∧
    ∀ e : Fin 64, i[e].active = s.inputs[e].active ∧ i[e].activeTime = s.inputs[e].activeTime := by
  have key : ∀ (l : List (Fin 64)) (t : State), ∃ i : Vector InputRec 64, kept (l.foldl takeStuck t) = { kept t with inputs := i } ∧
      ∀ e : Fin 64, i[e].active = t.inputs[e].active ∧ i[e].activeTime = t.inputs[e].activeTime := by
    intro l
    induction l with
    | nil => intro t; exact ⟨t.inputs, rfl, fun _ => ⟨rfl, rfl⟩⟩
    | cons a l ih =>
      intro t
      simp only [List.foldl_cons]
      obtain ⟨i, h1, h2⟩ := ih (takeStuck t a)
      by_cases h : stuckDue t a = true
      · have hk : kept (takeStuck t a) = { kept t with inputs := upd t.inputs a fun r => { r with stuck := true } } := by
          unfold takeStuck; rw [if_pos h, kept_raise]; rfl
        refine ⟨i, ?_, fun e => ?_⟩
        · rw [h1, hk]
        · have hi := inputs_eq_of_kept hk
          rw [(h2 e).1, (h2 e).2, hi]
          by_cases he : a = e
          · subst he
            have := getElem_upd_self t.inputs a fun r => { r with stuck := true }
            simp only [this, and_self]
          · have := getElem_upd_of_ne t.inputs a e (fun r => { r with stuck := true }) he
            simp only [this, and_self]
      · have hk : takeStuck t a = t := by unfold takeStuck; rw [if_neg h]
        rw [hk] at h1 h2
        exact ⟨i, by rw [hk]; exact h1, h2⟩
  exact key (idx 64) s

/-! ## Cable supervision at a pulse (R153) -/

/-- The releases and the clean-on counts of a pulse change lamp proving and cable supervision alone, and no time since test. -/
theorem kept_cablePulse : ∃ (p : Proving) (c : Cable), kept (cablePulse s) = { kept s with prov := p, cable := c } ∧
    ∀ d : Fin 96, c.circuits[d].sinceTest = s.cable.circuits[d].sinceTest := by
  have rel : ∀ (l : List (Fin 96)) (t : State), ∃ (p : Proving) (c : Cable),
      kept (l.foldl takeRelease t) = { kept t with prov := p, cable := c } ∧
      ∀ d : Fin 96, c.circuits[d].sinceTest = t.cable.circuits[d].sinceTest := by
    intro l
    induction l with
    | nil => intro t; exact ⟨t.prov, t.cable, rfl, fun _ => rfl⟩
    | cons a l ih =>
      intro t
      simp only [List.foldl_cons]
      obtain ⟨p, c, h1, h2⟩ := ih (takeRelease t a)
      by_cases h : releaseDue t a = true
      · have hk : ∃ q : Proving, kept (takeRelease t a) = { kept t with prov := q, cable := t.cable.withCircuit a fun r =>
            { r with retry := .normal, retryTimer := 0, retryFresh := false } } := by
          unfold takeRelease; rw [if_pos h]
          obtain ⟨red, hr⟩ := kept_releaseVerdict (setCable t a fun r => { r with retry := .normal, retryTimer := 0, retryFresh := false }) a
          exact ⟨_, hr⟩
        obtain ⟨q, hk⟩ := hk
        refine ⟨p, c, by rw [h1, hk], fun d => ?_⟩
        rw [h2 d, cable_eq_of_kept hk]
        by_cases hd : a = d
        · subst hd
          have := getElem_upd_self t.cable.circuits a fun r => { r with retry := .normal, retryTimer := 0, retryFresh := false }
          simp only [Cable.withCircuit, this]
        · have := getElem_upd_of_ne t.cable.circuits a d (fun r => { r with retry := .normal, retryTimer := 0, retryFresh := false }) hd
          simp only [Cable.withCircuit, this]
      · have hk : takeRelease t a = t := by unfold takeRelease; rw [if_neg h]
        rw [hk] at h1 h2
        exact ⟨p, c, by rw [hk]; exact h1, h2⟩
  have trip : ∀ (l : List (Fin 96)) (t : State), ∃ c : Cable,
      kept (l.foldl takeTripClear t) = { kept t with cable := c } ∧
      ∀ d : Fin 96, c.circuits[d].sinceTest = t.cable.circuits[d].sinceTest := by
    intro l
    induction l with
    | nil => intro t; exact ⟨t.cable, rfl, fun _ => rfl⟩
    | cons a l ih =>
      intro t
      simp only [List.foldl_cons]
      by_cases h : tripClearDue t a = true
      · have hk : takeTripClear t a = setCable t a fun r => { r with trips := 0 } := by unfold takeTripClear; rw [if_pos h]
        rw [hk]
        obtain ⟨c, h1, h2⟩ := ih (setCable t a fun r => { r with trips := 0 })
        refine ⟨c, by rw [h1]; rfl, fun d => ?_⟩
        rw [h2 d]
        by_cases hd : a = d
        · subst hd
          have := getElem_upd_self t.cable.circuits a fun r => { r with trips := 0 }
          simp only [setCable, this]
        · have := getElem_upd_of_ne t.cable.circuits a d (fun r => { r with trips := 0 }) hd
          simp only [setCable, this]
      · have hk : takeTripClear t a = t := by unfold takeTripClear; rw [if_neg h]
        rw [hk]; exact ih t
  unfold cablePulse
  obtain ⟨p, c, h1, h2⟩ := rel (mapped s) s
  generalize (mapped s).foldl takeRelease s = t at h1
  obtain ⟨c', h3, h4⟩ := trip (mapped s) (advanceCleanOn t)
  refine ⟨p, c', ?_, fun d => ?_⟩
  · rw [h3]
    have : kept (advanceCleanOn t) = { kept t with cable := (advanceCleanOn t).cable } := rfl
    rw [this, h1]
  · have hc : t.cable = c := cable_eq_of_kept h1
    subst hc
    rw [h4 d, ← h2 d]
    simp only [advanceCleanOn, getElem_tab, advanceClean]
    split <;> rfl

/-! ## The pulse (R97) -/

/-- What the advance of the timers leaves and sets. -/
theorem kept_advanceTimers : kept (advanceTimers s) =
    { kept s with inputs := (advanceInputs s).inputs, cable := (advanceCable s).cable, inPulse := true } := by
  have h1 : kept (advanceGroups s) = kept s :=
    kept_of_held (held_groups s _ fun g => by rw [getElem_tab]; rfl)
  have h2 : kept (advanceRuns (advanceGroups s)) = kept s := h1
  have h3 : kept (advanceMode (advanceRuns (advanceGroups s))) = kept s := by rw [kept_of_held (held_advanceMode _), h2]
  have h4 : kept (advanceEngine (advanceMode (advanceRuns (advanceGroups s)))) = kept s := by
    unfold advanceEngine; split
    · rw [kept_setEng, h3]
    · exact h3
  unfold advanceTimers
  generalize advanceEngine (advanceMode (advanceRuns (advanceGroups s))) = t at h4
  have e1 : (advanceInputs t).inputs = (advanceInputs s).inputs := by
    have ht : ∀ e : Fin 64, timedInput t e = timedInput s e := fun e => by
      simp only [timedInput, inputIs, inputUnit, tables_of_kept h4]
    unfold advanceInputs
    dsimp only
    congr 1
    funext e
    rw [ht e, inputs_of_kept h4]
  have e2 : (advanceCable (advanceInputs t)).cable = (advanceCable s).cable := by
    have hm : ∀ c : Fin 96, inMap (advanceInputs t) c = inMap s c := fun c => by
      have e : inMap (advanceInputs t) c = inMap t c := rfl
      rw [e]
      exact congrFun (inMap_congr (tables_of_kept h4) (map_of_kept h4)) c
    have hc : (advanceInputs t).cable = s.cable := Eq.trans (show (advanceInputs t).cable = t.cable from rfl) (cable_of_kept (a := t) (b := s) h4)
    unfold advanceCable
    dsimp only
    rw [hc]
    congr 2
    funext c
    rw [hm c]
  have e3 : kept { advanceCable (advanceInputs t) with inPulse := true } =
      { kept t with inputs := (advanceInputs t).inputs, cable := (advanceCable (advanceInputs t)).cable, inPulse := true } := rfl
  rw [e3, e1, e2, h4]

/-- The pulse changes the inputs' active times and stuck marks, lamp proving and cable supervision of the kept part, and nothing else of it. -/
theorem kept_pulse : ∃ (i : Vector InputRec 64) (p : Proving) (c : Cable) (m : Moment),
    kept (pulse s) = { kept s with inputs := i, prov := p, cable := c, inPulse := false, moment := m } ∧
    (∀ e : Fin 64, i[e].active = s.inputs[e].active ∧ i[e].activeTime =
      if timedInput s e = true ∧ s.inputs[e].active = true then bump 36000 s.inputs[e].activeTime else s.inputs[e].activeTime) ∧
    ∀ d : Fin 96, c.circuits[d].sinceTest =
      if inMap s d = true then bump 65535 s.cable.circuits[d].sinceTest else s.cable.circuits[d].sinceTest := by
  unfold pulse
  dsimp only
  have h0 := kept_advanceTimers s
  generalize advanceTimers s = t at h0
  obtain ⟨p, c, h1, h2⟩ := kept_cablePulse t
  generalize cablePulse t = t1 at h1
  obtain ⟨i, h3, h4⟩ := kept_stuckPulse t1
  generalize stuckPulse t1 = t2 at h3
  have h5 : kept (settle (enginePulse (monitorPulse (modePulse t2)) (stageRan s))) = kept t2 := by
    rw [kept_settle, kept_of_held (held_enginePulse _ _), kept_monitorPulse, kept_modePulse]
  generalize settle (enginePulse (monitorPulse (modePulse t2)) (stageRan s)) = t3 at h5
  refine ⟨i, p, c, pulseMoment t3, ?_, fun e => ?_, fun d => ?_⟩
  · have : kept { t3 with inPulse := false, moment := pulseMoment t3 } =
      { kept t3 with inPulse := false, moment := pulseMoment t3 } := rfl
    rw [this, h5, h3, h1, h0]
  · rw [(h4 e).1, (h4 e).2, inputs_eq_of_kept h1]
    have : (kept t).inputs = (advanceInputs s).inputs := by rw [h0]
    simp only [this, advanceInputs, getElem_tab]
    split <;> simp_all
  · rw [h2 d, cable_eq_of_kept h0]
    simp only [advanceCable, getElem_tab, advanceRetry]
    split
    · split <;> rfl
    · rfl

end Sys2Proof.Machine
end

