-- ==== Sys2Proof/Laws/Mains.lean ====
section
/-! SUPPORT. Laws.Mains: what a window start, an edge and a gap do to the mains supervisor and the window sequence (R94 to R97, R108). -/

namespace Sys2Proof.Machine

open Sys2Proof

variable (s : State)

/-- The mains supervisor but for what a window start writes in it: the last window start, the window count, the count after a gap and the
interruption's mark. -/
def mainsCore (m : Mains) : Mains := { m with lastWindow := none, windowCount := 0, sinceGap := none, interRaised := false }

/-- The tables, the mains supervisor and the window sequence. -/
def pace (s : State) : Tables × Mains × Nat := (s.tables, s.mains, s.bus.seq)

variable {s} in
theorem pace_of_steady {t : State} (h : steady t = steady s) : pace t = pace s := by
  have h1 := congrArg Steady.tables h
  have h2 := congrArg Steady.mains h
  have h3 := congrArg Steady.seq h
  simp only [steady] at h1 h2 h3
  simp [pace, h1, h2, h3]

variable {s} in
theorem pace_of_kept {t : State} (h : kept t = kept s) : pace t = pace s := pace_of_steady (steady_of_kept h)

theorem pace_moment (m : Moment) : pace { s with moment := m } = pace s := rfl

theorem pace_windowClock : pace (windowClock s) = pace s := by
  obtain ⟨c, r, m, x, h⟩ := kept_windowClock s
  exact pace_of_kept (s := { s with clock := c, sched := r, jm := { s.jm with schedMode := m }, moment := x }) h

theorem pace_greenGroup (g : Fin 32) : pace (greenGroup s g) = pace s := by
  have r : ∀ t : State, pace (takeGreenRaise t g) = pace t := by
    intro t; unfold takeGreenRaise; split
    · rw [pace_of_kept (kept_raise _ _ _ _)]; rfl
    · rfl
  have c : ∀ t : State, pace (takeGreenClear t g) = pace t := by
    intro t; unfold takeGreenClear; split
    · rw [pace_of_kept (kept_clear _ _ _)]; rfl
    · rfl
  unfold greenGroup; split
  · rw [c, r]; rfl
  · rfl

theorem pace_pulse : pace (pulse s) = pace s := by
  obtain ⟨i, p, c, m, h, _, _⟩ := kept_pulse s
  exact pace_of_kept (s := { s with inputs := i, prov := p, cable := c, inPulse := false, moment := m }) h

/-- What a window start writes (R95 to R97, R108). -/
theorem windowStart_pace (t : Nat) (gapBegin counted : Bool) :
    (windowStart s t gapBegin counted).tables = s.tables ∧
    (windowStart s t gapBegin counted).bus.seq = nextWin s.bus.seq ∧
    (windowStart s t gapBegin counted).mains.lastWindow = some t ∧
    (windowStart s t gapBegin counted).mains.windowCount =
      (if pulseEvery s ≤ s.mains.windowCount + 1 then 0 else s.mains.windowCount + 1) ∧
    mainsCore (windowStart s t gapBegin counted).mains = mainsCore s.mains ∧
    (s.mains.sinceGap = none → (windowStart s t gapBegin counted).mains.sinceGap = none) := by
  unfold windowStart
  dsimp only
  have hc := pace_of_steady (steady_closeRound s)
  generalize closeRound s = c at hc
  simp only [pace, Prod.mk.injEq] at hc
  obtain ⟨c1, c2, c3⟩ := hc
  generalize hs2 : (setBus (setMains c fun m => { m with lastWindow := some t }) fun b =>
    { b with seq := nextWin b.seq, lastInGap := b.windowInGap || gapBegin, windowInGap := (setMains c fun m => { m with lastWindow := some t }).mains.gap }) = s2
  have h2 : pace s2 = (s.tables, { s.mains with lastWindow := some t }, nextWin s.bus.seq) := by
    subst hs2; simp only [pace, setBus, setMains, c1, c2, c3]
  have h3 := (pace_windowClock s2).trans h2
  generalize windowClock s2 = s3 at h3
  have h4 : ∃ (sg : Option Nat) (ir : Bool), pace (if counted then countAfterGap s3 else s3) =
      (s.tables, { s.mains with lastWindow := some t, sinceGap := sg, interRaised := ir }, nextWin s.bus.seq) ∧
      (s.mains.sinceGap = none → sg = none) := by
    simp only [pace, Prod.mk.injEq] at h3
    obtain ⟨a, b, d⟩ := h3
    split
    · unfold countAfterGap takeInterruptionClear
      split
      · refine ⟨none, false, ?_, fun _ => rfl⟩
        rw [pace_of_kept (kept_clear _ _ _)]
        simp only [pace, setMains, a, b, d]
      · refine ⟨s.mains.sinceGap.map (bump 50), s.mains.interRaised, ?_, fun h => by rw [h]; rfl⟩
        simp only [pace, setMains, a, b, d]
    · exact ⟨s.mains.sinceGap, s.mains.interRaised, by simp only [pace, Prod.mk.injEq]; exact ⟨a, b, d⟩, id⟩
  obtain ⟨sg, ir, h4, hsg⟩ := h4
  generalize (if counted then countAfterGap s3 else s3) = s4 at h4
  have h5 := (foldl_inv pace greenGroup (fun s g => pace_greenGroup s g) (idx 32) s4).trans h4
  generalize (idx 32).foldl greenGroup s4 = s5 at h5
  have h6 : pace (countWindow s5) = (s.tables, { s.mains with
      lastWindow := some t, sinceGap := sg, interRaised := ir
      windowCount := if pulseEvery s ≤ s.mains.windowCount + 1 then 0 else s.mains.windowCount + 1 }, nextWin s.bus.seq) := by
    simp only [pace, Prod.mk.injEq] at h5
    obtain ⟨a, b, d⟩ := h5
    have hp : pulseEvery s5 = pulseEvery s := by unfold pulseEvery sixty; rw [a]
    unfold countWindow
    rw [hp, b]
    split
    · rw [pace_moment, pace_pulse]; simp only [pace, setMains, a, b, d]
    · simp only [pace, setMains, a, b, d]
  have h7 := (pace_of_steady (steady_beginRound (countWindow s5))).trans h6
  generalize beginRound (countWindow s5) = w at h7
  simp only [pace, Prod.mk.injEq] at h7
  obtain ⟨a, b, d⟩ := h7
  rw [a, b, d]
  exact ⟨rfl, rfl, rfl, rfl, rfl, hsg⟩

end Sys2Proof.Machine
end

