-- ==== Sys2Proof/Laws/PerInstr.lean ====
section
/-! SUPPORT. PerInstr: the family Kinds, one lemma per command: what kind of R181 a command carries as a request. -/

namespace Sys2Proof.Laws.Kinds

open Sys2Proof Sys2Proof.Machine

/-- A command that is a request carries a kind of the request catalogue, H'01 to H'20 (R181), unless it is one of the two commands that stand for
a request of any kind: one with a bad payload and one that finds another in service (R169, R170). -/
def Statement (i : Instr) : Prop :=
  ∀ kind tag : Byte, requestOf i = some (kind, tag) →
    i = .malformedRequest kind tag ∨ i = .busyRequest kind tag ∨ (1 ≤ kind.toNat ∧ kind.toNat ≤ 32)

theorem of_kind {i : Instr} {k0 t0 : Byte} (e : requestOf i = some (k0, t0)) (lo : 1 ≤ k0.toNat) (hi : k0.toNat ≤ 32) :
    Statement i := by
  intro k t h
  obtain ⟨rfl, rfl⟩ : k0 = k ∧ t0 = t := by simpa [e] using h
  exact .inr (.inr ⟨lo, hi⟩)

theorem of_none {i : Instr} (e : requestOf i = none) : Statement i := fun _ _ h => nomatch e.symm.trans h

theorem powerOnReset : Statement .powerOnReset := of_none rfl

theorem configOpen (tag : Byte) : Statement (.configOpen tag) :=
  of_kind (k0 := 0x01) rfl (by decide) (by decide)

theorem tableWriteFiu (tag : Byte) (args : TableArgs) (es : List FiuEntry) : Statement (.tableWriteFiu tag args es) :=
  of_kind (k0 := 0x02) rfl (by decide) (by decide)

theorem tableWriteGroup (tag : Byte) (args : TableArgs) (es : List GroupEntry) : Statement (.tableWriteGroup tag args es) :=
  of_kind (k0 := 0x02) rfl (by decide) (by decide)

theorem tableWriteCircuit (tag : Byte) (args : TableArgs) (es : List CircuitEntry) : Statement (.tableWriteCircuit tag args es) :=
  of_kind (k0 := 0x02) rfl (by decide) (by decide)

theorem tableWriteConflictMatrix (tag : Byte) (args : TableArgs) (es : List Nat) : Statement (.tableWriteConflictMatrix tag args es) :=
  of_kind (k0 := 0x02) rfl (by decide) (by decide)

theorem tableWriteStage (tag : Byte) (args : TableArgs) (es : List GroupSet) : Statement (.tableWriteStage tag args es) :=
  of_kind (k0 := 0x02) rfl (by decide) (by decide)

theorem tableWriteInputMap (tag : Byte) (args : TableArgs) (es : List InputEntry) : Statement (.tableWriteInputMap tag args es) :=
  of_kind (k0 := 0x02) rfl (by decide) (by decide)

theorem tableWritePattern (tag : Byte) (args : TableArgs) (es : List PatternEntry) : Statement (.tableWritePattern tag args es) :=
  of_kind (k0 := 0x02) rfl (by decide) (by decide)

theorem tableWriteStartUpRecord (tag : Byte) (args : TableArgs) (es : List StartUp) : Statement (.tableWriteStartUpRecord tag args es) :=
  of_kind (k0 := 0x02) rfl (by decide) (by decide)

theorem tableWritePlan (tag : Byte) (plan : Nat) (args : TableArgs) (es : List (List Byte)) : Statement (.tableWritePlan tag plan args es) :=
  of_kind (k0 := 0x02) rfl (by decide) (by decide)

theorem tableWriteSchedule (tag : Byte) (args : TableArgs) (es : List SchedRaw) : Statement (.tableWriteSchedule tag args es) :=
  of_kind (k0 := 0x02) rfl (by decide) (by decide)

theorem tableWriteReaction (tag : Byte) (args : TableArgs) (es : List Nat) : Statement (.tableWriteReaction tag args es) :=
  of_kind (k0 := 0x02) rfl (by decide) (by decide)

theorem tableWriteProvingParameters (tag : Byte) (args : TableArgs) (es : List ProvingParams) : Statement (.tableWriteProvingParameters tag args es) :=
  of_kind (k0 := 0x02) rfl (by decide) (by decide)

theorem tableWriteCableParameters (tag : Byte) (args : TableArgs) (es : List CableParams) : Statement (.tableWriteCableParameters tag args es) :=
  of_kind (k0 := 0x02) rfl (by decide) (by decide)

theorem tableWriteReference (tag : Byte) (args : TableArgs) (es : List RefEntry) : Statement (.tableWriteReference tag args es) :=
  of_kind (k0 := 0x02) rfl (by decide) (by decide)

theorem tableWriteLive (tag : Byte) (id : Nat) (args : TableArgs) (entries : Nat) : Statement (.tableWriteLive tag id args entries) :=
  of_kind (k0 := 0x02) rfl (by decide) (by decide)

theorem tableRead (tag : Byte) (id : Nat) (args : TableArgs) : Statement (.tableRead tag id args) :=
  of_kind (k0 := 0x03) rfl (by decide) (by decide)

theorem validatePlan (tag : Byte) (plan : Nat) : Statement (.validatePlan tag plan) :=
  of_kind (k0 := 0x04) rfl (by decide) (by decide)

theorem start (tag : Byte) : Statement (.start tag) :=
  of_kind (k0 := 0x05) rfl (by decide) (by decide)

theorem programIdentity (tag : Byte) (bytes : List Byte) : Statement (.programIdentity tag bytes) :=
  of_kind (k0 := 0x06) rfl (by decide) (by decide)

theorem readIdentity (tag : Byte) : Statement (.readIdentity tag) :=
  of_kind (k0 := 0x07) rfl (by decide) (by decide)

theorem selectPlan (tag : Byte) (plan : Nat) : Statement (.selectPlan tag plan) :=
  of_kind (k0 := 0x08) rfl (by decide) (by decide)

theorem releasePlan (tag : Byte) : Statement (.releasePlan tag) :=
  of_kind (k0 := 0x09) rfl (by decide) (by decide)

theorem hold (tag : Byte) (mode : Nat) : Statement (.hold tag mode) :=
  of_kind (k0 := 0x0A) rfl (by decide) (by decide)

theorem releaseHold (tag : Byte) : Statement (.releaseHold tag) :=
  of_kind (k0 := 0x0B) rfl (by decide) (by decide)

theorem step (tag : Byte) (target : StepTarget) : Statement (.step tag target) :=
  of_kind (k0 := 0x0C) rfl (by decide) (by decide)

theorem demand (tag : Byte) (stages : List Nat) : Statement (.demand tag stages) :=
  of_kind (k0 := 0x0D) rfl (by decide) (by decide)

theorem setDim (tag : Byte) (state : Nat) : Statement (.setDim tag state) :=
  of_kind (k0 := 0x0E) rfl (by decide) (by decide)

theorem releaseDim (tag : Byte) : Statement (.releaseDim tag) :=
  of_kind (k0 := 0x0F) rfl (by decide) (by decide)

theorem flash (tag : Byte) (option : Nat) : Statement (.flash tag option) :=
  of_kind (k0 := 0x10) rfl (by decide) (by decide)

theorem dark (tag : Byte) (option : Nat) : Statement (.dark tag option) :=
  of_kind (k0 := 0x11) rfl (by decide) (by decide)

theorem resume (tag : Byte) : Statement (.resume tag) :=
  of_kind (k0 := 0x12) rfl (by decide) (by decide)

theorem directEnter (tag : Byte) : Statement (.directEnter tag) :=
  of_kind (k0 := 0x13) rfl (by decide) (by decide)

theorem directTarget (tag : Byte) (entries : List (Nat × Nat)) : Statement (.directTarget tag entries) :=
  of_kind (k0 := 0x14) rfl (by decide) (by decide)

theorem directExit (tag : Byte) : Statement (.directExit tag) :=
  of_kind (k0 := 0x15) rfl (by decide) (by decide)

theorem syncPatterns (tag : Byte) : Statement (.syncPatterns tag) :=
  of_kind (k0 := 0x16) rfl (by decide) (by decide)

theorem learn (tag : Byte) (circuits : CircuitList) (tap nMin nMax : Nat) : Statement (.learn tag circuits tap nMin nMax) :=
  of_kind (k0 := 0x17) rfl (by decide) (by decide)

theorem learnCancel (tag : Byte) (circuits : CircuitList) : Statement (.learnCancel tag circuits) :=
  of_kind (k0 := 0x18) rfl (by decide) (by decide)

theorem ackFault (tag : Byte) (arg : AckArg) : Statement (.ackFault tag arg) :=
  of_kind (k0 := 0x19) rfl (by decide) (by decide)

theorem clearLatch (tag : Byte) (circuit : Nat) : Statement (.clearLatch tag circuit) :=
  of_kind (k0 := 0x1A) rfl (by decide) (by decide)

theorem readStatus (tag : Byte) : Statement (.readStatus tag) :=
  of_kind (k0 := 0x1B) rfl (by decide) (by decide)

theorem forwardSet (tag : Byte) (units : List Nat) : Statement (.forwardSet tag units) :=
  of_kind (k0 := 0x1C) rfl (by decide) (by decide)

theorem pass (tag : Byte) (unit : Nat) (kind : Byte) (payload : List Byte) : Statement (.pass tag unit kind payload) :=
  of_kind (k0 := 0x1D) rfl (by decide) (by decide)

theorem setTime (tag : Byte) (weekday ms : Nat) : Statement (.setTime tag weekday ms) :=
  of_kind (k0 := 0x1E) rfl (by decide) (by decide)

theorem trim (tag : Byte) (t : Int) (source : Nat) : Statement (.trim tag t source) :=
  of_kind (k0 := 0x1F) rfl (by decide) (by decide)

theorem engineRestart (tag : Byte) : Statement (.engineRestart tag) :=
  of_kind (k0 := 0x20) rfl (by decide) (by decide)

theorem malformedRequest (kind tag : Byte) : Statement (.malformedRequest kind tag) := by
  intro k t h
  obtain ⟨rfl, rfl⟩ : kind = k ∧ tag = t := by
    have h' : some (kind, tag) = some (k, t) := h
    simpa using h'
  exact .inl rfl

theorem busyRequest (kind tag : Byte) : Statement (.busyRequest kind tag) := by
  intro k t h
  obtain ⟨rfl, rfl⟩ : kind = k ∧ tag = t := by
    have h' : some (kind, tag) = some (k, t) := h
    simpa using h'
  exact .inr (.inl rfl)

theorem corruptFrame (why : Corruption) : Statement (.corruptFrame why) := of_none rfl

theorem framePauseTimeout : Statement .framePauseTimeout := of_none rfl

theorem frameSent : Statement .frameSent := of_none rfl

theorem mainsEdge (period : Nat) : Statement (.mainsEdge period) := of_none rfl

theorem mainsFrequencyRaise : Statement .mainsFrequencyRaise := of_none rfl

theorem mainsFrequencyClear : Statement .mainsFrequencyClear := of_none rfl

theorem mainsGapBegin : Statement .mainsGapBegin := of_none rfl

theorem mainsInterruptionRaise : Statement .mainsInterruptionRaise := of_none rfl

theorem mainsInterruptionClear : Statement .mainsInterruptionClear := of_none rfl

theorem substituteWindowStart : Statement .substituteWindowStart := of_none rfl

theorem senseReceived (f : SenseFrame) : Statement (.senseReceived f) := of_none rfl

theorem senseMiss (u : Fin 12) : Statement (.senseMiss u) := of_none rfl

theorem fiuLost (u : Fin 12) : Statement (.fiuLost u) := of_none rfl

theorem rollCallRound : Statement .rollCallRound := of_none rfl

theorem identReceived (f : IdentFrame) : Statement (.identReceived f) := of_none rfl

theorem identTimeout (u : Fin 12) : Statement (.identTimeout u) := of_none rfl

theorem passReplyReceived (f : PassFrame) : Statement (.passReplyReceived f) := of_none rfl

theorem unexpectedGreenRaise (g : Fin 32) : Statement (.unexpectedGreenRaise g) := of_none rfl

theorem unexpectedGreenClear (g : Fin 32) : Statement (.unexpectedGreenClear g) := of_none rfl

theorem decisecondPulse : Statement .decisecondPulse := of_none rfl

theorem clearanceStart (g : Fin 32) : Statement (.clearanceStart g) := of_none rfl

theorem amberEnd (g : Fin 32) : Statement (.amberEnd g) := of_none rfl

theorem clearanceEnd (g : Fin 32) : Statement (.clearanceEnd g) := of_none rfl

theorem redAmberEnd (g : Fin 32) : Statement (.redAmberEnd g) := of_none rfl

theorem patternStep (run : RunName) : Statement (.patternStep run) := of_none rfl

theorem startFlashEnd : Statement .startFlashEnd := of_none rfl

theorem startRedEnd : Statement .startRedEnd := of_none rfl

theorem startProvingTimeout : Statement .startProvingTimeout := of_none rfl

theorem controllerSilent : Statement .controllerSilent := of_none rfl

theorem minimumGreenEnd : Statement .minimumGreenEnd := of_none rfl

theorem gapOut : Statement .gapOut := of_none rfl

theorem maxOut : Statement .maxOut := of_none rfl

theorem forceOff : Statement .forceOff := of_none rfl

theorem minuteBoundary : Statement .minuteBoundary := of_none rfl

theorem midnightRollover : Statement .midnightRollover := of_none rfl

theorem inputChange (e : Fin 64) : Statement (.inputChange e) := of_none rfl

theorem detectorStuck (e : Fin 64) : Statement (.detectorStuck e) := of_none rfl

theorem verdictConfirm (c : Fin 96) : Statement (.verdictConfirm c) := of_none rfl

theorem learnConverge (c : Fin 96) : Statement (.learnConverge c) := of_none rfl

theorem learnUnstable (c : Fin 96) : Statement (.learnUnstable c) := of_none rfl

theorem cableFaultConfirm (c : Fin 96) : Statement (.cableFaultConfirm c) := of_none rfl

theorem crossFeedRaise (c : Fin 96) : Statement (.crossFeedRaise c) := of_none rfl

theorem crossFeedClear (c : Fin 96) : Statement (.crossFeedClear c) := of_none rfl

theorem retryRelease (c : Fin 96) : Statement (.retryRelease c) := of_none rfl

theorem tripCountClear (c : Fin 96) : Statement (.tripCountClear c) := of_none rfl

theorem earthLeakageRaise (u : Fin 12) : Statement (.earthLeakageRaise u) := of_none rfl

theorem earthLeakageClear (u : Fin 12) : Statement (.earthLeakageClear u) := of_none rfl

theorem fiuOvertempRaise (u : Fin 12) : Statement (.fiuOvertempRaise u) := of_none rfl

theorem fiuOvertempClear (u : Fin 12) : Statement (.fiuOvertempClear u) := of_none rfl

theorem frameBegins (b : Byte) : Statement (.frameBegins b) := of_none rfl

theorem crystalMillisecond : Statement .crystalMillisecond := of_none rfl

end Sys2Proof.Laws.Kinds
end

