-- ==== Sys2Proof/Laws/Steps.lean ====
section
/-! SUPPORT. Steps: what ending a step, searching for the next and beginning an interstage do, and what an interstage takes up (R53, R56 to R60,
R63, R64, R67, R71). -/

namespace Sys2Proof.Machine

open Sys2Proof

/-- What beginning an interstage does (R56). -/
theorem beginInterstage_spec (s : State) (p : Fin 8) (b : Fin 16) : BegunFrom s (beginInterstage s p b) p b ∧
   (beginInterstage s p b).eng.lastReading = s.eng.lastReading := by
  unfold beginInterstage
  dsimp only
  generalize hs1 : (setEng s fun e => { e with sub := .interstage, cur := b, gaining := 0, losing := 0, gained := false, stageOn := false }) = s1
  obtain ⟨a, c, d⟩ := changeGroups_spec s.eng.served (stageGroups s (stepOf s p b).stage) (idx 32) (List.nodup_finRange 32) s1
  generalize (idx 32).foldl (changeGroup s.eng.served (stageGroups s (stepOf s p b).stage)) s1 = w at a c d ⊢
  have c1 := congrArg Engine.sub c
  have c2 := congrArg Engine.cur c
  have c3 := congrArg Engine.stageOn c
  have c4 := congrArg Engine.lastReading c
  simp only [engCore] at c1 c2 c3 c4
  refine ⟨⟨?_, ?_, ?_, ?_⟩, ?_⟩
  · rw [c1, ← hs1]; rfl
  · rw [c2, ← hs1]; rfl
  · rw [c3, ← hs1]; rfl
  · intro g hl
    have := (d g).2 (List.mem_finRange g) (by rw [← hs1]; exact hl)
    have hc : (stageGroups s (stepOf s p b).stage).contains g = mem (greenSet s (stepOf s p b).stage) g.val := by
      rw [Bool.eq_iff_iff, List.contains_iff_mem]
      simp [stageGroups, hl]
    rw [hc] at this
    have e1 : s1.groups = s.groups := by rw [← hs1]; rfl
    have e2 : s1.eng.served = s.eng.served := by rw [← hs1]; rfl
    simp only [e1, e2] at this
    simpa using this
  · rw [c4, ← hs1]; rfl

/-- What is wanted is read from the tables, the groups, the latched demands and the inputs (R53). -/
theorem wanted_congr (s t : State) (h1 : t.tables = s.tables) (h2 : t.groups = s.groups) (h3 : t.latched = s.latched) (h4 : t.inputs = s.inputs) :
   wanted t = wanted s := by
  obtain ⟨⟩ := s; obtain ⟨⟩ := t
  simp only at h1 h2 h3 h4
  subst h1 h2 h3 h4
  rfl

/-- A search looks at every step of the plan (R53). -/
theorem mem_rotation (s : State) (p : Fin 8) (cur k : Fin 16) : k ∈ Machine.rotation s p cur ↔ k.val < nSteps s p := by
  simp only [Machine.rotation, List.mem_append, List.mem_filter, List.mem_finRange, true_and, Bool.and_eq_true, decide_eq_true_eq]
  constructor
  · rintro (h | h) <;> exact h.2
  · intro h; rcases lt_or_ge cur k with h' | h'
    · exact .inl ⟨h', h⟩
    · exact .inr ⟨h', h⟩

/-- A search looks at the steps in search order (R53). -/
theorem rotation_sorted (s : State) (p : Fin 8) (cur : Fin 16) (hc : cur.val < nSteps s p) :
    (Machine.rotation s p cur).Pairwise (fun a b => searchPlace (nSteps s p) cur a < searchPlace (nSteps s p) cur b) := by
  have place : ∀ k : Fin 16, k.val < nSteps s p → searchPlace (nSteps s p) cur k = if cur < k then k.val - 1 - cur.val else k.val + nSteps s p - 1 - cur.val := by
    intro k hk
    unfold searchPlace
    split
    · rename_i hlt
      rw [Fin.lt_def] at hlt
      rw [show k.val + nSteps s p - 1 - cur.val = (k.val - 1 - cur.val) + nSteps s p by omega, Nat.add_mod_right, Nat.mod_eq_of_lt (by omega)]
    · rename_i hlt
      rw [Fin.lt_def] at hlt
      rw [Nat.mod_eq_of_lt (by omega)]
  have hb : ∀ k ∈ Machine.rotation s p cur, k.val < nSteps s p := fun k hk => (mem_rotation s p cur k).1 hk
  unfold Machine.rotation at hb ⊢
  rw [List.pairwise_append]
  have base := List.pairwise_lt_finRange 16
  refine ⟨?_, ?_, ?_⟩
  · apply List.Pairwise.imp_of_mem _ (List.Pairwise.filter _ base)
    intro a b ha hb' hab
    rw [place a (hb a (List.mem_append_left _ ha)), place b (hb b (List.mem_append_left _ hb'))]
    simp only [List.mem_filter, Bool.and_eq_true, decide_eq_true_eq] at ha hb'
    rw [if_pos ha.2.1, if_pos hb'.2.1]
    have := ha.2.1; have := hb'.2.1; rw [Fin.lt_def] at *; omega
  · apply List.Pairwise.imp_of_mem _ (List.Pairwise.filter _ base)
    intro a b ha hb' hab
    rw [place a (hb a (List.mem_append_right _ ha)), place b (hb b (List.mem_append_right _ hb'))]
    simp only [List.mem_filter, Bool.and_eq_true, decide_eq_true_eq] at ha hb'
    rw [if_neg (not_lt.2 ha.2.1), if_neg (not_lt.2 hb'.2.1)]
    rw [Fin.lt_def] at *; omega
  · intro a ha b hb'
    rw [place a (hb a (List.mem_append_left _ ha)), place b (hb b (List.mem_append_right _ hb'))]
    simp only [List.mem_filter, Bool.and_eq_true, decide_eq_true_eq] at ha hb'
    rw [if_pos ha.2.1, if_neg (not_lt.2 hb'.2.1)]
    have := ha.2; have := hb'.2; simp only [Fin.lt_def, Fin.le_def] at *; omega

/-- What a search gives (R53). -/
theorem searched (s : State) (p : Fin 8) (cur : Fin 16) (hc : cur.val < nSteps s p) (f : Fin 16 → Bool) :
    Searched (nSteps s p) cur f (searchIn (Machine.rotation s p cur) f).1 (searchIn (Machine.rotation s p cur) f).2 := by
  have hsort := rotation_sorted s p cur hc
  unfold searchIn
  rcases hf : (Machine.rotation s p cur).findIdx? f with _ | i
  · rw [List.findIdx?_eq_none_iff] at hf
    refine ⟨fun k h => (by cases h), fun _ j hj => by simpa using hf j ((mem_rotation s p cur j).2 hj), ?_⟩
    simp only [List.contains_iff_mem, mem_rotation]
    constructor
    · intro _ k h; cases h
    · intro _; have : (0 : Fin 16).val = 0 := rfl; omega
  · rw [List.findIdx?_eq_some_iff_getElem] at hf
    obtain ⟨hi, hwi, hlt⟩ := hf
    have hg : (Machine.rotation s p cur)[i]? = some (Machine.rotation s p cur)[i] := List.getElem?_eq_getElem hi
    refine ⟨?_, ?_, ?_⟩
    · intro k hk
      simp only [hg, Option.some.injEq] at hk
      subst hk
      refine ⟨(mem_rotation s p cur _).1 (List.getElem_mem _), hwi, ?_⟩
      intro j hj hw
      obtain ⟨m, hm, rfl⟩ := List.mem_iff_getElem.1 ((mem_rotation s p cur j).2 hj)
      rcases lt_trichotomy i m with h | h | h
      · exact le_of_lt (List.pairwise_iff_getElem.1 hsort i m hi hm h)
      · subst h; exact le_refl _
      · have := hlt m h; rw [hw] at this; simp at this
    · intro h; simp only [hg] at h; cases h
    · simp only [hg, Option.some.injEq, forall_eq', List.contains_iff_mem]
      have h0 : (0 : Fin 16) ∈ Machine.rotation s p cur := (mem_rotation s p cur 0).2 (by have : (0 : Fin 16).val = 0 := rfl; omega)
      obtain ⟨m, hm, e⟩ := List.mem_iff_getElem.1 h0
      rw [List.mem_take_iff_getElem]
      constructor
      · rintro ⟨j, hj, ej⟩
        rw [← ej]
        rcases Nat.lt_or_ge j i with h | h
        · exact le_of_lt (List.pairwise_iff_getElem.1 hsort j i (by omega) hi h)
        · have : j = i := by omega
          subst this; exact le_refl _
      · intro h
        refine ⟨m, ?_, e⟩
        rcases lt_trichotomy i m with h' | h' | h'
        · have := List.pairwise_iff_getElem.1 hsort i m hi hm h'
          rw [e] at this; omega
        · omega
        · omega

/-- With another step wanted, the search gives the next wanted step in search order (R53). -/
theorem searchNext_spec (s : State) (p : Fin 8) (cur : Fin 16) (hc : cur.val < nSteps s p)
    (h : ∃ k : Fin 16, k.val < nSteps s p ∧ k ≠ cur ∧ wanted s p k = true) :
    ∃ b r, searchNext s p cur = (some b, r) ∧ b.val < nSteps s p ∧ b ≠ cur ∧ wanted s p b = true ∧
      ∀ k : Fin 16, k.val < nSteps s p → wanted s p k = true →
        searchPlace (nSteps s p) cur b ≤ searchPlace (nSteps s p) cur k := by
  have hs := searched s p cur hc (wanted s p)
  unfold searchNext
  obtain ⟨k0, hk0, hne, hw0⟩ := h
  rcases hx : searchIn (Machine.rotation s p cur) (wanted s p) with ⟨_ | b, r⟩
  · rw [hx] at hs
    have := hs.nothing rfl k0 hk0
    rw [hw0] at this; cases this
  · rw [hx] at hs
    obtain ⟨h1, h2, h3⟩ := hs.first b rfl
    refine ⟨b, r, rfl, h1, ?_, h2, h3⟩
    intro he
    have hlt := h3 k0 hk0 hw0
    unfold searchPlace at hlt
    rw [he, show cur.val + nSteps s p - 1 - cur.val = nSteps s p - 1 by omega, Nat.mod_eq_of_lt (by omega)] at hlt
    have hk : k0.val ≠ cur.val := fun h => hne (Fin.ext h)
    rcases Nat.lt_or_ge cur.val k0.val with h | h
    · rw [show k0.val + nSteps s p - 1 - cur.val = (k0.val - 1 - cur.val) + nSteps s p by omega, Nat.add_mod_right,
        Nat.mod_eq_of_lt (by omega)] at hlt
      omega
    · rw [Nat.mod_eq_of_lt (by omega)] at hlt
      omega

/-- Reading the counter changes the passed set and the reading alone (R64). -/
theorem readCounter_frame (s : State) : (readCounter s).tables = s.tables ∧ (readCounter s).groups = s.groups ∧ (readCounter s).latched = s.latched ∧ (readCounter s).inputs = s.inputs
  ∧ (readCounter s).eng.running = s.eng.running ∧ (readCounter s).eng.stageOn = s.eng.stageOn ∧ (readCounter s).eng.minElapsed = s.eng.minElapsed ∧ (readCounter s).eng.cur = s.eng.cur
  ∧ (readCounter s).eng.orderly = s.eng.orderly ∧ (readCounter s).eng.stepReq = s.eng.stepReq ∧ (readCounter s).eng.hold = s.eng.hold ∧ (readCounter s).eng.cycleReached = s.eng.cycleReached
  ∧ (readCounter s).eng.pendingPlan = s.eng.pendingPlan ∧ (readCounter s).eng.served = s.eng.served := by
  unfold readCounter
  split
  · split <;> refine ⟨rfl, rfl, rfl, rfl, rfl, rfl, rfl, rfl, rfl, rfl, rfl, rfl, rfl, rfl⟩
  · refine ⟨rfl, rfl, rfl, rfl, rfl, rfl, rfl, rfl, rfl, rfl, rfl, rfl, rfl, rfl⟩

/-- Leaving a step changes neither the step nor the groups (R56). -/
theorem leaveStep_frame (s : State) (p) : (leaveStep s p).tables = s.tables ∧ (leaveStep s p).groups = s.groups ∧ (leaveStep s p).latched = s.latched ∧ (leaveStep s p).inputs = s.inputs ∧
   (leaveStep s p).eng.cur = s.eng.cur ∧ (leaveStep s p).eng.pendingPlan = s.eng.pendingPlan ∧ (leaveStep s p).eng.served = s.eng.served ∧ (leaveStep s p).eng.lastReading = s.eng.lastReading := by
  unfold leaveStep
  split <;> exact ⟨rfl, rfl, rfl, rfl, rfl, rfl, rfl, rfl⟩

/-- The end of a step with another step wanted begins the interstage to it (R56, R63). -/
theorem endStep_spec (s : State) (p : Fin 8) (hc : s.eng.cur.val < nSteps s p) (hp : s.eng.pendingPlan = none) (ha : anotherWanted s p = true) :
   ∃ b, NextWanted s p b ∧ BegunFrom s (endStep s p) p b ∧ (endStep s p).eng.lastReading = s.eng.lastReading := by
  obtain ⟨l1, l2, l3, l4, l5, l6, l7, l8⟩ := leaveStep_frame s p
  unfold endStep
  dsimp only
  generalize leaveStep s p = s1 at *
  have hw : wanted s1 = wanted s := wanted_congr _ _ l1 l2 l3 l4
  have hn : nSteps s1 p = nSteps s p := by simp [nSteps, l1]
  have : ∃ k : Fin 16, k.val < nSteps s1 p ∧ k ≠ s1.eng.cur ∧ wanted s1 p k = true := by
    simp only [anotherWanted, List.any_eq_true, Bool.and_eq_true, decide_eq_true_eq] at ha
    obtain ⟨k, _, ⟨a, b⟩, c⟩ := ha
    exact ⟨k, by rw [hn]; exact a, by rw [l5]; exact b, by rw [hw]; exact c⟩
  obtain ⟨b, r, e, h1, h2, h3, h4⟩ := searchNext_spec s1 p s1.eng.cur (by rw [hn, l5]; exact hc) this
  rw [hn] at h1 h4; rw [l5] at h2 h4; rw [hw] at h3 h4
  refine ⟨b, ⟨h1, h2, h3, h4⟩, ?_⟩
  rw [e]
  have hgo : ∃ x : State, goOn s1 p (some b, r) none = beginInterstage x p b ∧ x.tables = s1.tables ∧ x.groups = s1.groups ∧ x.eng.served = s1.eng.served ∧ x.eng.lastReading = s1.eng.lastReading := by
    unfold goOn
    rw [l6, hp]
    cases r
    · exact ⟨s1, rfl, rfl, rfl, rfl, rfl⟩
    · exact ⟨_, rfl, rfl, rfl, rfl, rfl⟩
  obtain ⟨x, hx, x1, x2, x3, x4⟩ := hgo
  rw [hx]
  obtain ⟨⟨b1, b2, b3, b4⟩, b5⟩ := beginInterstage_spec x p b
  have t : x.tables = s.tables := x1.trans l1
  have hg : greenSet x = greenSet s := greenSet_congr t
  have hst : stepOf x p b = stepOf s p b := by simp [stepOf, t]
  have hl : live x = live s := live_congr t
  refine ⟨⟨b1, b2, b3, fun g hlg => ?_⟩, by rw [b5, x4, l8]⟩
  have := b4 g (by rw [hl]; exact hlg)
  rw [hg, hst] at this
  simp only [x2, x3, l2, l7] at this
  exact this

/-- The minimum is judged from the step and its elapsed time (R60). -/
theorem minRun_congr (s t : State) (p) (h1 : t.tables = s.tables) (h2 : t.eng.cur = s.eng.cur) (h3 : t.eng.minElapsed = s.eng.minElapsed) : minRun t p = minRun s p := by
  unfold minRun stepOf; simp only [h1, h2, h3]

/-- Where the search has not reached step 1, or no plan is pending, the interstage to the step found begins (R63). -/
theorem goOn_eq (s : State) (p : Fin 8) (x : Option (Fin 16) × Bool) (req) (h : x.2 = false ∨ s.eng.pendingPlan = none) :
   goOn s p x req = match x.1 with
     | some b => beginInterstage (if x.2 then setEng s fun e => { e with returned := true } else s) p b
     | none => if x.2 then setEng s fun e => { e with returned := true } else s := by
  obtain ⟨a, b⟩ := x
  unfold goOn
  cases b
  · cases a <;> rfl
  · have : s.eng.pendingPlan = none := by simpa using h
    dsimp only
    rewrite [this]
    cases a <;> rfl

/-- Going on from the search after a step that ends (R63, R64, R67, R71). -/
theorem goOn_ended (s : State) (p : Fin 8) (f : Fin 16 → Bool) (req) (hc : s.eng.cur.val < nSteps s p)
   (x) (hx : x = searchIn (Machine.rotation s p s.eng.cur) f) : EndedBy s p f req (goOn (leaveStep s p) p x req) := by
  have h := searched s p s.eng.cur hc f
  rw [← hx] at h
  refine ⟨x.1, x.2, _, h, rfl, ?_, ?_⟩
  · intro q h1 h2
    have l := leaveStep_frame s p
    unfold goOn
    rw [h1, l.2.2.2.2.2.1, h2]
    dsimp only
    rw [if_pos rfl]
    congr 1
    unfold leaveStep setEng
    cases hI : isHoldStep s p s.eng.cur <;> simp
  · intro hh
    have l := leaveStep_frame s p
    have e : (if x.2 = true then setEng (leaveStep s p) fun e => { e with returned := true } else leaveStep s p) =
      { s with eng := { s.eng with
      passed := if isHoldStep s p s.eng.cur then 0 else s.eng.passed
      dwell := if isHoldStep s p s.eng.cur then false else s.eng.dwell
      returned := s.eng.returned || x.2 } } := by
      unfold leaveStep setEng
      cases x.2 <;> cases hI : isHoldStep s p s.eng.cur <;> simp
    rw [← e]
    rw [← l.2.2.2.2.2.1] at hh
    rewrite [goOn_eq _ p x req hh]
    cases x.1 <;> rfl

/-- Going on from the search of an abandoned step or of a rest with nothing served (R58). -/
theorem sought (s : State) (p : Fin 8) (hc : s.eng.cur.val < nSteps s p) (x) (hx : x = searchNext s p s.eng.cur) (t : State)
  (ht : t = match x.1 with
    | some b => beginInterstage (if x.2 then setEng s fun e => { e with returned := true } else s) p b
    | none => if x.2 then setEng s fun e => { e with returned := true } else s) :
  SoughtFrom s p t := by
  have h := searched s p s.eng.cur hc (wanted s p)
  unfold searchNext at hx
  rw [← hx] at h
  refine ⟨x.1, x.2, _, h, rfl, ?_⟩
  have e : (if x.2 = true then setEng s fun e => { e with returned := true } else s) = { s with eng := { s.eng with returned := s.eng.returned || x.2 } } := by
    unfold setEng; cases x.2 <;> simp <;> rfl
  rewrite [ht, e]
  cases x.1 <;> rfl

/-- The search from step 1 (R55, R67). -/
theorem find_first (n : Nat) (f : Fin 16 → Bool) (r) (h : FirstFrom n f r) :
   (idx 16).find? (fun k => decide (k.val < n) && f k) = r := by
  cases r with
  | none =>
    rw [List.find?_eq_none]; intro x _; simp only [Bool.and_eq_true, decide_eq_true_eq, not_and]
    intro hx; rw [h.nothing rfl x hx]; simp
  | some k =>
    obtain ⟨a, b, c⟩ := h.first k rfl
    rw [List.find?_eq_some_iff_getElem]
    refine ⟨by simp [a, b], k.val, by simp, by simp, ?_⟩
    intro j hj
    simp only [List.getElem_finRange, Bool.not_eq_true', Bool.and_eq_false_iff]
    right; exact c _ (by simpa [Fin.lt_def] using hj)

end Sys2Proof.Machine
end

