-- ==== Sys2Proof/Tests/Slice0.lean ====
section
/-! SUPPORT. Slice0: the model's own tests. Ill-formed commands are refused by WellFormed; one step of a command does what a rule of spec/ says of
a small state; and the hypotheses of every statement are met by a concrete state. Expected values are worked out by hand from the rules cited. -/

open Sys2Proof Sys2Proof.Machine

set_option Elab.async false

namespace Sys2Proof.Tests

/-! ## Fixtures -/

/-- The state a command leaves. -/
def after (c : Instr) (s : State) : State :=
  match exec c s with
  | .next t => t
  | .fault _ | .refused _ => s

/-- Result of the reply being sent, if one is. -/
def result (s : State) : Option Result :=
  match s.port.tx with
  | some (.reply r) => some r.result
  | _ => none

/-- Data of the reply being sent. -/
def data (s : State) : ReplyData :=
  match s.port.tx with
  | some (.reply r) => r.data
  | _ => .none

/-- An identity in slot 1, and the ALERT of reset sent. -/
def fitted : State :=
  setPort State.reset fun p => { p with identity := put p.identity 0 (some [1, 2, 3, 4, 5, 6, 7, 8]), tx := none }

/-- An isolated plan of stages 2 and 1, VALID. -/
def isolatedPlan : Plan :=
  { planPor with
    steps := 2
    state := .valid
    entries := put (put planPor.entries 0 ⟨2, 60, 200, 10, false, false, false, 0⟩) 1
      ⟨1, 60, 200, 10, false, false, false, 0⟩ }

/-- A coordinated plan of stages 1, 2 and 3, VALID, its hold step the first. -/
def coordPlan : Plan :=
  { planPor with
    cycle := 600
    steps := 3
    state := .valid
    entries := put (put (put planPor.entries 0 ⟨1, 100, 300, 30, false, false, true, 200⟩) 1
      ⟨2, 80, 200, 20, true, false, false, 380⟩) 2 ⟨3, 60, 200, 30, false, false, false, 520⟩ }

/-- A plan LOADED with no step. -/
def loadedPlan : Plan := { planPor with state := .loaded }

/-- Tables of a small junction: groups 1 and 2 are vehicles, group 3 is a pedestrian group; 1 conflicts with 2 and 3. -/
def tables : Tables :=
  let t := tablesPor
  { t with
    fiu := put (put t.fiu 0 ⟨1, 7, 0⟩) 1 ⟨1, 7, 1⟩
    group := put (put (put t.group 0 ⟨1, 30, 0, 30, 1, 40, 0, 1⟩) 1 ⟨1, 40, 10, 30, 1, 60, 10, 1⟩) 2
      ⟨2, 30, 0, 60, 1, 60, 10, 1⟩
    circuit := writeAt t.circuit ((List.range 8).zip
      [⟨1, 1, 1, 0, 1, 0, 1, 1, 1, 0⟩, ⟨1, 1, 2, 1, 0, 0, 1, 1, 1, 0⟩, ⟨1, 1, 3, 2, 0, 0, 1, 1, 1, 0⟩,
       ⟨2, 1, 4, 0, 1, 0, 1, 1, 1, 0⟩, ⟨2, 1, 5, 1, 0, 0, 1, 1, 1, 0⟩, ⟨2, 1, 6, 2, 0, 0, 1, 1, 1, 0⟩,
       ⟨3, 2, 1, 0, 1, 2, 1, 1, 1, 0⟩, ⟨3, 2, 2, 2, 0, 0, 1, 1, 1, 0⟩])
    matrix := put (put (put t.matrix 0 (put (put t.matrix[0] 1 (some 50)) 2 (some 30))) 1 (put t.matrix[1] 0 (some 60))) 2
      (put t.matrix[2] 0 (some 60))
    stage := put (put (put t.stage 0 1) 1 6) 2 2
    input := put (put t.input 0 ⟨2, 1, 1, 2, 0, 1, 10⟩) 1 ⟨1, 3, 0, 4, 4, 2, 10⟩
    reference := put t.reference 0 ⟨⟨1, 1000, 200⟩, refPor⟩
    plan := put (put (put t.plan 0 isolatedPlan) 1 coordPlan) 2 loadedPlan }

/-- The small junction started, every group DARK, with no transmission and no ALERT waiting. -/
def started : State :=
  let s : State := { fitted with tables := tables }
  let s := setPort s fun p => { p with configOpen := false }
  { s with map := some (buildMap s), acting := liveSet s, jm := { s.jm with started := true, reason := .controller } }

/-- The small junction in a mode. -/
def inMode (m : Mode) : State := setMode started fun j => { j with mode := m }

/-- A group of a state in an aspect with a target, both timers at `t`. -/
def showing (s : State) (g : Fin 32) (a : Aspect) (x : Target) (t : Nat) : State :=
  setGroup s g fun r => { r with aspect := a, target := x, inAspect := t, sinceGreen := t }

/-- Groups 1 to 3 RED with target STOP, every red status PROVEN. -/
def allRed (s : State) : State :=
  let s := showing (showing (showing s 0 .red .stop 500) 1 .red .stop 500) 2 .red .stop 500
  { s with prov := { s.prov with red := Vector.replicate 32 .proven } }

/-- PLAN running the isolated plan 1 in step 2, stage 1 GREEN, its minimum run. -/
def isolated : State :=
  setEng (showing (allRed (inMode .plan)) 0 .green .go 60) fun e =>
    { e with running := some 0, cur := 1, sub := .extend, stageOn := true, served := 1, minElapsed := 60, maxElapsed := some 200 }

/-- PLAN running the coordinated plan 2 in step 3, stage 3 GREEN, its minimum run. -/
def coord : State :=
  setEng (showing (allRed (inMode .plan)) 1 .green .go 60) fun e =>
    { e with running := some 1, governing := 1, cur := 2, sub := .extend, stageOn := true, served := 2, minElapsed := 60 }

/-- The coordinated plan held in its step by a STAGE hold. -/
def held : State := setEng coord fun e => { e with hold := some .stage, sub := .hold }

/-- A record of RED_LOST, group 1, with reaction INHIBIT. -/
def redLost : FaultRec := ⟨.redLost, 1, .activeUnack, ⟨0, 0⟩, ⟨0, 0⟩, 1, .inhibit, .absent⟩

/-- The same with group 1, all of stage 1, in the inhibit set. -/
def heldShut : State := setColl held fun c => { c with slots := put c.slots 0 (some redLost) }

/-- The isolated plan held in a step with no other wanted. -/
def heldAlone : State :=
  setEng { isolated with tables := { tables with plan := put tables.plan 0 { isolatedPlan with steps := 1 } } } fun e =>
    { e with hold := some .stage, sub := .hold, cur := 0, served := 2 }

/-- The coordinated plan with an effective governing plan that is not the schedule plan. -/
def setSchedPlan (p : Fin 8) : State := { coord with sched := { coord.sched with effPlan := p, planOverride := some p } }

/-- The junction run at the end of step 1, and the clearance run of group 3 at the end of its last step. -/
def runEnds : State :=
  { started with junctionRun := ⟨0, 0, 5, false⟩, clearRuns := put started.clearRuns 2 (some ⟨1, 1, 4, false⟩) }

/-- Circuit 1 latched off. -/
def latched : State :=
  setCable started 0 fun r => { r with retry := .latched, trips := 4, cleanOn := 3, ovcRaised := true }

/-- The same with its record of OVERCURRENT in force with reaction INHIBIT, and a record of another fault. -/
def latchedShut : State :=
  setColl latched fun c =>
    { c with
      slots := put (put c.slots 0 (some ⟨.overcurrent, 1, .activeUnack, ⟨0, 0⟩, ⟨0, 0⟩, 1, .inhibit, .absent⟩)) 1
        (some ⟨.mainsFrequency, 0, .activeUnack, ⟨0, 0⟩, ⟨0, 0⟩, 1, .record, .absent⟩) }

/-- The mains supervisor with its counts, its faults raised or not, and its count after a gap. -/
def mains (out inb : Nat) (raised : Bool) (since : Option Nat) : State :=
  setMains started fun m =>
    { m with outOfBand := out, inBand := inb, freqRaised := raised, interRaised := raised, sinceGap := since, gap := false }

/-- The timebase LOCKED to an edge just taken, with a count of out-of-band periods. -/
def lockedAt (out : Nat) : State :=
  setMains started fun m =>
    { m with outOfBand := out, gap := false, timebase := .locked, lastEdge := 1000000, lastWindow := some 1000000 }

/-- The transmitter free with the ALERT alone READY. -/
def freeWithAlert : State := setPort started fun p => { p with alert := some ⟨p.summary, 1, [1, 2, 3, 4, 5, 6, 7, 8]⟩ }

/-- The step taken from a state with a command waiting. -/
def queued (s : State) (cs : List Instr) : State := { s with pending := cs }

/-- Unit 1 admitted, its SENSE awaited, with one window record. -/
def polled : State :=
  setBus (inMode .flash) fun b =>
    { b with
      units := put b.units 0 { b.units[0] with
        state := .admitted, log := [⟨253, .bright, 0, 0, 0, 0, true⟩], miss := 2 }
      seq := 254, windowInGap := false, lastInGap := false
      round := { roundNone with active := true, awaiting := some 0, finished := false } }

/-- The same with the mains running. -/
def polledLocked : State := setMains polled fun m => { m with gap := false, timebase := .locked }

/-- A SENSE frame of unit 1 for window 253 with nothing lit. -/
def sense : SenseFrame :=
  { unit := 1, crcGood := true, sizeGood := true, window := 253, vsup := 200, tapByte := 0, leakage := 0, inputs := 0,
    overtemp := true, spare := 0, samples := Vector.replicate 8 ⟨0, 0, 0, false, false, false, 0⟩ }

/-- A fault record of UNEXPECTED_GREEN, group 1, in a state. -/
def record (st : FaultState) : FaultRec :=
  ⟨.unexpectedGreen, 1, st, ⟨0, 1⟩, ⟨0, 2⟩, 1, .dark, .absent⟩

/-- The small junction with one fault record in slot 1. -/
def withRecord (st : FaultState) : State :=
  setColl started fun c => { c with slots := put c.slots 0 (some (record st)) }

/-- The small junction with one fault record in slot 1 that demands FLASH. -/
def flashDemanded : State :=
  setColl started fun c => { c with slots := put c.slots 0 (some { record .activeUnack with reaction := .flash }) }

/-- A state with a start flash time of 0. -/
def noFlash (s : State) : State := { s with tables := { s.tables with startUp := { s.tables.startUp with startFlash := 0 } } }

/-- The small junction with every slot held by an ACTIVE record, but slot `i` by a CLEARED one of LAMP_LOW. -/
def fullTable (i : Fin 64) : State :=
  setColl started fun c =>
    { c with slots := tab fun j => some { record .activeAck with
        kind := .lampLow, subject := num j, state := if j = i then .clearedUnack else .activeAck } }

/-- The unit polled with a miss count. -/
def missed (n : Nat) : State :=
  setBus polledLocked fun b => { b with units := put b.units 0 { b.units[0] with miss := n } }

/-- Unit 1 called in a roll call, unit 2 to follow, with a roll-call round due. -/
def calling : State :=
  setBus started fun b =>
    { b with
      sinceRoll := 50
      round := { roundNone with active := true, called := some 0, roll := [1], finished := false } }

/-- A round with its exchanges over, in which a roll call is due, unit 1 admitted. -/
def rollDue : State :=
  setBus polledLocked fun b => { b with sinceRoll := 60, round := { roundNone with active := true, finished := false } }

/-- Mode DARK with CROSS_FEED of circuit 1 held raised and its record in a state. -/
def darkHeld (st : FaultState) : State :=
  setColl (setCable started 0 fun r => { r with crossRaised := true }) fun c =>
    { c with slots := put c.slots 0 (some ⟨.crossFeed, 1, st, ⟨0, 1⟩, ⟨0, 2⟩, 1, .flash, .absent⟩) }

/-- A message sent to unit 1 and its answer listened for. -/
def listening : State := setBus started fun b => { b with slot := .listening ⟨0, 0x40, [], 5⟩ }

/-- Group 1 RED with its GREEN ended `t` ds ago, group 2 pending in RED at its minimum red. -/
def releasing (t : Nat) : State := showing (showing (inMode .plan) 0 .red .stop t) 1 .red .go 10

/-- A mode with its timer. -/
def timed (m : Mode) (t : Nat) : State := setMode (inMode m) fun j => { j with timer := t }

/-- The coordinated plan with its counter about to be read at its current step's force-off, 520. -/
def forcedOffNow : State :=
  { setEng coord fun e => { e with lastReading := 519 } with clock := { coord.clock with ms := 52000 } }

/-- The clock with an accumulator, a trim and a time of day. -/
def clockAt (acc trim : Int) (ms : Nat) : State :=
  { started with clock := { started.clock with acc := acc, trim := trim, ms := ms } }

/-- An input entry with its debounced state and its disagreement count. -/
def reading (e : Fin 64) (active : Bool) (n : Nat) : State :=
  setInput started e fun r => { r with active := active, disagree := n }

/-- Entry 2 ACTIVE for a time. -/
def stuckAt (t : Nat) : State := setInput started 1 fun r => { r with active := true, activeTime := t }

/-- Circuit 1 with a candidate that has run. -/
def confirming (v : Verdict) (n : Nat) : State := setProv started 0 fun r => { r with cand := some v, run := n }

/-- Circuit 1 LEARNING between 8 and 20, its ring at `m` with one entry `d` higher, at a supply of `v`. -/
def learning (m d v n : Nat) : State :=
  setLearn started 0 fun l =>
    { l with
      state := .learning, nMin := 8, nMax := 20, count := n
      ring := (m + d, v) :: List.replicate 7 (m, v) }

/-- A state at a decisecond pulse. -/
def atP (s : State) : State := { s with moment := .pulse }

/-- A state at a window start with no pulse. -/
def atW (s : State) : State := { s with moment := .window false }

/-- A state at the frame of a unit that judged, learned, tested and judged for observed lit circuit 1. -/
def atF (u : Fin 12) (s : State) : State := { s with moment := .frame u ⟨[0], [0], [0], [0]⟩ }

/-- A state at the frame of a unit that did none of these with any circuit. -/
def atOtherF (u : Fin 12) (s : State) : State := { s with moment := .frame u ⟨[], [], [], []⟩ }

/-- The coordinated plan in its hold step, dwelling with steps passed, its minimum run and an orderly stop asked for. -/
def leaving : State :=
  setEng (showing coord 0 .green .go 60) fun e =>
    { e with cur := 0, served := 1, minElapsed := 200, dwell := true, passed := 6, orderly := true }

/-- A configured part with a fresh summary and a count of out-of-band periods. -/
def unfed (n : Nat) : State :=
  let s := setMains fitted fun m => { m with outOfBand := n }
  setPort s fun p => { p with summary := summaryNow s }

/-- No two records of one kind and subject, by inspection of every pair of slots. -/
theorem one_each (s : State) (h : ∀ i j : Fin 64, ∀ a ∈ s.coll.slots[i], ∀ b ∈ s.coll.slots[j],
    a.kind = b.kind → a.subject = b.subject → i = j) : OneRecordEach s :=
  fun i j a b ha hb => h i j a ha b hb

/-! ## WellFormed refuses an ill-formed term of each check -/

/-- The table form of one entry at index 0. -/
def one : TableArgs := ⟨0, 1, 1⟩

theorem test_wf_args : (Instr.tableRead 0 1 ⟨65536, 1, 1⟩).wellFormed = false ∧ (Instr.tableRead 0 1 ⟨0, 256, 1⟩).wellFormed = false ∧
    (Instr.tableRead 0 1 ⟨0, 1, 256⟩).wellFormed = false ∧ (Instr.tableRead 0 256 one).wellFormed = false ∧
    (Instr.tableRead 255 0x35 ⟨65535, 255, 255⟩).wellFormed = true := by decide

theorem test_wf_fiu : (Instr.tableWriteFiu 0 one [⟨256, 0, 0⟩]).wellFormed = false ∧
    (Instr.tableWriteFiu 0 one [⟨0, 256, 0⟩]).wellFormed = false ∧ (Instr.tableWriteFiu 0 one [⟨0, 0, 256⟩]).wellFormed = false := by
  decide

theorem test_wf_group : (Instr.tableWriteGroup 0 one [{ groupPor with type := 256 }]).wellFormed = false ∧
    (Instr.tableWriteGroup 0 one [{ groupPor with amber := 65536 }]).wellFormed = false ∧
    (Instr.tableWriteGroup 0 one [{ groupPor with redAmber := 65536 }]).wellFormed = false ∧
    (Instr.tableWriteGroup 0 one [{ groupPor with clearance := 65536 }]).wellFormed = false ∧
    (Instr.tableWriteGroup 0 one [{ groupPor with pattern := 256 }]).wellFormed = false ∧
    (Instr.tableWriteGroup 0 one [{ groupPor with safetyMin := 65536 }]).wellFormed = false ∧
    (Instr.tableWriteGroup 0 one [{ groupPor with minRed := 65536 }]).wellFormed = false ∧
    (Instr.tableWriteGroup 0 one [{ groupPor with redSets := 256 }]).wellFormed = false := by decide

theorem test_wf_circuit : (Instr.tableWriteCircuit 0 one [{ circuitPor with group := 256 }]).wellFormed = false ∧
    (Instr.tableWriteCircuit 0 one [{ circuitPor with fiu := 256 }]).wellFormed = false ∧
    (Instr.tableWriteCircuit 0 one [{ circuitPor with terminal := 256 }]).wellFormed = false ∧
    (Instr.tableWriteCircuit 0 one [{ circuitPor with role := 256 }]).wellFormed = false ∧
    (Instr.tableWriteCircuit 0 one [{ circuitPor with redSet := 256 }]).wellFormed = false ∧
    (Instr.tableWriteCircuit 0 one [{ circuitPor with loadClass := 256 }]).wellFormed = false ∧
    (Instr.tableWriteCircuit 0 one [{ circuitPor with k := 256 }]).wellFormed = false ∧
    (Instr.tableWriteCircuit 0 one [{ circuitPor with proving := 256 }]).wellFormed = false ∧
    (Instr.tableWriteCircuit 0 one [{ circuitPor with cableTest := 256 }]).wellFormed = false ∧
    (Instr.tableWriteCircuit 0 one [{ circuitPor with bleed := 256 }]).wellFormed = false := by decide

theorem test_wf_tables : (Instr.tableWriteConflictMatrix 0 one [256]).wellFormed = false ∧
    (Instr.tableWriteStage 0 ⟨65536, 1, 1⟩ [0]).wellFormed = false ∧
    (Instr.tableWriteInputMap 0 one [{ inputPor with fiu := 256 }]).wellFormed = false ∧
    (Instr.tableWriteInputMap 0 one [{ inputPor with input := 256 }]).wellFormed = false ∧
    (Instr.tableWriteInputMap 0 one [{ inputPor with kind := 256 }]).wellFormed = false ∧
    (Instr.tableWriteInputMap 0 one [{ inputPor with debounce := 256 }]).wellFormed = false ∧
    (Instr.tableWriteInputMap 0 one [{ inputPor with stuckLimit := 65536 }]).wellFormed = false ∧
    (Instr.tableWritePattern 0 one [{ patternPor 5 with steps := 256 }]).wellFormed = false ∧
    (Instr.tableWritePattern 0 one [patternPor 256]).wellFormed = false ∧
    (Instr.tableWritePattern 0 one [⟨2, Vector.replicate 8 ⟨256, 1⟩⟩]).wellFormed = false := by decide

theorem test_wf_startUp : (Instr.tableWriteStartUpRecord 0 one [{ startUpPor with mains := 256 }]).wellFormed = false ∧
    (Instr.tableWriteStartUpRecord 0 one [{ startUpPor with startFlash := 65536 }]).wellFormed = false ∧
    (Instr.tableWriteStartUpRecord 0 one [{ startUpPor with startRed := 65536 }]).wellFormed = false ∧
    (Instr.tableWriteStartUpRecord 0 one [{ startUpPor with provingLimit := 65536 }]).wellFormed = false ∧
    (Instr.tableWriteStartUpRecord 0 one [{ startUpPor with restart := 65536 }]).wellFormed = false ∧
    (Instr.tableWriteStartUpRecord 0 one [{ startUpPor with silence := 65536 }]).wellFormed = false ∧
    (Instr.tableWriteStartUpRecord 0 one [{ startUpPor with pattern := 256 }]).wellFormed = false ∧
    (Instr.tableWriteStartUpRecord 0 one [{ startUpPor with fallback := 256 }]).wellFormed = false := by decide

theorem test_wf_plan_schedule : (Instr.tableWritePlan 0 256 one []).wellFormed = false ∧
    (Instr.tableWritePlan 0 1 one [List.replicate 12 0]).wellFormed = false ∧
    (Instr.tableWriteSchedule 0 one [.header 256]).wellFormed = false ∧
    (Instr.tableWriteSchedule 0 one [.entry { schedPor with hours := 256 }]).wellFormed = false ∧
    (Instr.tableWriteSchedule 0 one [.entry { schedPor with minutes := 256 }]).wellFormed = false ∧
    (Instr.tableWriteSchedule 0 one [.entry { schedPor with action := 256 }]).wellFormed = false ∧
    (Instr.tableWriteSchedule 0 one [.entry { schedPor with plan := 256 }]).wellFormed = false ∧
    (Instr.tableWriteReaction 0 one [256]).wellFormed = false := by decide

/-- Each parameter of the cable record past two bytes. -/
theorem test_wf_cable : [{ cableParamsPor with openThreshold := 65536 }, { cableParamsPor with lowThreshold := 65536 },
    { cableParamsPor with testInterval := 65536 }, { cableParamsPor with testConfirm := 65536 },
    { cableParamsPor with vFix := 65536 }, { cableParamsPor with ratio := 65536 }, { cableParamsPor with offCurrent := 65536 },
    { cableParamsPor with crossConfirm := 65536 }, { cableParamsPor with retryDelay := 65536 },
    { cableParamsPor with maxRetries := 65536 }, { cableParamsPor with tripClear := 65536 },
    { cableParamsPor with leakThreshold := 65536 }, { cableParamsPor with leakConfirm := 65536 },
    { cableParamsPor with leakClear := 65536 }, { cableParamsPor with greenConfirm := 65536 }].all
      (fun e => !(Instr.tableWriteCableParameters 0 one [e]).wellFormed) = true := by decide

theorem test_wf_parameters : (Instr.tableWriteProvingParameters 0 one [{ provingPor with tLo := 65536 }]).wellFormed = false ∧
    (Instr.tableWriteProvingParameters 0 one [{ provingPor with tHi := 65536 }]).wellFormed = false ∧
    (Instr.tableWriteProvingParameters 0 one [{ provingPor with failConfirm := 65536 }]).wellFormed = false ∧
    (Instr.tableWriteProvingParameters 0 one [{ provingPor with recoverConfirm := 65536 }]).wellFormed = false ∧
    (Instr.tableWriteProvingParameters 0 one [{ provingPor with presence := 65536 }]).wellFormed = false ∧
    (Instr.tableWriteProvingParameters 0 one [{ provingPor with spread := 65536 }]).wellFormed = false ∧
    (Instr.tableWriteCableParameters 0 one [{ cableParamsPor with mode := 256 }]).wellFormed = false ∧
    (Instr.tableWriteCableParameters 0 one [{ cableParamsPor with missLimit := 65536 }]).wellFormed = false ∧
    (Instr.tableWriteReference 0 one [⟨⟨256, 0, 0⟩, refPor⟩]).wellFormed = false ∧
    (Instr.tableWriteReference 0 one [⟨⟨0, 65536, 0⟩, refPor⟩]).wellFormed = false ∧
    (Instr.tableWriteReference 0 one [⟨refPor, ⟨0, 0, 65536⟩⟩]).wellFormed = false ∧
    (Instr.tableWriteLive 0 256 one 1).wellFormed = false ∧ (Instr.tableWriteLive 0 0x30 one 256).wellFormed = false := by decide

theorem test_wf_requests : (Instr.validatePlan 0 256).wellFormed = false ∧ (Instr.selectPlan 0 256).wellFormed = false ∧
    (Instr.programIdentity 0 (List.replicate 1018 0)).wellFormed = false ∧ (Instr.hold 0 256).wellFormed = false ∧
    (Instr.setDim 0 256).wellFormed = false ∧ (Instr.flash 0 256).wellFormed = false ∧ (Instr.dark 0 256).wellFormed = false ∧
    (Instr.step 0 (.stage 256)).wellFormed = false ∧ (Instr.demand 0 [256]).wellFormed = false ∧
    (Instr.directTarget 0 [(256, 0)]).wellFormed = false ∧ (Instr.directTarget 0 [(0, 256)]).wellFormed = false ∧
    (Instr.learn 0 (.list [256]) 0 8 8).wellFormed = false ∧ (Instr.learn 0 .all 256 8 8).wellFormed = false ∧
    (Instr.learn 0 .all 0 65536 8).wellFormed = false ∧ (Instr.learn 0 .all 0 8 65536).wellFormed = false ∧
    (Instr.learnCancel 0 (.list [256])).wellFormed = false ∧ (Instr.ackFault 0 (.one 256 0)).wellFormed = false ∧
    (Instr.ackFault 0 (.one 1 256)).wellFormed = false ∧ (Instr.clearLatch 0 256).wellFormed = false := by decide +kernel

theorem test_wf_rest : (Instr.forwardSet 0 [256]).wellFormed = false ∧ (Instr.pass 0 256 0 []).wellFormed = false ∧
    (Instr.pass 0 1 0 (List.replicate 1018 0)).wellFormed = false ∧ (Instr.setTime 0 256 0).wellFormed = false ∧
    (Instr.setTime 0 0 4294967296).wellFormed = false ∧ (Instr.trim 0 32768 0).wellFormed = false ∧
    (Instr.trim 0 (-32769) 0).wellFormed = false ∧ (Instr.trim 0 0 256).wellFormed = false := by decide +kernel

theorem test_wf_frames : (Instr.senseReceived { sense with unit := 16 }).wellFormed = false ∧
    (Instr.senseReceived { sense with window := 256 }).wellFormed = false ∧
    (Instr.senseReceived { sense with vsup := 256 }).wellFormed = false ∧
    (Instr.senseReceived { sense with leakage := 256 }).wellFormed = false ∧
    (Instr.senseReceived { sense with samples := Vector.replicate 8 ⟨65536, 0, 0, false, false, false, 0⟩ }).wellFormed = false ∧
    (Instr.senseReceived { sense with samples := Vector.replicate 8 ⟨0, 256, 0, false, false, false, 0⟩ }).wellFormed = false ∧
    (Instr.senseReceived { sense with samples := Vector.replicate 8 ⟨0, 0, 256, false, false, false, 0⟩ }).wellFormed = false ∧
    (Instr.identReceived ⟨16, true, 0, 0⟩).wellFormed = false ∧ (Instr.identReceived ⟨1, true, 256, 0⟩).wellFormed = false ∧
    (Instr.identReceived ⟨1, true, 0, 4294967296⟩).wellFormed = false ∧
    (Instr.passReplyReceived ⟨16, true, 0, []⟩).wellFormed = false ∧
    (Instr.passReplyReceived ⟨1, true, 0, List.replicate 49 0⟩).wellFormed = false := by decide +kernel

/-! ## Requests: one step each -/

/-- R180, R177: the identity is kept and configuration is open. -/
theorem test_powerOnReset : (after .powerOnReset coord).port.identity = coord.port.identity ∧
    (after .powerOnReset coord).port.configOpen = true ∧ (after .powerOnReset coord).jm.mode = .dark := by decide +kernel

/-- R172, R173: the free transmitter has taken the ALERT of the end of POR. -/
theorem test_powerOnReset_alert : (after .powerOnReset coord).port.alert = none ∧ (after .powerOnReset coord).port.tx ≠ none ∧
    (after .powerOnReset coord).port.tx = (after (.configOpen 1) (after .powerOnReset coord)).port.tx := by decide +kernel

/-- R177. -/
theorem test_configOpen : result (after (.configOpen 1) started) = some .done ∧
    result (after (.configOpen 1) coord) = some .badState := by decide +kernel

/-- R41, R165, R167: the group of a circuit latched off stays inhibited through CONFIG_OPEN, and leaves the set at the next change of the table, be
it the acknowledgement of another record. -/
theorem test_configOpen_inhibit :
    let t := after .frameSent (after (.configOpen 1) latchedShut)
    t.map = none ∧ t.groups[(0 : Fin 32)].inhibited = true ∧ t.groups[(1 : Fin 32)].inhibited = false ∧
    (after (.ackFault 2 (.one 15 0)) t).groups[(0 : Fin 32)].inhibited = false ∧
    (after (.ackFault 2 (.one 6 1)) t).groups[(0 : Fin 32)].inhibited = true := by decide +kernel

/-- R175: of two entries with stride SAME the last stands. -/
theorem test_tableWriteFiu : (after (.tableWriteFiu 1 ⟨4, 2, 0⟩ [⟨1, 5, 0⟩, ⟨1, 6, 1⟩]) fitted).tables.fiu[(4 : Fin 12)] = ⟨1, 6, 1⟩ := by
  decide +kernel

/-- R2: red sets used above 4 is set to 4. -/
theorem test_tableWriteGroup : result (after (.tableWriteGroup 1 one [⟨1, 30, 10, 0, 0, 40, 0, 5⟩]) fitted) = some .clamped ∧
    (after (.tableWriteGroup 1 one [⟨1, 30, 10, 0, 0, 40, 0, 5⟩]) fitted).tables.group[(0 : Fin 32)].redSets = 4 := by decide +kernel

/-- R4: a terminal of 9 is refused. -/
theorem test_tableWriteCircuit :
    result (after (.tableWriteCircuit 1 one [⟨1, 1, 9, 0, 1, 0, 1, 1, 1, 0⟩]) fitted) = some .badValue := by decide +kernel

/-- R18, R174: stride ROW steps down a column of the matrix. -/
theorem test_tableWriteConflictMatrix :
    (after (.tableWriteConflictMatrix 1 ⟨1, 2, 2⟩ [50, 255]) fitted).tables.matrix[(0 : Fin 32)][(1 : Fin 32)] = some 50 ∧
    (after (.tableWriteConflictMatrix 1 ⟨1, 2, 2⟩ [50, 255]) fitted).tables.matrix[(1 : Fin 32)][(1 : Fin 32)] = none := by
  decide +kernel

/-- R42: with configuration closed the answer is IN_USE. -/
theorem test_tableWriteStage : result (after (.tableWriteStage 1 one [7]) started) = some .inUse ∧
    (after (.tableWriteStage 1 one [7]) fitted).tables.stage[(0 : Fin 16)] = 7 := by decide +kernel

/-- R48: a stuck-on limit of 5 s is set to 10 s. -/
theorem test_tableWriteInputMap : result (after (.tableWriteInputMap 1 one [⟨1, 1, 0, 1, 1, 1, 5⟩]) fitted) = some .clamped ∧
    (after (.tableWriteInputMap 1 one [⟨1, 1, 0, 1, 1, 1, 5⟩]) fitted).tables.input[(0 : Fin 64)].stuckLimit = 10 := by decide +kernel

/-- R91: a pattern of one step is refused. -/
theorem test_tableWritePattern : result (after (.tableWritePattern 1 one [{ patternPor 5 with steps := 1 }]) fitted) = some .badValue := by
  decide +kernel

/-- R76, R94: a start-up record that changes the mains nominal restarts the period counts. -/
theorem test_tableWriteStartUpRecord :
    (after (.tableWriteStartUpRecord 1 one [{ startUpPor with mains := 1 }])
      (setMains fitted fun m => { m with outOfBand := 7 })).mains.outOfBand = 0 := by decide +kernel

/-- R66: a new fallback plan ends the PLAN_INVALID held for the one before. -/
theorem test_tableWriteStartUpRecord_fallback :
    (after (.tableWriteStartUpRecord 1 one [{ startUpPor with fallback := 2 }])
      (setEng fitted fun e => { e with governing := 1, invalidRaised := 1 })).eng.invalidRaised = 0 := by decide +kernel

/-- R184, R44: the header's cycle time is its first two bytes, and the plan is LOADED. -/
theorem test_tableWritePlan :
    (after (.tableWritePlan 1 8 one [[0x02, 0x58, 0, 100, 3, 0, 0, 0, 0, 0, 0]]) fitted).tables.plan[(7 : Fin 8)].cycle = 600 ∧
    (after (.tableWritePlan 1 8 one [[0x02, 0x58, 0, 100, 3, 0, 0, 0, 0, 0, 0]]) fitted).tables.plan[(7 : Fin 8)].state = .loaded := by
  decide +kernel

/-- R102: two mode entries of one day and minute clash. -/
theorem test_tableWriteSchedule :
    result (after (.tableWriteSchedule 1 ⟨1, 2, 1⟩ [.entry ⟨1, 6, 0, 0, 1⟩, .entry ⟨3, 6, 0, 1, 0⟩]) fitted) = some .badValue ∧
    result (after (.tableWriteSchedule 1 ⟨1, 2, 1⟩ [.entry ⟨1, 6, 0, 0, 1⟩, .entry ⟨3, 6, 0, 3, 0⟩]) fitted) = some .done := by
  decide +kernel

/-- R160: UNEXPECTED_GREEN (index 5) cannot be made anything but DARK. -/
theorem test_tableWriteReaction : result (after (.tableWriteReaction 1 ⟨5, 1, 1⟩ [0]) fitted) = some .clamped ∧
    (after (.tableWriteReaction 1 ⟨5, 1, 1⟩ [0]) fitted).tables.reaction[(5 : Fin 21)] = .dark := by decide +kernel

/-- R124: a fail confirm of 1 is set to 2. -/
theorem test_tableWriteProvingParameters :
    (after (.tableWriteProvingParameters 1 one [{ provingPor with failConfirm := 1 }]) fitted).tables.proving.failConfirm = 2 := by
  decide +kernel

/-- R145: a miss limit of 11 is set to 10. -/
theorem test_tableWriteCableParameters :
    (after (.tableWriteCableParameters 1 one [{ cableParamsPor with missLimit := 11 }]) coord).tables.cable.missLimit = 10 := by
  decide +kernel

/-- R129, R140: a write of a circuit's reference aborts its learning. -/
theorem test_tableWriteReference :
    (after (.tableWriteReference 1 one [⟨⟨1, 32, 50⟩, refPor⟩]) (learning 1000 0 200 8)).prov.learn[(0 : Fin 96)].state = .idle := by
  decide +kernel

/-- R175: a live table is never written. -/
theorem test_tableWriteLive : result (after (.tableWriteLive 1 0x33 one 1) fitted) = some .inUse ∧
    result (after (.tableWriteLive 1 0x99 one 1) fitted) = some .badIndex := by decide +kernel

/-- R176, R184: a slot of the fault table is read as it stands; index 64 is past its end; 38 slots are more than a reply holds. -/
theorem test_tableRead : data (after (.tableRead 1 0x33 one) (withRecord .activeAck)) = .entries [.fault (some (record .activeAck))] ∧
    result (after (.tableRead 1 0x33 ⟨64, 1, 1⟩) coord) = some .badIndex ∧
    result (after (.tableRead 1 0x33 ⟨0, 38, 1⟩) coord) = some .malformed := by decide +kernel

/-- R46, R182: a plan with no step is EMPTY_SEQUENCE, kind 1, index 0. -/
theorem test_validatePlan : data (after (.validatePlan 1 3) started) = .errors [⟨3, 1, 0⟩] ∧
    result (after (.validatePlan 1 1) started) = some .done := by decide +kernel

/-- R77: START with good tables enters START_FLASH; with blank slots it is BLANK_IDENTITY. -/
theorem test_start : (after (.start 1) { fitted with tables := tables }).jm.mode = .startFlash ∧
    result (after (.start 1) (setPort State.reset fun p => { p with tx := none })) = some .blankIdentity := by decide +kernel

/-- R180: slot 2 is the lowest blank one. -/
theorem test_programIdentity : data (after (.programIdentity 1 [8, 7, 6, 5, 4, 3, 2, 1]) fitted) = .slot 2 ∧
    result (after (.programIdentity 1 [8]) fitted) = some .malformed := by decide +kernel

/-- R180: the effective slot is the highest-numbered programmed one. -/
theorem test_readIdentity : data (after (.readIdentity 1) fitted) = .identity fitted.port.identity 1 := by decide +kernel

/-- R104, R66: plan 1 selected while plan 2 runs is pending. -/
theorem test_selectPlan : (after (.selectPlan 1 1) (setSchedPlan 1)).eng.pendingPlan = some 0 ∧
    result (after (.selectPlan 1 9) coord) = some .badIndex := by decide +kernel

/-- R104: with no override the schedule plan governs. -/
theorem test_releasePlan : (after (.releasePlan 1) (setSchedPlan 1)).sched.effPlan = 0 := by decide +kernel

/-- R68, R69: a STAGE hold holds the step at once. -/
theorem test_hold : (after (.hold 1 0) coord).eng.sub = .hold := by decide +kernel

/-- R65, R70: a hold released in a coordinated plan sets resync. -/
theorem test_releaseHold : (after (.releaseHold 1) held).eng.resync = true ∧ (after (.releaseHold 1) held).eng.hold = none := by
  decide +kernel

/-- R71: a STEP to the current stage names no other step. -/
theorem test_step : result (after (.step 1 (.stage 3)) held) = some .badValue ∧
    (after (.step 1 (.stage 1)) held).eng.stepReq = some (.stage 0) := by decide +kernel

/-- R52: one stage undefined refuses the whole list. -/
theorem test_demand : (after (.demand 1 [1, 3]) started).latched = 5 ∧
    (after (.demand 1 [1, 4]) started).latched = 0 := by decide +kernel

/-- R105. -/
theorem test_setDim : (after (.setDim 1 1) started).sched.effDim = .dim ∧ result (after (.setDim 1 2) started) = some .badValue := by
  decide +kernel

/-- R105: with no override the schedule dim is effective. -/
theorem test_releaseDim : (after (.releaseDim 1) (after (.frameSent) (after (.setDim 1 1) started))).sched.effDim = .bright := by
  decide +kernel

/-- R80: FLASH ORDERLY in PLAN keeps the mode and sets a departure; IMMEDIATE enters FLASH. -/
theorem test_flash : (after (.flash 1 1) coord).jm.departure = some ⟨.flash, .controller⟩ ∧
    (after (.flash 1 0) coord).groups[(0 : Fin 32)].aspect = .flashAmber := by decide +kernel

/-- R80, R24. -/
theorem test_dark : (after (.dark 1 0) coord).groups[(1 : Fin 32)].aspect = .dark := by decide +kernel

/-- R84: RESUME in FLASH for the controller enters START_RED. -/
theorem test_resume : (after (.resume 1) (inMode .flash)).jm.mode = .startRed ∧
    result (after (.resume 1) coord) = some .badState := by decide +kernel

/-- R85: the engine stops and group 2 stays GREEN. -/
theorem test_directEnter : (after (.directEnter 1) coord).eng.running = none ∧
    (after (.directEnter 1) coord).groups[(1 : Fin 32)].aspect = .green := by decide +kernel

/-- R34: group 2's GO conflicts with group 1's. -/
theorem test_directTarget : data (after (.directTarget 1 [(1, 0), (2, 0)]) (allRed (inMode .directDrive))) = .conflictGroup 2 ∧
    (after (.directTarget 1 [(1, 0)]) (allRed (inMode .directDrive))).groups[(0 : Fin 32)].target = .go := by decide +kernel

/-- R86, R82: with every group RED already the departure completes. -/
theorem test_directExit : (after (.directExit 1) (allRed (inMode .directDrive))).jm.mode = .startRed := by decide +kernel

/-- R92. -/
theorem test_syncPatterns : (after (.syncPatterns 1) runEnds).junctionRun = ⟨0, 0, 0, true⟩ := by decide +kernel

/-- R137: N_min 7 is set to 8. -/
theorem test_learn : result (after (.learn 1 (.list [1]) 0 7 20) started) = some .clamped ∧
    (after (.learn 1 (.list [1]) 0 7 20) started).prov.learn[(0 : Fin 96)].nMin = 8 := by decide +kernel

/-- R140. -/
theorem test_learnCancel : (after (.learnCancel 1 .all) (learning 1000 0 200 9)).prov.learn[(0 : Fin 96)].count = 0 := by decide +kernel

/-- R164: an acknowledged CLEARED_UNACK record is removed. -/
theorem test_ackFault : (after (.ackFault 1 (.one 6 1)) (withRecord .clearedUnack)).coll.slots[(0 : Fin 64)] = none ∧
    result (after (.ackFault 1 (.one 22 1)) started) = some .badValue := by decide +kernel

/-- R154. -/
theorem test_clearLatch : (after (.clearLatch 1 1) latched).cable.circuits[(0 : Fin 96)].retry = .normal ∧
    result (after (.clearLatch 1 2) latched) = some .badState := by decide +kernel

/-- R178. -/
theorem test_readStatus : result (after (.readStatus 1) coord) = some .done := by decide +kernel

/-- R120, R181: units 1 and 12 are bits 0 and 11. -/
theorem test_forwardSet : (after (.forwardSet 1 [12, 1]) started).bus.forward = 0x801 := by decide +kernel

/-- R118. -/
theorem test_pass : result (after (.pass 1 1 0x3F []) polled) = some .filtered ∧
    (after (.pass 1 1 0x40 [9]) polled).bus.slot = .waiting ⟨0, 0x40, [9], 1⟩ false := by decide +kernel

/-- R101. -/
theorem test_setTime : (after (.setTime 1 6 86399999) fitted).clock.ms = 86399999 ∧
    result (after (.setTime 1 7 0) fitted) = some .badValue := by decide +kernel

/-- R100: a trim of 501 is set to 500. -/
theorem test_trim : result (after (.trim 1 501 1) fitted) = some .clamped ∧ (after (.trim 1 501 1) fitted).clock.trim = 500 := by
  decide +kernel

/-- R179: configuration stays as it was, and the reason is RESTART. -/
theorem test_engineRestart : (after (.engineRestart 1) coord).jm.reason = .restart ∧
    (after (.engineRestart 1) coord).port.configOpen = false := by decide +kernel

/-- R169. -/
theorem test_malformedRequest : result (after (.malformedRequest 0x77 1) fitted) = some .malformed := by decide +kernel

/-- R170: the second request is answered BUSY, the third is discarded. -/
theorem test_busyRequest :
    (after (.busyRequest 0x03 2) (after (.readStatus 1) fitted)).port.replies.map (fun r => (r.tag, r.result)) = [(2, .busy)] ∧
    (after (.busyRequest 0x03 3) (after (.busyRequest 0x03 2) (after (.readStatus 1) fitted))).port.replies.length = 1 := by
  decide +kernel

/-! ## The lines, the crystal and the field bus -/

/-- R169. -/
theorem test_corruptFrame : (after (.corruptFrame .badCrc) (after (.frameBegins 0x7E) fitted)).port.receiver = .hunting := by
  decide +kernel

/-- R169. -/
theorem test_framePauseTimeout : (after .framePauseTimeout (after (.frameBegins 0x7E) fitted)).port.receiver = .hunting := by decide +kernel

/-- R170: the reply's end ends the service. -/
theorem test_frameSent : (after .frameSent (after (.readStatus 1) fitted)).port.inService = none := by decide +kernel

/-- R94: 20,000 µs is in band at 50 Hz and 16,667 µs is not. -/
theorem test_mainsEdge : (after (.mainsEdge 20000) (lockedAt 7)).mains.inBand = 1 ∧
    (after (.mainsEdge 16667) (lockedAt 7)).mains.outOfBand = 8 := by decide +kernel

/-- R94, R95. -/
theorem test_mainsFrequencyRaise : (after .mainsFrequencyRaise (lockedAt 25)).mains.timebase = .substitute ∧
    (after .mainsFrequencyRaise (lockedAt 24)).mains.timebase = .locked := by decide +kernel

/-- R94, R95. -/
theorem test_mainsFrequencyClear : (after .mainsFrequencyClear (mains 0 250 true none)).mains.timebase = .locked := by decide +kernel

/-- R96. -/
theorem test_mainsGapBegin : (after .mainsGapBegin (lockedAt 0)).mains.gap = true ∧ (after .mainsGapBegin (lockedAt 0)).bus.seq = 1 := by
  decide +kernel

/-- R96. -/
theorem test_mainsInterruptionRaise : (after .mainsInterruptionRaise State.reset).mains.interRaised = true := by decide +kernel

/-- R96. -/
theorem test_mainsInterruptionClear : (after .mainsInterruptionClear (mains 0 0 true (some 50))).mains.interRaised = false ∧
    (after .mainsInterruptionClear (mains 0 0 true (some 49))).mains.interRaised = true := by decide +kernel

/-- R95, R108: the sequence goes from 254 back to 0. -/
theorem test_substituteWindowStart :
    (after .substituteWindowStart (setBus State.reset fun b => { b with seq := 254 })).bus.seq = 0 := by decide +kernel

/-- R112, R117: a valid frame clears the misses and counts its OVERTEMP flag. -/
theorem test_senseReceived : (after (.senseReceived sense) polledLocked).bus.units[(0 : Fin 12)].miss = 0 ∧
    (after (.senseReceived sense) polledLocked).bus.units[(0 : Fin 12)].hotRun = 1 := by decide +kernel

/-- R112, R113: the third miss loses the unit. -/
theorem test_senseMiss : (after (.senseMiss 0) polledLocked).bus.units[(0 : Fin 12)].state = .lost := by decide +kernel

/-- R112: with the limit lowered to the count, no miss has brought the count there. -/
theorem test_fiuLost_noMiss :
    (after (.fiuLost 0) (setBus (missed 3) fun b => { b with round := roundNone })).bus.units[(0 : Fin 12)].state = .admitted := by
  decide +kernel

/-- R113: FIU_LOST reacts with FLASH by default. -/
theorem test_fiuLost : (after (.fiuLost 0) (missed 3)).coll.demanded = .flash := by decide +kernel

/-- R109. -/
theorem test_rollCallRound : (after .rollCallRound calling).bus.sinceRoll = 0 := by decide +kernel

/-- R111: the wrong type is MISMATCH. -/
theorem test_identReceived : (after (.identReceived ⟨1, true, 7, 99⟩) calling).bus.units[(0 : Fin 12)].state = .admitted ∧
    (after (.identReceived ⟨1, true, 8, 99⟩) calling).bus.units[(0 : Fin 12)].state = .mismatch := by decide +kernel

/-- R109: the next unit is called. -/
theorem test_identTimeout : (after (.identTimeout 0) calling).bus.round.called = some 1 := by decide +kernel

/-- R119, R173: the answer is sent as a PASS_REPLY with the tag of the PASS. -/
theorem test_passReplyReceived :
    (after (.passReplyReceived ⟨1, true, 0x40, [7]⟩) listening).port.tx = some (.passReply ⟨0, 0x40, [], 5⟩ .replied [7]) := by
  decide +kernel

/-! ## Moments at which a count or a timer runs out -/

/-- R37, R160: an unexpected green demands DARK. R39: a run that meets a new count is compared at the next window start. -/
theorem test_unexpectedGreenRaise :
    let s := setGroup (inMode .flash) 0 fun r => { r with greenRun := 2 }
    (after (.unexpectedGreenRaise 0) (atW s)).jm.mode = .dark ∧ (after (.unexpectedGreenRaise 0) s).jm.mode = .flash := by
  decide +kernel

/-- R38. -/
theorem test_unexpectedGreenClear :
    (after (.unexpectedGreenClear 0) (atW (setGroup started 0 fun r => { r with quiet := 25, raised := true }))).groups[(0 : Fin 32)].raised =
      false := by decide +kernel

/-- R22: at a pulse group 1's AMBER of 29 ds ends after its advance to 30. -/
theorem test_decisecondPulse :
    (after .decisecondPulse (showing (inMode .directDrive) 0 .amber .stop 29)).groups[(0 : Fin 32)].aspect = .red ∧
    (after .decisecondPulse (showing (inMode .directDrive) 0 .amber .stop 28)).groups[(0 : Fin 32)].aspect = .amber := by
  decide +kernel

/-- R24, R60, R61: the engine ends the step at the pulse, after the monitor's work, so group 1's GREEN ends at the next pulse. -/
theorem test_decisecondPulse_stop :
    let s := after .decisecondPulse (showing isolated 0 .green .go 80)
    s.groups[(0 : Fin 32)].target = .stop ∧ (after (.clearanceStart 0) s).groups[(0 : Fin 32)].aspect = .green ∧
    (after .decisecondPulse s).groups[(0 : Fin 32)].aspect = .amber := by decide +kernel

/-- R30: at a pulse the lower of two conflicting groups, both pending, goes and the higher waits. -/
theorem test_decisecondPulse_releases :
    let s := showing (showing (allRed (inMode .directDrive)) 0 .red .go 500) 1 .red .go 500
    (after .decisecondPulse s).groups[(0 : Fin 32)].aspect = .green ∧ (after .decisecondPulse s).groups[(1 : Fin 32)].aspect = .red := by
  decide +kernel

/-- R27: the clearance of a pedestrian group is GREEN_FLASH, and it waits for a pulse. -/
theorem test_clearanceStart :
    (after (.clearanceStart 2) (atP (showing (inMode .directDrive) 2 .green .stop 60))).groups[(2 : Fin 32)].aspect = .greenFlash ∧
    (after (.clearanceStart 2) (showing (inMode .directDrive) 2 .green .stop 60)).groups[(2 : Fin 32)].aspect = .green := by
  decide +kernel

/-- R27: the end is the pulse's, so AMBER runs its amber time from it. -/
theorem test_clearanceStart_unmarked :
    (after (.clearanceStart 0) (atP (showing (inMode .directDrive) 0 .green .stop 60))).groups[(0 : Fin 32)].inAspectFresh = false := by
  decide +kernel

/-- R27. -/
theorem test_amberEnd : (after (.amberEnd 0) (atP (showing (inMode .directDrive) 0 .amber .stop 30))).groups[(0 : Fin 32)].aspect = .red := by
  decide +kernel

/-- R27. -/
theorem test_clearanceEnd :
    (after (.clearanceEnd 2) (atP (showing (inMode .directDrive) 2 .greenFlash .stop 60))).groups[(2 : Fin 32)].aspect = .red := by
  decide +kernel

/-- R28: a started red-amber runs on to GREEN, whatever the target. -/
theorem test_redAmberEnd :
    (after (.redAmberEnd 1) (atP (showing (allRed (inMode .directDrive)) 1 .redAmber .stop 10))).groups[(1 : Fin 32)].aspect = .green := by
  decide +kernel

/-- R92: from the last step to step 1. -/
theorem test_patternStep : (after (.patternStep (.clearance 2)) (atP runEnds)).clearRuns[(2 : Fin 32)] = some ⟨1, 0, 0, false⟩ ∧
    (after (.patternStep .junction) (atP runEnds)).junctionRun = ⟨0, 1, 0, false⟩ := by decide +kernel

/-- R77. -/
theorem test_startFlashEnd : (after .startFlashEnd (atP (timed .startFlash 50))).jm.mode = .startRed ∧
    (after .startFlashEnd (atP (timed .startFlash 49))).jm.mode = .startFlash := by decide +kernel

/-- R78, R55: PLAN runs the governing plan, and its first wanted step is stage 2. -/
theorem test_startRedEnd : (after .startRedEnd (allRed (timed .startRed 60))).eng.running = some 0 ∧
    (after .startRedEnd (allRed (timed .startRed 60))).groups[(1 : Fin 32)].target = .go := by decide +kernel

/-- R78, R160: the timeout demands FLASH, entered at the pulse, so that its timer carries no mark. -/
theorem test_startProvingTimeout : (after .startProvingTimeout (atP (timed .startRed 160))).jm.mode = .flash ∧
    (after .startProvingTimeout (atP (timed .startRed 160))).jm.timerFresh = false := by decide +kernel

/-- R87: with every group RED the departure is complete at the pulse, and START_RED's timer carries no mark. -/
theorem test_controllerSilent :
    let t := after .controllerSilent (atP (setMode (allRed (inMode .directDrive)) fun j => { j with silence := 100 }))
    t.jm.silent = true ∧ t.jm.mode = .startRed ∧ t.jm.timerFresh = false := by decide +kernel

/-- R60, R61: at the minimum an expired extension ends the step and stage 2 follows stage 1 (step 2 of 2). -/
theorem test_minimumGreenEnd : (after .minimumGreenEnd (atP isolated)).eng.cur = 0 ∧
    (after .minimumGreenEnd (atP isolated)).groups[(0 : Fin 32)].target = .stop := by decide +kernel

/-- R64, R65, R72: the hold step of the coordinated plan in progress, its dwell begun, ended by an orderly stop. -/
theorem test_minimumGreenEnd_holdStep :
    let t := after .minimumGreenEnd (atP leaving)
    t.eng.sub = .rest ∧ t.eng.passed = 0 ∧ t.eng.dwell = false := by decide +kernel

/-- R61: with time left in the extension the step goes on. -/
theorem test_gapOut : (after .gapOut (atP isolated)).eng.sub = .interstage ∧
    (after .gapOut (atP (setEng isolated fun e => { e with ext := 1 }))).eng.cur = 1 := by decide +kernel

/-- R62. -/
theorem test_maxOut : (after .maxOut (atP isolated)).eng.cur = 0 ∧
    (after .maxOut (atP (setEng isolated fun e => { e with maxElapsed := some 199 }))).eng.cur = 1 := by decide +kernel

/-- R64: the counter comes to the step's force-off, and the search returns to the hold step. -/
theorem test_forceOff : (after .forceOff (atP forcedOffNow)).eng.cur = 0 ∧
    (after .forceOff (atP (setEng forcedOffNow fun e => { e with lastReading := 520 }))).eng.cur = 2 := by decide +kernel

/-- R103: with no entry in use and the clock set the schedule plan is the header's default plan. -/
theorem test_minuteBoundary :
    let s := { started with tables := { tables with schedDefault := 5 } }
    (after .minuteBoundary (setClock s fun c => { c with unset := false })).sched.plan = 4 := by decide +kernel

/-- R98: Sunday rolls over to Monday. -/
theorem test_midnightRollover :
    (after .midnightRollover { fitted with clock := { fitted.clock with ms := 86400005, weekday := 6 } }).clock =
      { fitted.clock with ms := 5, weekday := 0, day := 1 } := by decide +kernel

/-- R51: a press latches the demand of its stages. -/
theorem test_inputChange : (after (.inputChange 0) (atF 1 (reading 0 false 1))).latched = 2 ∧
    (after (.inputChange 1) (atF 0 (reading 1 false 2))).latched = 0 := by decide +kernel

/-- R50: the record's subject is the entry's number. -/
theorem test_detectorStuck : ((after (.detectorStuck 1) (atP (stuckAt 100))).coll.slots[(0 : Fin 64)].map fun r => (r.kind, r.subject)) =
    some (.detectorStuck, 2) := by decide +kernel

/-- R124, R134, R145, R150: at a frame that did not judge the circuit nothing is confirmed. -/
theorem test_otherFrame : (after (.verdictConfirm 0) (atOtherF 0 (confirming .out 10))).prov.circuits[(0 : Fin 96)].verdict = .unknown ∧
    (after (.crossFeedRaise 0) (atOtherF 0 (setCable started 0 fun r => { r with litRun := 3 }))).coll.demanded = .none := by
  decide +kernel

/-- R116: a frame discarded at the gap test does not stand; any other does. -/
theorem test_gapFrame :
    (after (.senseReceived sense) (setBus polledLocked fun b => { b with windowInGap := true })).moment = .between ∧
    (after (.senseReceived sense) polledLocked).moment = .frame 0 ⟨[], [], [], [0, 1, 2, 3, 4, 5]⟩ := by decide +kernel

/-- R134, R135. -/
theorem test_verdictConfirm : (after (.verdictConfirm 0) (atF 0 (confirming .out 10))).prov.circuits[(0 : Fin 96)].verdict = .out ∧
    (after (.verdictConfirm 0) (atF 0 (confirming .out 9))).prov.circuits[(0 : Fin 96)].verdict = .unknown := by decide +kernel

/-- R139: eight equal pairs converge, and the reference of the tap is held. -/
theorem test_learnConverge :
    (after (.learnConverge 0) (atF 0 (learning 1000 0 200 8))).tables.reference[(0 : Fin 96)].bright = ⟨1, 1000, 200⟩ ∧
    (after (.learnConverge 0) (atF 0 (learning 31 0 200 8))).prov.learn[(0 : Fin 96)].fail = some .noLoad := by decide +kernel

/-- R139. -/
theorem test_learnUnstable : (after (.learnUnstable 0) (atF 0 (learning 1000 49 200 20))).prov.learn[(0 : Fin 96)].fail = some .unstable := by
  decide +kernel

/-- R149. -/
theorem test_cableFaultConfirm :
    (after (.cableFaultConfirm 0) (atF 0 (setCable started 0 fun r => { r with cand := some .isOpen, mrun := 3 }))).cable.circuits[(0 : Fin 96)].openRaised =
      true := by decide +kernel

/-- R151. -/
theorem test_crossFeedRaise : (after (.crossFeedRaise 0) (atF 0 (setCable started 0 fun r => { r with litRun := 3 }))).coll.demanded = .flash := by
  decide +kernel

/-- R151, R163: CROSS_FEED is latching, so its record stays CLEARED_UNACK and its reaction in force. -/
theorem test_crossFeedClear :
    (after (.crossFeedClear 0) (atF 0 (setCable started 0 fun r => { r with crossRaised := true, quiet := 25 }))).cable.circuits[(0 : Fin 96)].crossRaised =
      false := by decide +kernel

/-- R153. -/
theorem test_retryRelease :
    (after (.retryRelease 0) (atP (setCable started 0 fun r => { r with retry := .retryWait, retryTimer := 20 }))).cable.circuits[(0 : Fin 96)].retry =
      .normal := by decide +kernel

/-- R153. -/
theorem test_tripCountClear :
    (after (.tripCountClear 0) (atP (setCable started 0 fun r => { r with trips := 2, cleanOn := 50 }))).cable.circuits[(0 : Fin 96)].trips = 0 := by
  decide +kernel

/-- R155. -/
theorem test_earthLeakageRaise :
    (after (.earthLeakageRaise 1) (atF 1 { started with cable := { started.cable with leak := put started.cable.leak 1 ⟨10, 0, [6], false⟩ } })).coll.slots[(0 : Fin 64)].map
      (fun r => r.detail) = some (.suspects [6]) := by decide +kernel

/-- R156. -/
theorem test_earthLeakageClear :
    (after (.earthLeakageClear 1) (atF 1 { started with cable := { started.cable with leak := put started.cable.leak 1 ⟨0, 50, [], true⟩ } })).cable.leak[(1 : Fin 12)].raised =
      false := by decide +kernel

/-- R117. -/
theorem test_fiuOvertempRaise :
    (after (.fiuOvertempRaise 0) (atF 0 (setUnit started 0 fun x => { x with hotRun := 10 }))).bus.units[(0 : Fin 12)].hotRaised = true ∧
    (after (.fiuOvertempRaise 0) (atF 0 (setUnit started 0 fun x => { x with hotRun := 9 }))).bus.units[(0 : Fin 12)].hotRaised = false := by
  decide +kernel

/-- R117. -/
theorem test_fiuOvertempClear :
    (after (.fiuOvertempClear 0) (atF 0 (setUnit started 0 fun x => { x with hotQuiet := 50, hotRaised := true }))).bus.units[(0 : Fin 12)].hotRaised =
      false := by decide +kernel

/-- R169: any other byte is ignored in HUNTING. -/
theorem test_frameBegins : (after (.frameBegins 0x7E) fitted).port.receiver = .receiving ∧
    (after (.frameBegins 0x7F) fitted).port.receiver = .hunting := by decide +kernel

/-- R99: at a trim of +500 the 2000th millisecond adds 2. -/
theorem test_crystalMillisecond : (after .crystalMillisecond (clockAt 999500 500 0)).clock.ms = 2 ∧
    (after .crystalMillisecond (clockAt 999499 500 0)).clock.ms = 1 := by decide +kernel

/-! ## Formats -/

/-- R169: the CRC of the nine digits is H'29B1. -/
theorem test_crc : crc16 [0x31, 0x32, 0x33, 0x34, 0x35, 0x36, 0x37, 0x38, 0x39] = 0x29B1 := by decide +kernel

/-- R182: an empty request frame of kind H'1B and tag 5 is 7 bytes. -/
theorem test_linkFrame : (linkFrame 0x1B 5 []).take 5 = [0x7E, 0, 7, 0x1B, 5] ∧ (linkFrame 0x1B 5 []).length = 7 := by decide +kernel

/-- R42, R181: a stage entry is the four-byte mask of its green set. -/
theorem test_stageEntry : entryBytes (.stage 0x80000005) = some [0x80, 0, 0, 5] ∧ entrySize 0x05 = 4 := by decide +kernel

/-- R181, R8, R20, R142, R143: GREEN_FLASH is 6, STOP 1, DEGRADED 3, and the red sets LOST 1 and GIVES 0, in a group live entry. -/
theorem test_groupLiveCodes :
    codesOf (entryFields (.groupLive { GroupRec.por with aspect := .greenFlash, target := .stop } .degraded [.lost, .gives])) =
      [6, 1, 3, 1, 0] := by decide +kernel

/-- R181, R138: a learn record that is DONE for the DIM tap has state 2 and tap 1; a failed one for want of supply has reason 1. -/
theorem test_learnCodes :
    (codesOf (entryFields (.learn { learnPor with state := .done, tap := .dim }))).head? = some 2 ∧
    codesOf (entryFields (.learn { learnPor with state := .failed, fail := some .noSupply })) = [3, 1, 0] := by decide +kernel

/-- R182: a sense report carries the frame's bytes as received, unused bits among them. -/
theorem test_reportAsReceived :
    (senseOf (senseBytes { sense with tapByte := 0x83, spare := 0x7F })).tapByte = 0x83 ∧
    (senseOf (senseBytes { sense with tapByte := 0x83, spare := 0x7F })).spare = 0x7F := by decide +kernel

/-- R142: a group of type UNUSED has no set status, whatever its red sets used. -/
theorem test_unusedSets : setStatuses started 5 = [] ∧ (setStatuses started 0).length = 1 := by decide +kernel

/-- The table gives no row bits, so no word spells a command. -/
theorem test_decode : decodeTableWord 16 0xFFFF = none ∧ (State.reset.withFetchWord 16 1).pending = [] := by decide +kernel

/-! ## Witnesses: a state and operands that meet the hypotheses of each statement, at boundary values of each clause -/

theorem witness_StepTakesFront :
    (queued State.reset [.decisecondPulse]).pending = .decisecondPulse :: [] ∧ State.reset.pending = [] := by decide +kernel

theorem witness_ResetTables : fitted.port.inService = none ∧ (taken 0x05 9 fitted).jm.mode = .dark ∧
    fitted.port.configOpen = true ∧ effSlot fitted ≠ 0 ∧
    ∀ g : Fin 32, fitted.tables.group[g] = State.reset.tables.group[g] := by decide +kernel

/-- A request in service with the BUSY slot free, and one with it held. -/
theorem witness_RequestsAnswered_busy : requestOf (.configOpen 1) = some (0x01, 1) ∧ requestOf (.engineRestart 255) = some (0x20, 255) ∧
    (after (.resume 1) State.reset).port.inService.isSome = true ∧ (after (.resume 1) State.reset).port.busy = false ∧
    (after (.resume 2) (after (.resume 1) State.reset)).port.inService.isSome = true ∧
    (after (.resume 2) (after (.resume 1) State.reset)).port.busy = true ∧ State.reset.port.inService = none := by
  decide +kernel

theorem witness_RequestsAnswered : requestOf (.malformedRequest 0x7F 3) = some (0x7F, 3) ∧
    (∀ k t, Instr.malformedRequest 0x7F 3 ≠ .busyRequest k t) ∧ State.reset.port.inService = none :=
  ⟨rfl, fun _ _ h => (nomatch h), rfl⟩

/-- The ends of the read checks: counts 1 and 64 of tables H'33 and H'03, the last index and the one past it. -/
theorem witness_ReadsAnswer : started.port.inService = none ∧ tableRange 0x33 = some 64 ∧ tableRange 0x36 = none ∧
    (∃ i ∈ addressed ⟨95, 2, 1⟩, 96 ≤ i) ∧ ¬ (∃ i ∈ addressed ⟨95, 1, 1⟩, 96 ≤ i) ∧ 1024 < 15 + 38 * entrySize 0x33 ∧
    ¬ 1024 < 15 + 37 * entrySize 0x33 := by decide +kernel

/-- Each table's clause at a boundary of the check that refuses: a count of 0, the index past the last, a table not open to writing, a field one
past its range, two schedule entries that clash. -/
theorem witness_WriteRefusals : started.port.inService = none ∧
    firstRefusal (writeChecks ⟨0, 0, 1⟩ 0 12 true false false) = some .malformed ∧
    firstRefusal (writeChecks ⟨32, 1, 0⟩ 1 32 true false false) = some .badIndex ∧
    firstRefusal (writeChecks ⟨95, 1, 2⟩ 1 96 started.port.configOpen ([circuitPor].any badCircuit) false) = some .inUse ∧
    firstRefusal (writeChecks ⟨1023, 1, 1⟩ 1 1024 fitted.port.configOpen ([251].any badConflict) false) = some .badValue ∧
    firstRefusal (writeChecks ⟨15, 1, 1⟩ 2 16 true false false) = some .malformed ∧
    firstRefusal (writeChecks ⟨63, 1, 1⟩ 1 64 true ([{ inputPor with fiu := 13 }].any badInput) false) = some .badValue ∧
    firstRefusal (writeChecks ⟨3, 1, 1⟩ 1 4 true ([{ patternPor 5 with steps := 9 }].any badPattern) false) = some .badValue ∧
    firstRefusal (writeChecks ⟨0, 1, 1⟩ 1 1 true ([{ startUpPor with startRed := 29 }].any badStartUp) false) = some .badValue ∧
    ofNum 8 8 = some (7 : Fin 8) ∧ firstRefusal (writeChecks ⟨17, 1, 1⟩ 1 17 true false false) = some .badIndex ∧
    firstRefusal (writeChecks ⟨20, 1, 1⟩ 1 21 true ([5].any badReaction) false) = some .badValue ∧
    firstRefusal (writeChecks ⟨0, 65, 0⟩ 65 1 true false false) = some .malformed ∧
    firstRefusal (writeChecks ⟨0, 1, 0⟩ 1 1 true ([{ cableParamsPor with mode := 3 }].any badCable) false) = some .badValue ∧
    firstRefusal (writeChecks ⟨0, 1, 0⟩ 1 96 true ([⟨⟨1, 31, 200⟩, refPor⟩].any badRef) false) = some .badValue ∧
    firstRefusal (writeChecks ⟨48, 1, 1⟩ 1 49 true false
      (schedClash [⟨1, 0, 0, 1, 0⟩, ⟨1, 0, 0, 0, 1⟩])) = some .badValue ∧
    isLive 0x35 = true ∧ tableRange 0x35 = some 96 ∧ formOk ⟨0, 64, 1⟩ = true ∧ (∀ i ∈ addressed ⟨0, 64, 1⟩, i < 96) ∧
    tableRange 0x09 = none := by decide +kernel

theorem witness_WriteRefusals_order : (∀ w ∈ [((0 : Nat), true), (2, false)], w.1 ≠ (1 : Fin 3).val) ∧ (2 : Fin 3) ≠ 0 := by decide

/-- The ends of the index ranges, a clamped group, and two writes of one matrix entry of which the later stands. -/
theorem witness_ConfigTablesWritten : fitted.port.inService = none ∧ fitted.port.configOpen = true ∧
    formOk ⟨11, 1, 0⟩ = true ∧ (∀ i ∈ addressed ⟨11, 1, 0⟩, i < 12) ∧ badFiu ⟨1, 255, 2⟩ = false ∧
    (∀ i ∈ addressed ⟨0, 1, 0⟩, i < 32) ∧ badGroup ⟨1, 60, 30, 0, 0, 200, 100, 9⟩ = false ∧
    clampGroup ⟨1, 60, 30, 0, 0, 200, 100, 9⟩ ≠ ⟨1, 60, 30, 0, 0, 200, 100, 9⟩ ∧
    badCircuit ⟨32, 12, 8, 0, 4, 2, 0, 1, 1, 1⟩ = false ∧ badConflict 250 = false ∧ badConflict 255 = false ∧
    (addressed ⟨1022, 2, 1⟩).zip [250, 255] = [(1022, 250)] ++ (32 * (31 : Fin 32).val + (31 : Fin 32).val, 255) :: [] ∧
    (addressed ⟨1022, 2, 1⟩).zip [250, 255] = [] ++ (32 * (31 : Fin 32).val + (30 : Fin 32).val, 250) :: [(1023, 255)] ∧
    (∀ w ∈ [((1023 : Nat), (255 : Nat))], w.1 ≠ 32 * (31 : Fin 32).val + (30 : Fin 32).val) ∧
    32 * (0 : Fin 32).val + (1 : Fin 32).val ∉ addressed ⟨1022, 2, 1⟩ ∧
    badInput ⟨12, 8, 2, 0xFFFF, 0xFFFF, 0, 3601⟩ = false ∧
    formOk ⟨3, 1, 1⟩ = true ∧ (∀ i ∈ addressed ⟨3, 1, 1⟩, i < 4) ∧ badPattern (patternPor 50) = false ∧
    formOk ⟨0, 1, 1⟩ = true ∧ [{ startUpPor with mains := 1 }].getLast? = some { startUpPor with mains := 1 } ∧
    (∀ i ∈ addressed ⟨0, 1, 1⟩, i < 1) ∧ badStartUp { startUpPor with mains := 1 } = false := by decide +kernel

/-- A lawful state of a part being configured. -/
theorem witness_ConfigTablesWritten_lawful : Lawful fitted ∧ fitted.port.inService = none ∧ fitted.port.configOpen = true :=
  ⟨⟨by decide +kernel, by decide +kernel, by decide +kernel, by decide +kernel, by decide +kernel⟩, rfl, rfl⟩

/-- Table H'18 (plan 8) at its last index, the schedule's header, and one entry of each other table written in every mode. -/
theorem witness_OpenTablesWritten : started.port.inService = none ∧ formOk ⟨16, 1, 1⟩ = true ∧
    ofNum 8 8 = some (7 : Fin 8) ∧ inUse (taken 0x02 1 started) 7 = false ∧
    (∀ i ∈ addressed ⟨16, 1, 1⟩, i < 17) ∧
    (∀ w ∈ (addressed ⟨16, 1, 1⟩).zip [[16, 4, 176, 4, 176, 100, 1, 1, 1, 255, 255]],
      w.2.length = 11 ∧ badPlanEntry w.1 w.2 = false) ∧
    (∀ w ∈ (addressed ⟨0, 1, 1⟩).zip [SchedRaw.header 8], schedForm w = true ∧ badSched w.2 = false) ∧
    schedClash (((addressed ⟨0, 1, 1⟩).zip [SchedRaw.header 8]).foldl writeSchedEntry started.tables).sched.toList = false ∧
    (∀ i ∈ addressed ⟨20, 1, 1⟩, i < 21) ∧ badReaction 4 = false ∧
    [provingPor].getLast? = some provingPor ∧ [cableParamsPor].getLast? = some cableParamsPor ∧
    badCable cableParamsPor = false ∧ (∀ i ∈ addressed ⟨95, 1, 1⟩, i < 96) ∧ badRef ⟨⟨1, 32736, 255⟩, ⟨1, 32, 50⟩⟩ = false := by
  decide +kernel

/-- The header and the first and the last entry of the schedule, written with what stood there kept elsewhere. -/
theorem witness_OpenTablesWritten_schedule :
    (∀ w ∈ [(0, SchedRaw.header 8), (1, .entry ⟨1, 6, 0, 0, 3⟩), (48, .entry ⟨64, 23, 59, 3, 0⟩)],
      schedForm w = true ∧ badSched w.2 = false) ∧ schedForm (1, .header 8) = false ∧
    schedForm (0, .entry ⟨1, 6, 0, 0, 3⟩) = false ∧ started.port.inService = none ∧ formOk ⟨48, 1, 1⟩ = true ∧
    addressed ⟨48, 1, 1⟩ = [48] ∧ (after (.tableWriteSchedule 1 ⟨0, 1, 1⟩ [.header 8]) started).tables.schedDefault = 8 ∧
    (let t := after (.tableWriteSchedule 1 ⟨48, 1, 1⟩ [.entry ⟨64, 23, 59, 3, 0⟩]) started
     t.tables = { started.tables with sched := put started.tables.sched 47 ⟨64, 23, 59, 3, 0⟩ }) := by decide +kernel

theorem witness_ConfigOpens : (inMode .flash).port.inService = none ∧ (taken 0x01 1 (inMode .flash)).jm.mode ≠ .dark ∧
    started.port.inService = none ∧ (taken 0x01 1 started).jm.mode = .dark := by decide +kernel

/-- Mode DARK, with the condition of a record held raised and not, in each state of the record, and an empty slot. -/
theorem witness_ConfigOpens_cleared :
    (∀ st ∈ [FaultState.activeUnack, .activeAck, .clearedUnack],
      let s := darkHeld st
      s.port.inService = none ∧ (taken 0x01 1 s).jm.mode = .dark ∧
      (taken 0x01 1 s).coll.slots[(0 : Fin 64)] = some ⟨.crossFeed, 1, st, ⟨0, 1⟩, ⟨0, 2⟩, 1, .flash, .absent⟩ ∧
      HeldRaised s .crossFeed 1 ∧ (taken 0x01 1 s).coll.slots[(1 : Fin 64)] = none) ∧
    OneRecordEach (darkHeld .activeAck) ∧ ¬ HeldRaised (withRecord .activeUnack) .unexpectedGreen 1 := by
  refine ⟨?_, one_each _ (by decide +kernel), ?_⟩
  · unfold HeldRaised; decide +kernel
  · unfold HeldRaised; decide +kernel

/-- An INHIBIT in force on a circuit in the map, which stays in force after its clear; and with no map, the set as it stood. -/
theorem witness_ConfigOpens_inhibit : latchedShut.port.inService = none ∧ (taken 0x01 1 latchedShut).jm.mode = .dark ∧
    latchedShut.map ≠ none ∧ Kind.latching .overcurrent = true ∧ inMap latchedShut 0 = true ∧
    latchedShut.tables.circuit[(0 : Fin 96)].group = num (0 : Fin 32) ∧
    (let t := after .frameSent (after (.configOpen 1) latchedShut)
     t.port.inService = none ∧ (taken 0x01 1 t).jm.mode = .dark ∧ t.map = none ∧
     t.coll.demandStands = true ∧ (after (.configOpen 1) t).coll.slots = (taken 0x01 1 t).coll.slots ∧
     (after (.configOpen 1) t).groups[(0 : Fin 32)].inhibited = true) := by decide +kernel

/-- With both mains faults held raised, and with neither. -/
theorem witness_EngineRestarts : coord.port.inService = none ∧ live coord 0 = true ∧
    (let s := mains 0 0 true none
     s.port.inService = none ∧ s.mains.freqRaised = true ∧ s.mains.interRaised = true) ∧
    coord.mains.freqRaised = false ∧ coord.mains.interRaised = false := by decide +kernel

/-- START in another mode, with every slot blank, with errors, and with none. -/
theorem witness_StartTaken :
    (inMode .flash).port.inService = none ∧ (taken 0x05 1 (inMode .flash)).jm.mode ≠ .dark ∧
    State.reset.port.inService = none ∧ (taken 0x05 1 State.reset).jm.mode = .dark ∧ State.reset.port.configOpen = true ∧
    effSlot State.reset = 0 ∧ effSlot fitted ≠ 0 ∧ structuralErrors fitted ≠ [] ∧
    (taken 0x05 1 { fitted with tables := tables }).jm.mode = .dark ∧ fitted.port.configOpen = true ∧
    structuralErrors { fitted with tables := tables } = [] := by decide +kernel

/-- A lawful state in DARK with configuration open, the small junction's tables in it. -/
theorem witness_StartTaken_lawful :
    let s : State := { fitted with tables := tables }
    Lawful s ∧ s.port.inService = none ∧ (taken 0x05 1 s).jm.mode = .dark ∧ s.port.configOpen = true ∧
      structuralErrors s = [] ∧ effSlot s ≠ 0 ∧ s.jm.mode = .dark ∧ s.jm.reason = .reset :=
  ⟨⟨by decide +kernel, by decide +kernel, by decide +kernel, by decide +kernel, by decide +kernel⟩, by decide +kernel⟩

/-- No demand; a start flash time of 0; DARK and FLASH demanded, each with the mode below it and with the mode it names. -/
theorem witness_ModeEntry : belowDemand coord .flash = false ∧ belowDemand coord .startFlash = false ∧
    coord.tables.startUp.startFlash ≠ 0 ∧ live coord 0 = true ∧
    belowDemand (noFlash (inMode .dark)) .startFlash = false ∧ (noFlash (inMode .dark)).tables.startUp.startFlash = 0 ∧
    (∀ m ∈ [Mode.flash, .dark],
      let s := setMode (withRecord .activeUnack) fun j => { j with mode := m }
      belowDemand s .flash = true ∧ demandMode (demandedNow s) = some .dark ∧ s.jm.mode = m) ∧
    ∀ m ∈ [Mode.flash, .plan],
      let s := setMode flashDemanded fun j => { j with mode := m }
      belowDemand s .startRed = true ∧ demandMode (demandedNow s) = some .flash ∧ s.jm.mode = m := by decide +kernel

/-- START_RED left, with its fault raised and not, for each mode, for START_FLASH with no start flash time, and for DARK on demand. -/
theorem witness_ModeEntry_left :
    (∀ x ∈ [false, true],
      let s := setMode (allRed (inMode .startRed)) fun j => { j with provingTimeout := x }
      s.jm.mode = .startRed ∧ s.jm.provingTimeout = x ∧
      (∀ m ∈ [Mode.dark, .startFlash, .startRed, .flash], belowDemand s m = false) ∧ s.tables.startUp.startFlash ≠ 0 ∧
      belowDemand (noFlash s) .startFlash = false ∧ (noFlash s).tables.startUp.startFlash = 0 ∧
      (noFlash s).jm.provingTimeout = x) ∧
    (let s := setMode (withRecord .activeUnack) fun j => { j with mode := .startRed, provingTimeout := true }
     belowDemand s .flash = true ∧ demandMode (demandedNow s) = some .dark ∧ s.jm.mode ≠ .dark) := by decide +kernel

/-- RESUME refused, and from FLASH and DARK under each schedule mode, with a start flash time and without. -/
theorem witness_ModeEntry_resume : coord.port.inService = none ∧ stoppedFor (taken 0x12 1 coord) .controller = false ∧
    ∀ m ∈ [Mode.flash, .dark], ∀ x ∈ [SchedMode.plan, .flash, .dark],
      let s := setMode (inMode m) fun j => { j with schedMode := x }
      s.port.inService = none ∧ (taken 0x12 1 s).jm.reason = .controller ∧ (taken 0x12 1 s).coll.demanded = .none ∧
      demandedNow (taken 0x12 1 s) = .none ∧ s.tables.startUp.startFlash ≠ 0 ∧ (taken 0x12 1 s).jm.mode = m ∧
      s.jm.schedMode = x ∧ (taken 0x12 1 (noFlash s)).jm.reason = .controller ∧
      (noFlash s).tables.startUp.startFlash = 0 := by decide +kernel

/-- VALIDATE_PLAN with configuration open, numbers 0 and 9, an EMPTY plan, the plan in use, a plan with no error and one with an error. -/
theorem witness_PlanValidated : coord.port.inService = none ∧ fitted.port.configOpen = true ∧
    coord.port.configOpen = false ∧ ofNum 8 0 = none ∧ ofNum 8 9 = none ∧ ofNum 8 8 = some (7 : Fin 8) ∧
    coord.tables.plan[(7 : Fin 8)].state = .empty ∧ ofNum 8 2 = some (1 : Fin 8) ∧
    coord.tables.plan[(1 : Fin 8)].state ≠ .empty ∧ inUse (taken 0x04 1 coord) 1 = true ∧
    ofNum 8 1 = some (0 : Fin 8) ∧ inUse (taken 0x04 1 coord) 0 = false ∧
    planErrors coord coord.tables.plan[(0 : Fin 8)] = [] ∧ inUse (taken 0x04 1 coord) 2 = false ∧
    coord.tables.plan[(2 : Fin 8)].state ≠ .empty ∧ planErrors coord coord.tables.plan[(2 : Fin 8)] ≠ [] := by decide +kernel

/-- A plan LOADED with no error: the governing plan while another runs, with PLAN_INVALID of it raised; the governing plan with none running; and a
plan neither governing nor the fallback. -/
theorem witness_PlanValidated_valid :
    (let s := setColl (setEng isolated fun e => { e with governing := 1, invalidRaised := 2 }) fun c =>
       { c with slots := put c.slots 0 (some ⟨.planInvalid, 2, .activeUnack, ⟨0, 0⟩, ⟨0, 0⟩, 1, .record, .errIndex 0⟩) }
     let s : State := { s with tables := { tables with plan := put tables.plan 1 { coordPlan with state := .loaded } } }
     s.port.inService = none ∧ s.port.configOpen = false ∧ s.tables.plan[(1 : Fin 8)].state ≠ .empty ∧
     inUse (taken 0x04 1 s) 1 = false ∧ planErrors s s.tables.plan[(1 : Fin 8)] = [] ∧ s.eng.running ≠ none ∧
     s.eng.governing = 1 ∧ mem s.eng.invalidRaised (1 : Fin 8) = true) ∧
    started.eng.running = none ∧ started.eng.governing = 0 ∧ inUse (taken 0x04 1 started) 0 = false ∧
    planErrors started started.tables.plan[(0 : Fin 8)] = [] ∧ fallback started = 0 ∧
    inUse (taken 0x04 1 started) 1 = false ∧ planErrors started started.tables.plan[(1 : Fin 8)] = [] := by decide +kernel

/-- The intergreen between two stages exists in every state, as the largest of a finite set. -/
theorem witness_PlanValidated_intergreen (s : State) : ∃ inter : Nat → Nat → Nat, ∀ a b m : Nat,
    m ≤ inter a b ↔ m = 0 ∨ ∃ (i j : Fin 32) (x : Nat),
      mem (greenSet s a) i = true ∧ mem (greenSet s b) i = false ∧ mem (greenSet s b) j = true ∧
      mem (greenSet s a) j = false ∧ conflicts s i j = true ∧ s.tables.matrix[i][j] = some x ∧ m ≤ x := by
  refine ⟨fun a b => Finset.univ.sup fun p : Fin 32 × Fin 32 =>
    if mem (greenSet s a) p.1 = true ∧ mem (greenSet s b) p.1 = false ∧ mem (greenSet s b) p.2 = true ∧
      mem (greenSet s a) p.2 = false ∧ conflicts s p.1 p.2 = true then (s.tables.matrix[p.1][p.2]).getD 0 else 0, ?_⟩
  intro a b m
  rcases Nat.eq_zero_or_pos m with rfl | hm
  · simp
  · rw [Finset.le_sup_iff (by simpa using hm)]
    constructor
    · rintro ⟨⟨i, j⟩, -, h⟩
      split at h
      · next hc =>
        obtain ⟨x, hx⟩ : ∃ x, s.tables.matrix[i][j] = some x := by
          cases hmx : s.tables.matrix[i][j] with
          | none => change m ≤ (s.tables.matrix[i][j]).getD 0 at h; rw [hmx] at h; exact absurd h (by simp; omega)
          | some x => exact ⟨x, rfl⟩
        change m ≤ (s.tables.matrix[i][j]).getD 0 at h
        rw [hx] at h
        exact .inr ⟨i, j, x, hc.1, hc.2.1, hc.2.2.1, hc.2.2.2.1, hc.2.2.2.2, hx, h⟩
      · omega
    · rintro (h | ⟨i, j, x, h1, h2, h3, h4, h5, hx, h⟩)
      · omega
      · exact ⟨(i, j), Finset.mem_univ _, by rw [if_pos ⟨h1, h2, h3, h4, h5⟩, hx]; exact h⟩

/-- A step list with errors of two numbers, and one with none. -/
theorem witness_PlanValidated_errors : planErrors coord { coordPlan with steps := 0, cycle := 299 } =
      [(.emptySequence, 0), (.cycleRange, 0), (.noHold, 0)] ∧
    planErrors coord { coordPlan with cycle := 300, offset := 300 } = [(.offsetRange, 0), (.forceOrder, 2), (.cycleTooShort, 0)] ∧
    min coordPlan.steps 16 = 3 := by decide +kernel

/-- R10 to R14: the small junction has no error; without its tables, kinds 1 alone; a circuit on a unit absent, kind 7. -/
theorem witness_StructureChecked : structuralErrors { fitted with tables := tables } = [] ∧
    structuralErrors State.reset = [⟨0, 1, 0⟩] ∧
    structuralErrors { fitted with tables := { tables with fiu := put tables.fiu 1 ⟨0, 7, 1⟩ } } = [⟨0, 7, 7⟩, ⟨0, 12, 1⟩] ∧
    (buildMap started).terminal[(0 : Fin 12)][(0 : Fin 8)] = some 0 ∧ live started 0 = true := by decide +kernel

/-- Payloads of 7 and 8 bytes; configuration closed; every slot programmed; slot 1 blank, and slot 3 the only blank one. -/
theorem witness_IdentityProgrammed : started.port.inService = none ∧ (List.replicate 7 (0 : Byte)).length ≠ 8 ∧
    (List.replicate 8 (0 : Byte)).length = 8 ∧ started.port.configOpen = false ∧ State.reset.port.inService = none ∧
    State.reset.port.configOpen = true ∧ State.reset.port.identity[(0 : Fin 3)] = none ∧
    (∀ j : Fin 3, j < 2 →
      (setPort State.reset fun p => { p with identity := #v[some [], some [], none] }).port.identity[j] ≠ none) ∧
    (setPort State.reset fun p => { p with identity := #v[some [], some [], none] }).port.identity[(2 : Fin 3)] = none ∧
    (∀ k : Fin 3, (setPort State.reset fun p => { p with identity := Vector.replicate 3 (some []) }).port.identity[k] ≠ none) := by
  decide +kernel

/-- Slots of 8 bytes, and a change of summary with an identity programmed and with none; and START with every slot blank. -/
theorem witness_IdentityProgrammed_effective :
    (∀ (k : Fin 3) (b : List Byte), started.port.identity[k] = some b → b.length = 8) ∧
    (summaryNow (withRecord .activeUnack)).unack ≠ (withRecord .activeUnack).port.summary.unack ∧
    started.port.identity[(0 : Fin 3)] = some [1, 2, 3, 4, 5, 6, 7, 8] ∧
    (∀ j : Fin 3, (0 : Fin 3) < j → started.port.identity[j] = none) ∧
    (let s := setPort (withRecord .activeUnack) fun p => { p with identity := Vector.replicate 3 none }
     (summaryNow s).unack ≠ s.port.summary.unack ∧ ∀ k : Fin 3, s.port.identity[k] = none) ∧
    (taken 0x05 1 State.reset).jm.mode = .dark ∧ (∀ k : Fin 3, State.reset.port.identity[k] = none) ∧
    result (after .frameSent (after (.start 1) (setPort State.reset fun p => { p with tx := none }))) ≠ some .done := by
  refine ⟨?_, by decide +kernel⟩
  intro k b h
  match k with
  | 0 => injection (show some [1, 2, 3, 4, 5, 6, 7, 8] = some b from h) with h; rw [← h]; rfl
  | 1 => exact absurd (show (none : Option (List Byte)) = some b from h) (by simp)
  | 2 => exact absurd (show (none : Option (List Byte)) = some b from h) (by simp)

theorem witness_OverridesSet : coord.port.inService = none ∧ ofNum 8 0 = none ∧ ofNum 8 9 = none ∧
    ofNum 8 1 = some (0 : Fin 8) ∧ (0 : Fin 8) = coord.sched.effPlan ∧ ofNum 8 8 = some (7 : Fin 8) ∧
    (7 : Fin 8) ≠ coord.sched.effPlan ∧ coord.sched.plan = coord.sched.effPlan ∧
    (setSchedPlan 3).port.inService = none ∧ (setSchedPlan 3).sched.plan ≠ (setSchedPlan 3).sched.effPlan ∧
    Tap.ofCode 0 = some .bright ∧ Tap.ofCode 1 = some .dim ∧ Tap.ofCode 2 = none := by decide +kernel

/-- HOLD with a code past the last, in another mode, and in PLAN with a hold that applies already. -/
theorem witness_HoldsSet : coord.port.inService = none ∧ HoldMode.ofCode 2 = none ∧ HoldMode.ofCode 0 = some .stage ∧
    HoldMode.ofCode 1 = some .cycle ∧ (taken 0x0A 1 started).jm.mode ≠ .plan ∧ started.port.inService = none ∧
    (taken 0x0A 1 coord).jm.mode = .plan ∧ held.port.inService = none ∧ holdApplies (taken 0x0B 1 held) = true := by decide +kernel

theorem witness_HoldsSet_step : held.port.inService = none ∧ ofNum 16 0 = none ∧ ofNum 16 17 = none ∧
    (taken 0x0C 1 held).eng.running = some 1 ∧ (taken 0x0C 1 held).jm.mode = .plan ∧ holdApplies (taken 0x0C 1 held) = true ∧
    (taken 0x0C 1 held).eng.sub = .hold ∧ anotherWanted (taken 0x0C 1 held) 1 = true ∧
    ofNum 16 1 = some (0 : Fin 16) ∧ stepNames (taken 0x0C 1 held) 1 0 = true ∧ stageOpen (taken 0x0C 1 held) 0 = true ∧
    ofNum 16 16 = some (15 : Fin 16) ∧ stepNames (taken 0x0C 1 held) 1 15 = false ∧
    (taken 0x0C 1 heldShut).eng.running = some 1 ∧ heldShut.port.inService = none ∧ (taken 0x0C 1 heldShut).jm.mode = .plan ∧
    holdApplies (taken 0x0C 1 heldShut) = true ∧ (taken 0x0C 1 heldShut).eng.sub = .hold ∧
    stepNames (taken 0x0C 1 heldShut) 1 0 = true ∧ stageOpen (taken 0x0C 1 heldShut) 0 = false ∧
    (taken 0x0C 1 heldAlone).eng.running = some 0 ∧ heldAlone.port.inService = none ∧
    (taken 0x0C 1 heldAlone).jm.mode = .plan ∧ holdApplies (taken 0x0C 1 heldAlone) = true ∧
    (taken 0x0C 1 heldAlone).eng.sub = .hold ∧ anotherWanted (taken 0x0C 1 heldAlone) 0 = false := by decide +kernel

/-- STEP with no plan running, in another mode, with no hold that applies, and in a rest and an INTERSTAGE; and a hold by an ACTIVE panel switch. -/
theorem witness_HoldsSet_unfit : (taken 0x0C 1 started).eng.running = none ∧ started.port.inService = none ∧
    ofNum 16 1 ≠ none ∧ (taken 0x0C 1 (setMode held fun j => { j with mode := .flash })).jm.mode ≠ .plan ∧
    holdApplies (taken 0x0C 1 coord) = false ∧ coord.port.inService = none ∧
    (∀ x ∈ [Sub.rest, .interstage],
      let s := setEng held fun e => { e with sub := x, stageOn := false, gaining := 1 }
      s.port.inService = none ∧ (taken 0x0C 1 s).eng.sub ≠ .min ∧ (taken 0x0C 1 s).eng.sub ≠ .hold) ∧
    (let s : State := { coord with tables := { tables with input := put tables.input 2 ⟨2, 1, 2, 0, 0, 1, 0⟩ } }
     holdApplies s = false ∧ holdApplies (setInput s 2 fun r => { r with active := true }) = true) := by decide +kernel

/-- Lists of 0, 1, 16 and 17 stages; stage numbers 0, 16 and 17; an undefined stage. -/
theorem witness_DemandLatched : started.port.inService = none ∧ fitted.port.inService = none ∧
    ¬ (1 ≤ ([] : List Nat).length ∧ ([] : List Nat).length ≤ 16) ∧ ¬ (List.replicate 17 1).length ≤ 16 ∧
    (List.replicate 16 1).length ≤ 16 ∧ fitted.port.configOpen = true ∧ started.port.configOpen = false ∧
    (∃ n ∈ [17], n = 0 ∨ 16 < n) ∧ (∃ n ∈ [0], n = 0 ∨ 16 < n) ∧ (∃ n ∈ [1, 16], greenSet started n = 0) ∧
    (∀ n ∈ [1, 16], 1 ≤ n ∧ n ≤ 16) ∧ (∀ n ∈ [1, 3], greenSet started n ≠ 0) := by decide +kernel

/-- FLASH and DARK with option 2, with started no, with DARK demanded; and with options 0 and 1 in each mode. -/
theorem witness_StopsTaken : started.port.inService = none ∧ (1 : Nat) < 2 ∧ fitted.port.inService = none ∧
    fitted.jm.started = false ∧ (withRecord .activeUnack).port.inService = none ∧
    (withRecord .activeUnack).jm.started = true ∧ (taken 0x10 1 (withRecord .activeUnack)).coll.demanded = .dark ∧
    coord.port.inService = none ∧ coord.jm.started = true ∧
    (taken 0x10 1 coord).coll.demanded = .none ∧ demandedNow (taken 0x10 1 coord) = .none ∧
    (taken 0x10 1 coord).jm.mode = .plan ∧ (taken 0x11 1 coord).jm.mode = .plan ∧ live coord 0 = true ∧
    (taken 0x10 1 (inMode .directDrive)).coll.demanded = .none ∧
    demandedNow (taken 0x10 1 (inMode .directDrive)) = .none ∧ (taken 0x10 1 (inMode .directDrive)).jm.mode = .directDrive ∧
    (taken 0x11 1 started).jm.mode = .dark ∧ demandedNow (taken 0x11 1 started) = .none ∧
    (taken 0x10 1 (inMode .startFlash)).jm.mode = .startFlash ∧
    demandedNow (taken 0x10 1 (inMode .startFlash)) = .none := by decide +kernel

/-- FLASH and DARK with FLASH demanded, each in either mode; DARK with DARK demanded; and an ORDERLY stop in an INTERSTAGE with a group served that is
GREEN and one that is not. -/
theorem witness_StopsTaken_demanded :
    (∀ x ∈ [(flashDemanded, Demanded.flash), (withRecord .activeUnack, .dark)], ∀ m ∈ [Mode.flash, .dark], ∀ k ∈ [(0x10 : Byte), 0x11],
      let s := setColl (setMode x.1 fun j => { j with mode := m }) fun c => { c with demanded := x.2 }
      s.port.inService = none ∧ s.jm.started = true ∧ (taken k 1 s).coll.demanded = x.2 ∧
      (x.2 = .dark ∨ (taken k 1 s).jm.mode = m) ∧ demandedNow (taken k 1 s) = x.2 ∧ live s 0 = true) ∧
    (let s := setEng coord fun e => { e with sub := .interstage, stageOn := false, served := 3, gaining := 1 }
     s.port.inService = none ∧ s.jm.started = true ∧ (taken 0x10 1 s).jm.mode = .plan ∧
     (taken 0x10 1 s).eng.sub = .interstage ∧ (taken 0x10 1 s).coll.demanded = .none ∧
     mem (taken 0x10 1 s).eng.served (0 : Fin 32) = true ∧ (taken 0x10 1 s).groups[(0 : Fin 32)].aspect ≠ .green ∧
     mem (taken 0x10 1 s).eng.served (1 : Fin 32) = true ∧ (taken 0x10 1 s).groups[(1 : Fin 32)].aspect = .green ∧
     (after (.flash 1 1) s).jm.departure = some ⟨.flash, .controller⟩ ∧
     (after (.flash 1 1) s).eng.served = 2 ∧ (after (.flash 1 1) s).groups[(1 : Fin 32)].target = .go) := by decide +kernel

/-- DIRECT_ENTER in FLASH and in PLAN; DIRECT_EXIT in PLAN and in DIRECT_DRIVE with no departure and with each. -/
theorem witness_DirectDriveEntered : (inMode .flash).port.inService = none ∧ (taken 0x13 1 (inMode .flash)).jm.mode ≠ .plan ∧
    coord.port.inService = none ∧ (taken 0x13 1 coord).jm.mode = .plan ∧ (taken 0x13 1 coord).jm.departure = none ∧
    demandedNow (taken 0x13 1 coord) = .none ∧ (taken 0x15 1 coord).jm.mode ≠ .directDrive ∧
    (taken 0x15 1 (inMode .directDrive)).jm.mode = .directDrive ∧ (taken 0x15 1 (inMode .directDrive)).jm.departure = none ∧
    (∀ d ∈ [Dest.flash, .dark, .startRed],
      (taken 0x15 1 (setMode (inMode .directDrive) fun j => { j with departure := some ⟨d, .controller⟩ })).jm.mode =
        .directDrive ∧
      (taken 0x15 1 (setMode (inMode .directDrive) fun j => { j with departure := some ⟨d, .controller⟩ })).jm.departure =
        some ⟨d, .controller⟩) ∧ live started 2 = true := by decide +kernel

/-- A departure with a group not yet RED, with every group RED, and the schedule's with the schedule mode at PLAN and at FLASH. -/
theorem witness_DirectDriveEntered_departs :
    (∀ x ∈ [(Dest.flash, Reason.schedule, SchedMode.plan, Mode.startRed), (.dark, .schedule, .plan, .startFlash),
        (.flash, .schedule, .flash, .flash), (.dark, .controller, .plan, .dark), (.startRed, .controller, .plan, .startRed)],
      let s := setMode (allRed (inMode .plan)) fun j => { j with departure := some ⟨x.1, x.2.1⟩, schedMode := x.2.2.1 }
      (∀ g : Fin 32, live s g = true → s.groups[g].aspect = .red) ∧ (judgeDeparture s).jm.mode = x.2.2.2) ∧
    (let s := setMode (showing (allRed (inMode .plan)) 0 .amber .stop 5) fun j => { j with departure := some ⟨.flash, .schedule⟩ }
     live s 0 = true ∧ s.groups[(0 : Fin 32)].aspect ≠ .red) := by decide +kernel

/-- DIRECT_TARGET with 0 and 33 entries, in another mode, with groups 0 and 33, with an UNUSED group, with two conflicting GO
entries, and with entries that name group 1 twice. -/
theorem witness_TargetsHanded : (allRed (inMode .directDrive)).port.inService = none ∧ coord.port.inService = none ∧
    ¬ (1 ≤ ([] : List (Nat × Nat)).length) ∧ ¬ ((List.replicate 33 (1, 0)).length ≤ 32) ∧
    (taken 0x14 1 coord).jm.mode ≠ .directDrive ∧ (taken 0x14 1 (allRed (inMode .directDrive))).jm.mode = .directDrive ∧
    (∃ e ∈ [((33 : Nat), (0 : Nat))], e.1 = 0 ∨ 32 < e.1) ∧ (∃ e ∈ [((0 : Nat), (0 : Nat))], e.1 = 0 ∨ 32 < e.1) ∧
    (∀ e ∈ [((32 : Nat), (0 : Nat))], 1 ≤ e.1 ∧ e.1 ≤ 32) ∧
    (∃ e ∈ [((32 : Nat), (0 : Nat))], badTarget (allRed (inMode .directDrive)) e = true) ∧
    (∀ e ∈ [((1 : Nat), (0 : Nat)), (2, 0)], 1 ≤ e.1 ∧ e.1 ≤ 32 ∧ badTarget (allRed (inMode .directDrive)) e = false) ∧
    GoRefused (taken 0x14 1 (allRed (inMode .directDrive))) [(1, 0)] 1 ∧
    ¬ GoRefused (taken 0x14 1 (allRed (inMode .directDrive))) [] 0 ∧
    (∀ e ∈ [((1 : Nat), (0 : Nat)), (1, 1), (2, 0)],
      1 ≤ e.1 ∧ e.1 ≤ 32 ∧ badTarget (allRed (inMode .directDrive)) e = false) ∧
    ¬ GoRefused (taken 0x14 1 (allRed (inMode .directDrive))) [(1, 0), (1, 1)] 1 ∧
    [((1 : Nat), (0 : Nat)), (1, 1), (2, 0)] = [(1, 0)] ++ (num (0 : Fin 32), 1) :: [(2, 0)] ∧
    Target.ofCode 1 = some .stop ∧ (∀ e ∈ [((2 : Nat), (0 : Nat))], e.1 ≠ num (0 : Fin 32)) := by decide +kernel

/-- Each target handed in each aspect to a vehicle and to a pedestrian group: a change and none, from GREEN and from GREEN_FLASH. -/
theorem witness_TargetsHanded_each : live started 0 = true ∧ live started 2 = true ∧ live started 3 = false ∧
    (∀ x ∈ [(Aspect.dark, Target.go, Aspect.red), (.flashAmber, .stop, .red), (.amber, .go, .amber), (.green, .stop, .green),
        (.green, .flash, .flashAmber), (.flashAmber, .flash, .flashAmber), (.green, .dark, .dark)],
      let s := showing started 0 x.1 .go 7
      let r := (handTarget s 0 x.2.1).groups[(0 : Fin 32)]
      r.aspect = x.2.2 ∧ r.inAspect = (if x.1 = x.2.2 then 7 else 0) ∧
      r.sinceGreen = if x.1 = .green ∧ x.2.2 ≠ .green then 0 else 7) ∧
    (let s := showing runEnds 2 .greenFlash .stop 7
     (handTarget s 2 .flash).groups[(2 : Fin 32)].aspect = .dark ∧ (handTarget s 2 .flash).clearRuns[(2 : Fin 32)] = none) := by
  decide +kernel

/-- Group 1 handed GO and then FLASH by one list: lit by the last, as the fold of the two gives it. -/
theorem witness_TargetsHanded_folded :
    (let s := allRed (inMode .directDrive)
     let u := after (.directTarget 1 [(1, 0), (1, 2)]) s
     u.groups[(0 : Fin 32)].aspect = .flashAmber ∧ u.groups[(0 : Fin 32)].inAspect = 0 ∧
     u.groups = (handTarget (handTarget (taken 0x14 1 s) 0 .go) 0 .flash).groups) ∧ Target.ofCode 2 = some .flash := by
  decide +kernel

/-- A list whose one GO is in no conflict. -/
theorem witness_TargetsHanded_done (g : Fin 32) (before after : List (Nat × Nat))
    (h : [((2 : Nat), (0 : Nat))] = before ++ (num g, 0) :: after) :
    ¬ GoRefused (taken 0x14 1 (allRed (inMode .directDrive))) before g := by
  cases before with
  | nil =>
    have hg : num g = 2 := by simpa using (congrArg List.head? h).symm
    have : g = 1 := Fin.ext (by have : g.val + 1 = 2 := hg; omega)
    subst this
    decide +kernel
  | cons x l => simp at h

/-- A junction run and a clearance run at the end of a step, and a junction run one pulse short of it. -/
theorem witness_PatternsSynced : started.port.inService = none ∧ pulseStands (atP runEnds) = true ∧
    (runSlot (atP runEnds) (atP runEnds).junctionRun).duration ≤ (atP runEnds).junctionRun.time ∧
    started.junctionRun.time < (runSlot started started.junctionRun).duration ∧ pulseStands runEnds = false ∧
    (atP runEnds).clearRuns[(2 : Fin 32)] = some ⟨1, 1, 4, false⟩ ∧ (atP runEnds).clearRuns[(1 : Fin 32)] = none ∧
    (runSlot (atP runEnds) ⟨1, 1, 4, false⟩).duration ≤ (⟨1, 1, 4, false⟩ : Run).time ∧
    ((⟨1, 1, 3, false⟩ : Run).time < (runSlot runEnds ⟨1, 1, 3, false⟩).duration) := by decide +kernel

/-- Lists of 0, 1, 96 and 97 circuits, of circuits 0, 96 and 97, not in the map and with no map; a code of no tap; and limits at either end. -/
theorem witness_LearningSet : started.port.inService = none ∧ ¬ 1 ≤ ([] : List Nat).length ∧
    ¬ (List.replicate 97 1).length ≤ 96 ∧ (List.replicate 96 1).length ≤ 96 ∧ (∃ n ∈ [97], n = 0 ∨ 96 < n) ∧
    (∃ n ∈ [0], n = 0 ∨ 96 < n) ∧ (∀ n ∈ [1, 96], ¬ (n = 0 ∨ 96 < n)) ∧ fitted.map = none ∧ fitted.port.inService = none ∧
    started.map ≠ none ∧ inMap started 95 = false ∧ (∀ c : Fin 96, num c ∈ [1, 8] → inMap started c = true) ∧
    Tap.ofCode 2 = none ∧ Tap.ofCode 1 = some .dim ∧
    (let near (lo hi n : Nat) : Nat := if n < lo then lo else if hi < n then hi else n
     near 1 1000 0 < near 8 255 7 ∧ near 8 255 256 ≤ near 1 1000 1001 ∧ near 8 255 8 = 8 ∧ near 1 1000 8 = 8 ∧
     near 8 255 255 = 255 ∧ near 1 1000 1000 = 1000) ∧
    (learning 1000 0 100 8).prov.learn[(0 : Fin 96)].state = .learning ∧ (learning 1000 0 100 8).port.inService = none ∧
    (learning 1000 0 100 8).prov.learn[(7 : Fin 96)].state ≠ .learning := by decide +kernel

/-- ACK_FAULT of kinds 0 and 22, of group 33, and of group 1 with and without a record. -/
theorem witness_FaultsAcknowledged : (withRecord .clearedUnack).port.inService = none ∧ Kind.ofNumber 0 = none ∧
    Kind.ofNumber 22 = none ∧ Kind.ofNumber 6 = some .unexpectedGreen ∧ subjectOk .unexpectedGreen 33 = false ∧
    subjectOk .unexpectedGreen 1 = true ∧ subjectOk .unexpectedGreen 32 = true ∧
    findSlot (taken 0x19 1 (withRecord .clearedUnack)) .unexpectedGreen 1 = some 0 ∧
    findSlot (taken 0x19 1 (withRecord .clearedUnack)) .unexpectedGreen 32 = none := by decide +kernel

theorem witness_FaultsAcknowledged_latch : latched.port.inService = none ∧ ofNum 96 0 = none ∧ ofNum 96 97 = none ∧
    ofNum 96 96 = some (95 : Fin 96) ∧ inMap latched 95 = false ∧ ofNum 96 2 = some (1 : Fin 96) ∧
    latched.cable.circuits[(1 : Fin 96)].retry ≠ .latched ∧ ofNum 96 1 = some (0 : Fin 96) ∧ inMap latched 0 = true ∧
    latched.cable.circuits[(0 : Fin 96)].retry = .latched ∧ (1 : Fin 96) ≠ 0 := by decide +kernel

/-- FORWARD_SET of 13 and 12 entries, of units 0, 12 and 13; PASS of 49 and 48 bytes, of units 0, 1 and 12. -/
theorem witness_UnitsAddressed : started.port.inService = none ∧ 12 < (List.replicate 13 1).length ∧
    (List.replicate 12 12).length ≤ 12 ∧ (∃ n ∈ [13], n = 0 ∨ 12 < n) ∧ (∃ n ∈ [0], n = 0 ∨ 12 < n) ∧
    (∀ n ∈ List.replicate 12 12, 1 ≤ n ∧ n ≤ 12) ∧ 48 < (List.replicate 49 (0 : Byte)).length ∧
    (List.replicate 48 (0 : Byte)).length ≤ 48 ∧ ofNum 12 0 = none ∧ ofNum 12 1 = some (0 : Fin 12) ∧
    ofNum 12 12 = some (11 : Fin 12) ∧ polled.port.inService = none ∧ polled.bus.slot = .empty ∧
    polled.bus.units[(0 : Fin 12)].state = .admitted := by decide +kernel

/-- The last exchange and the last roll call of a round with no PASS, one due to an ADMITTED unit, and one due to a unit that is not. -/
theorem witness_UnitsAddressed_round :
    (∀ x ∈ [(PassSlot.empty, 0), (.waiting ⟨0, 0x40, [], 5⟩ true, 1), (.waiting ⟨1, 0x40, [], 5⟩ true, 2)],
      let s := setBus polledLocked fun b => { b with slot := x.1 }
      s.bus.round.active = true ∧ s.bus.round.poll = [] ∧ s.bus.round.isRoll = false ∧ s.bus.round.roll = [] ∧
      s.bus.round.finished = false ∧ s.bus.round.awaiting = some 0 ∧ s.bus.round.called = none ∧ s.bus.slot = x.1 ∧
      (let t := after (.senseMiss 0) (setBus s fun b => { b with units := put b.units 0 { b.units[0] with miss := 0 } })
       t.bus.units[(0 : Fin 12)].state = .admitted ∧ t.bus.units[(1 : Fin 12)].state ≠ .admitted ∧
       t.bus.sent.length = if x.2 = 1 then 1 else 0)) ∧
    (let s := setBus calling fun b => { b with round := { b.round with roll := [] } }
     s.bus.round.active = true ∧ s.bus.round.poll = [] ∧ s.bus.round.isRoll = false ∧ s.bus.round.roll = [] ∧
     s.bus.round.finished = false ∧ s.bus.round.awaiting = none ∧ s.bus.round.called = some 0) := by decide +kernel

theorem witness_ClockSet : started.port.inService = none ∧ Source.ofCode 2 = none ∧ Source.ofCode 0 = some .mains ∧
    Source.ofCode 1 = some .crystal ∧ ((6 : Nat) < 7 ∨ (86399999 : Nat) < 0) ∧ ((6 : Nat) < 6 ∨ 86399999 < 86400000) ∧
    (6 : Nat) ≤ 6 ∧ 86399999 ≤ 86399999 ∧ started.clock.weekday ≤ 6 ∧ started.clock.ms ≤ 86399999 := by decide +kernel

/-- SET_TIME with no plan running, and with one by steps at both ends of 2000 ms, of 0 and of 1 ms either way. -/
theorem witness_ClockSet_step : started.eng.running = none ∧ isolated.eng.running = some 0 ∧
    (∀ s ∈ [isolated, coord], ∀ d ∈ [(41997999, (-2001 : Int)), (41998000, -2000), (41999999, -1), (42000000, 0), (42000001, 1),
        (42002000, 2000), (42002001, 2001)],
      let s : State := { s with clock := { s.clock with weekday := 3, ms := 42000000 } }
      s.port.inService = none ∧ s.eng.running ≠ none ∧ d.1 ≤ 86399999 ∧ timeStep s 3 d.1 = d.2) := by decide +kernel

/-- The transmitter free with each class ready alone, and sending each kind of frame. -/
theorem witness_PortMoves : (after .decisecondPulse started).port.tx = none ∧ State.reset.port.receiver = .hunting ∧ (0x7D : Byte) ≠ 0x7E ∧
    (after (.frameBegins 0x7E) State.reset).port.receiver = .receiving ∧
    (after (.readStatus 1) started).port.tx ≠ none ∧ freeWithAlert.port.tx = none ∧ freeWithAlert.port.replies = [] ∧
    freeWithAlert.port.alert ≠ none ∧ started.port.tx = none ∧ started.port.replies = [] ∧ started.port.alert = none ∧
    started.bus.queue = [] ∧ started.bus.slot = .empty ∧
    (setBus started fun b => { b with slot := .answered ⟨0, 0x40, [], 1⟩ .timeout [] }).port.alert = none := by decide +kernel

/-- A settling whose summary brings an ALERT (the count of unacknowledged faults and ALARM), one that brings none, and one with a slot READY whose
summary changes in the clock's UNSET flag alone. -/
theorem witness_PortMoves_settled :
    (let t := settle (withRecord .activeUnack)
     (summaryNow t).unack ≠ (withRecord .activeUnack).port.summary.unack ∧ t.port.summary = summaryNow t ∧
     t.port.alert = some ⟨summaryNow t, 1, [1, 2, 3, 4, 5, 6, 7, 8]⟩) ∧
    (let s := settle started
     let t := setPort s fun p => { p with alert := some ⟨p.summary, 0, []⟩ }
     let d := ({ t with clock := { t.clock with unset := !t.clock.unset } } : State)
     settle s = s ∧ (setPort s fun p => { p with alert := none }).port.alert = none ∧ settle t = t ∧
     (settle d).port.alert = some ⟨summaryNow d, 0, []⟩ ∧ summaryNow d ≠ s.port.summary) := by decide +kernel

theorem witness_MainsFaults : 25 ≤ (mains 25 0 false none).mains.outOfBand ∧ (mains 25 0 false none).mains.freqRaised = false ∧
    250 ≤ (mains 0 250 true none).mains.inBand ∧ (mains 0 250 true none).mains.freqRaised = true ∧
    State.reset.mains.gap = true ∧ (mains 0 0 true (some 50)).mains.interRaised = true ∧
    (mains 0 0 true (some 50)).mains.sinceGap = some 50 ∧ 50 ≤ 50 := by decide +kernel

/-- An edge half a period after the last window start, one microsecond less, one that raises the fault and one that ends a gap. -/
theorem witness_EdgesCounted :
    (let s := lockedAt 0
     inBand s 18868 = true ∧ inBand s 21276 = true ∧ inBand s 21277 = false ∧ inBand s 18867 = false ∧ s.mains.gap = false ∧
     s.mains.lastWindow.getD 0 + (if s.tables.startUp.mains = 1 then 8333 else 10000) ≤ s.mains.lastEdge + 10000 ∧
     ¬ (s.mains.lastWindow.getD 0 + (if s.tables.startUp.mains = 1 then 8333 else 10000) ≤ s.mains.lastEdge + 9999) ∧
     s.mains.timebase = .locked ∧ ¬ 25 ≤ s.mains.outOfBand + 1 ∧ ¬ 250 ≤ s.mains.inBand + 1) ∧
    25 ≤ (lockedAt 24).mains.outOfBand + 1 ∧ (lockedAt 24).mains.freqRaised = false ∧
    State.reset.mains.gap = true ∧ State.reset.mains.freqRaised = false := by decide +kernel

/-- The return of mains after a gap of the restart threshold and one millisecond less, in each mode, with no departure and with each. -/
theorem witness_EdgesCounted_return :
    (99999 : Nat) / 1000 < 100 * started.tables.startUp.restart ∧ 100 * started.tables.startUp.restart ≤ 1000000 / 1000 ∧
    (∀ m ∈ [Mode.flash, .dark, .startFlash, .startRed, .plan, .directDrive],
      (setMains (inMode m) fun r => { r with gap := true }).mains.gap = true ∧ (inMode m).jm.mode = m) ∧
    (∀ d ∈ [Dest.flash, .dark, .startRed], ∀ r ∈ [Reason.schedule, .controller],
      let s := setMains (setMode (inMode .directDrive) fun j => { j with departure := some ⟨d, r⟩ }) fun r => { r with gap := true }
      s.mains.gap = true ∧ s.jm.departure = some ⟨d, r⟩ ∧ s.jm.schedMode = .plan ∧ demandedNow s = .none) := by decide +kernel

theorem witness_SubstituteWindows : (lockedAt 0).mains.timebase = .locked ∧ (lockedAt 0).mains.gap = false ∧
    State.reset.mains.timebase = .substitute ∧ State.reset.mains.gap = true ∧
    (setMains State.reset fun m => { m with gap := false }).mains.gap = false := by decide +kernel

/-- A gap that begins in SUBSTITUTE, with an on-run to clear. -/
theorem witness_SubstituteWindows_gap :
    (let s := setMains (setProv started 0 fun r => { r with onRun := 3 }) fun m => { m with gap := false }
     s.mains.timebase = .substitute ∧ s.mains.gap = false ∧ s.prov.circuits[(0 : Fin 96)].onRun = 3 ∧
     (after .mainsGapBegin s).prov.circuits[(0 : Fin 96)].onRun = 0 ∧ (after .mainsGapBegin s).bus.seq = s.bus.seq) := by
  decide +kernel

/-- A window start at the count of the pulse and one short of it, at 50 and 60 Hz; the count after a gap at 50 with the fault raised; and a round
with a unit to poll, with units to call, with neither, and with the bus silent. -/
theorem witness_SubstituteWindows_work :
    (let s := setMains started fun m => { m with windowCount := 3, interRaised := true, sinceGap := some 49 }
     let t := setMains started fun m => { m with windowCount := 4 }
     s.tables.startUp.mains ≠ 1 ∧ s.mains.windowCount + 1 < 5 ∧ 5 ≤ t.mains.windowCount + 1 ∧
     s.mains.interRaised = true ∧ s.mains.sinceGap.map (fun n => min 50 (n + 1)) = some 50 ∧ t.mains.interRaised = false ∧
     (after .substituteWindowStart s).mains.windowCount = 4 ∧ (after .substituteWindowStart s).mains.interRaised = false ∧
     (after .substituteWindowStart t).mains.windowCount = 0 ∧
     pulseStands (after .substituteWindowStart t) = true) ∧
    (∀ x ∈ [(4, 5), (5, 0)],
      (after .substituteWindowStart (setMains { started with tables := { tables with
        startUp := { tables.startUp with mains := 1 } } } fun m => { m with windowCount := x.1 })).mains.windowCount = x.2) ∧
    polled.jm.started = true ∧ ((idx 12).filter fun u => decide (polled.bus.units[u].state = .admitted)) = [0] ∧
    (let s := setBus started fun b => { b with sinceRoll := 49, units := put b.units 0 { b.units[0] with state := .expected } }
     ((idx 12).filter fun u => decide (s.bus.units[u].state = .admitted)) = [] ∧
     50 ≤ min 60 (s.bus.sinceRoll + 1) ∧
     ((idx 12).filter fun u => decide (s.bus.units[u].state = .expected ∨ s.bus.units[u].state = .mismatch ∨
       s.bus.units[u].state = .lost)) = [0] ∧ (after .substituteWindowStart s).bus.sent = [.rollCall 0]) ∧
    min 60 (started.bus.sinceRoll + 1) < 50 ∧ ((idx 12).filter fun u => decide (started.bus.units[u].state = .admitted)) = [] ∧
    fitted.jm.started = false := by decide +kernel

/-- A window start while the bus runs, with DIM demanded and unit 1 without its references, unit 2 UNUSED, and with BRIGHT. -/
theorem witness_SubstituteWindows_dim :
    (let s : State := { polled with sched := { polled.sched with dimOverride := some .dim, effDim := .dim } }
     let t := after .substituteWindowStart s
     t.bus.seq ≠ s.bus.seq ∧ s.jm.started = true ∧ s.bus.units[(0 : Fin 12)].state ≠ .unused ∧
     s.bus.units[(2 : Fin 12)].state = .unused ∧ t.sched.effDim = .dim ∧
     circuitAt s 0 0 = some 0 ∧ s.tables.circuit[(0 : Fin 96)].proving = 1 ∧
     s.tables.reference[(0 : Fin 96)].dim.held ≠ 1 ∧ s.prov.learn[(0 : Fin 96)].state ≠ .learning ∧
     s.bus.units[(0 : Fin 12)].dimRaised = false ∧ t.bus.units[(0 : Fin 12)].dimRaised = true) ∧
    (after .substituteWindowStart State.reset).bus.seq ≠ State.reset.bus.seq ∧ State.reset.jm.started = false ∧
    (after .substituteWindowStart (lockedAt 0)).bus.seq = (lockedAt 0).bus.seq ∧ polled.sched.effDim ≠ .dim := by decide +kernel

/-- No exchange awaited; a frame for another window; a valid frame, in a gap and outside one. -/
theorem witness_SenseTaken : started.bus.round.awaiting = none ∧ polled.bus.round.awaiting = some 0 ∧
    polledLocked.bus.round.awaiting = some 0 ∧ sense.crcGood = true ∧ sense.sizeGood = true ∧ sense.unit = num (0 : Fin 12) ∧
    sense.window = (if (logOf polledLocked 0 ((polledLocked.bus.seq + 254) % 255)).isSome = true
      then (polledLocked.bus.seq + 254) % 255 else 255) ∧
    ({ sense with window := 254 }).window ≠ (if (logOf polledLocked 0 ((polledLocked.bus.seq + 254) % 255)).isSome = true
      then (polledLocked.bus.seq + 254) % 255 else 255) ∧
    polledLocked.bus.lastInGap = false ∧ polledLocked.bus.windowInGap = false ∧ polled.mains.gap = true ∧
    (setBus polled fun b => { b with windowInGap := true }).bus.windowInGap = true := by decide +kernel

/-- A test in flight for the window the frame governs, at the frame of a gap window. -/
theorem witness_SenseTaken_gap :
    (let s := setCable (setBus polled fun b => { b with windowInGap := true }) 0 fun r => { r with inFlight := some 253 }
     s.cable.circuits[(0 : Fin 96)].inFlight = some ((s.bus.seq + 254) % 255) ∧ circuitAt s 0 0 = some 0) := by
  decide +kernel

/-- Unit 1's frame for window 253 with circuit 1 ON in it and in the one before, its on-run one short of the settling count, LEARNING at the
tap with its ring one short of full, and a candidate one short of its count; and circuit 2, never ON. -/
def proven : State :=
  let s := setUnit polledLocked 0 fun x =>
    { x with log := [⟨252, .bright, 1, 0, 0, 0, true⟩, ⟨253, .bright, 1, 0, 0, 0, true⟩] }
  setLearn (setProv s 0 fun r => { r with cand := some .ok, run := 24, onRun := 1 }) 0 fun l =>
    { l with state := .learning, nMin := 8, nMax := 20, count := 7, ring := List.replicate 7 (1000, 200) }

/-- A frame for that window in which circuit 1 takes its reference's current. -/
def lampFrame : SenseFrame :=
  { sense with samples := put sense.samples 0 ⟨1000, 0, 0, true, false, false, 0⟩ }

/-- R126, R127, R134, R138, R139: the last window is the one before at the tap; OK is confirmed and learning converges. -/
theorem witness_FrameProved :
    (let s := { proven with prov := { proven.prov with lastWin := put proven.prov.lastWin 0 (some (252, .bright)) } }
     let r := proveFrame s 0 lampFrame lampFrame.samples
     circuitAt s 0 0 = some 0 ∧ (∀ t : Fin 8, circuitAt s 0 t = some 0 → t = 0) ∧ s.prov.lastWin[(0 : Fin 12)] = some (252, .bright) ∧
     (logOf s 0 253).isSome = true ∧ lampFrame.samples[(0 : Fin 8)].driven = true ∧ lampFrame.samples[(0 : Fin 8)].ovc = false ∧
     0 ∈ judgedBy s 0 lampFrame lampFrame.samples ∧ 0 ∈ learnedBy s 0 lampFrame lampFrame.samples ∧
     (judgeWindow s 0 .bright 1000 200).1 = some .ok ∧ (1 : Fin 96) ∉ judgedBy s 0 lampFrame lampFrame.samples ∧
     r.prov.circuits[(0 : Fin 96)].verdict = .ok ∧ r.prov.learn[(0 : Fin 96)].state = .done) := by decide +kernel

/-- R148, R149, R152, R155: circuit 1 trips, circuit 2's test finds it open at the confirm count, and the leakage stands above its threshold. -/
theorem witness_FrameSupervised :
    (let s := setCable (setCable proven 1 fun r => { r with inFlight := some 253, cand := some .isOpen, mrun := 2 }) 0 fun r =>
       { r with trips := 2 }
     let xs := put (put lampFrame.samples 0 ⟨1000, 0, 0, true, true, false, 0⟩) 1 ⟨0, 0, 255, false, false, true, 0⟩
     let r := superviseFrame s 0 253 { lampFrame with leakage := 255 } xs
     circuitAt s 0 0 = some 0 ∧ (∀ t : Fin 8, circuitAt s 0 t = some 0 → t = 0) ∧
     circuitAt s 0 1 = some 1 ∧ (∀ t : Fin 8, circuitAt s 0 t = some 1 → t = 1) ∧
     xs[(0 : Fin 8)].ovc = true ∧ s.cable.circuits[(0 : Fin 96)].retry = .normal ∧ xs[(1 : Fin 8)].tested = true ∧
     s.tables.cable.leakThreshold < 255 ∧ s.tables.cable.openThreshold ≤ 255 ∧ 1 ∈ testedBy s 0 253 xs ∧
     2 ∈ litBy s 0 253 xs ∧ 0 ∉ litBy s 0 253 xs ∧ r.cable.circuits[(0 : Fin 96)].retry = .retryWait ∧
     r.cable.circuits[(1 : Fin 96)].openRaised = true ∧ r.cable.leak[(0 : Fin 12)].run = 1) := by decide +kernel

/-- Entry 1, of unit 2, at its debounce with its reading ON; a unit in the forward set with 15 and 16 reports waiting, and one outside it. -/
theorem witness_FrameReported :
    (let s := reading 0 false 0
     inputUnit s 0 = some 1 ∧ s.tables.input[(0 : Fin 64)].debounce = 1 ∧ inputUnit s 1 ≠ some 1 ∧
     s.tables.input[(0 : Fin 64)].input = num (0 : Fin 8) ∧ mem ({ sense with inputs := 255 }).inputs 0 = true ∧
     s.tables.input[(0 : Fin 64)].kind = 1) ∧
    (let s := setBus polled fun b => { b with forward := 1 }
     mem s.bus.forward (0 : Fin 12) = true ∧ mem s.bus.forward (1 : Fin 12) = false ∧ s.bus.queue.length < 16 ∧
     circuitAt s 0 0 = some 0 ∧ circuitAt s 0 7 = none) := by decide +kernel

/-- A unit not awaited; the last miss before the limit and the one that reaches it; a miss in a gap. -/
theorem witness_MissesCounted : polledLocked.bus.round.awaiting ≠ some 1 ∧ polledLocked.bus.round.awaiting = some 0 ∧
    polledLocked.mains.gap = false ∧ polledLocked.bus.lastInGap = false ∧ polledLocked.bus.units[(0 : Fin 12)].state = .admitted ∧
    polledLocked.tables.cable.missLimit ≤ min 10 (polledLocked.bus.units[(0 : Fin 12)].miss + 1) ∧
    min 10 ((missed 1).bus.units[(0 : Fin 12)].miss + 1) < (missed 1).tables.cable.missLimit ∧
    (missed 1).bus.round.awaiting = some 0 ∧ polled.bus.round.awaiting = some 0 ∧ polled.mains.gap = true ∧
    (0 : Fin 12) ∉ polledLocked.bus.round.poll ∧ (1 : Fin 12) ≠ 0 ∧
    inputUnit polledLocked 1 = some 0 ∧ inputUnit polledLocked 0 ≠ some 0 := by decide +kernel

/-- Circuit 1 of the unit lost, FORCED and not, with a test in flight; and circuit 7, of another unit. -/
theorem witness_MissesCounted_circuits : circuitAt polledLocked 0 0 = some 0 ∧
    (∀ p : Fin 8, circuitAt polledLocked 0 p ≠ some 6) ∧ polledLocked.bus.round.poll = [] ∧
    (setProv polledLocked 0 fun r => { r with verdict := .forced }).prov.circuits[(0 : Fin 96)].verdict = .forced ∧
    polledLocked.prov.circuits[(0 : Fin 96)].verdict ≠ .forced ∧
    (let s := setCable (setProv polledLocked 0 fun r => { r with verdict := .out, fault := some .out }) 0 fun r =>
       { r with inFlight := some 253 }
     (after (.fiuLost 0) s).prov.circuits[(0 : Fin 96)].verdict = .unknown ∧
     (after (.fiuLost 0) s).cable.circuits[(0 : Fin 96)].inFlight = none) := by decide +kernel

/-- A roll call of unit 1 with unit 2 to follow; a round in which one is due. -/
theorem witness_UnitsAdmitted : calling.bus.round.active = true ∧ calling.bus.round.called = some 0 ∧
    calling.bus.round.awaiting = none ∧ calling.bus.round.finished = false ∧ calling.bus.round.poll = [] ∧
    calling.bus.round.isRoll = false ∧ calling.bus.round.roll = [1] ∧ calling.bus.round.called ≠ some 1 ∧
    started.bus.round.called = none ∧ (7 : Nat) = calling.tables.fiu[(0 : Fin 12)].typeCode ∧
    (8 : Nat) ≠ calling.tables.fiu[(0 : Fin 12)].typeCode ∧ calling.bus.units[(0 : Fin 12)].state ≠ .mismatch ∧
    num (0 : Fin 12) = 1 ∧ (if calling.tables.startUp.mains = 1 then 60 else 50) ≤ calling.bus.sinceRoll ∧
    (let s := setBus rollDue fun b => { b with units := put b.units 1 { b.units[1] with state := .mismatch } }
     s.bus.round.active = true ∧ (if s.tables.startUp.mains = 1 then 60 else 50) ≤ s.bus.sinceRoll ∧
     s.bus.round.awaiting = none ∧ s.bus.round.called = none ∧ s.bus.round.poll = [] ∧ unadmitted s = 1 :: []) ∧
    (if rollDue.tables.startUp.mains = 1 then 60 else 50) ≤ rollDue.bus.sinceRoll ∧ unadmitted rollDue = [] ∧
    (let s := setBus polledLocked fun b => { b with round := { b.round with isRoll := true } }
     s.bus.round.active = true ∧ s.bus.round.awaiting = some 0 ∧ s.bus.round.called = none ∧
     s.bus.round.finished = false ∧ s.bus.round.poll = [] ∧ s.bus.round.isRoll = true) := by decide +kernel

/-- A unit with a circuit due for a test, one spare terminal, and unit 2 to be polled after the unit awaited. -/
theorem witness_DriveComposed :
    (let s := setCable (inMode .flash) 6 fun r => { r with sinceTest := 65535 }
     circuitAt s 1 0 = some 6 ∧ circuitAt s 1 1 = some 7 ∧ circuitAt s 1 7 = none ∧ (composeRecord s 1).1.test = 1 ∧
     testEligible s 1 s.bus.seq (composeRecord s 1).1.on (0, 6) = true) ∧
    (let s := setBus polled fun b => { b with round := { b.round with poll := [1] } }
     s.bus.round.active = true ∧ s.bus.round.awaiting = some 0 ∧ s.bus.round.called = none ∧
     s.bus.round.finished = false ∧ s.bus.round.poll = 1 :: []) ∧ started.jm.started = true ∧ started.bus.sent = [] ∧
    (let s := setBus polled fun b => { b with round := { b.round with poll := (idx 12).tail } }
     s.bus.round.active = true ∧ s.bus.round.awaiting.isSome = true ∧ s.bus.round.called = none ∧
     s.bus.round.finished = false ∧ s.bus.round.poll.length ≤ 11) := by decide +kernel

/-- A circuit tested only with the test enabled, its interval run, no test in flight, and its bit clear in the DRIVE composed and in the one logged for
the window. -/
theorem witness_DriveComposed_eligible :
    (let s := setCable (inMode .flash) 6 fun r => { r with sinceTest := 65535 }
     let can (x : State) (on : BitVec 8) : Bool := testEligible x 1 x.bus.seq on (0, 6)
     can s 0 = true ∧ can s 2 = true ∧ can s 1 = false ∧ can (setCable s 6 fun r => { r with inFlight := some 9 }) 0 = false ∧
     can (setCable s 6 fun r => { r with sinceTest := s.tables.cable.testInterval }) 0 = true ∧
     can (setCable s 6 fun r => { r with sinceTest := s.tables.cable.testInterval - 1 }) 0 = false ∧
     can (setUnit s 1 fun x => { x with log := [⟨s.bus.seq, .bright, 1, 0, 0, 0, true⟩] }) 0 = false ∧
     can (setUnit s 1 fun x => { x with log := [⟨s.bus.seq, .bright, 2, 0, 0, 0, true⟩] }) 0 = true) := by decide +kernel

/-- Circuits of groups 1 and 3 under each aspect, with the junction flash run in its ON and its OFF step and a clearance run in its ON step. -/
theorem witness_DriveComposed_called :
    (∀ x ∈ [(Aspect.red, [true, false, false]), (.redAmber, [true, true, false]), (.amber, [false, true, false]),
        (.green, [false, false, true]), (.flashAmber, [false, true, false]), (.dark, [false, false, false])],
      let s := showing started 0 x.1 .stop 0
      [called s 0, called s 1, called s 2] = x.2) ∧
    (let s := showing started 0 .flashAmber .flash 0
     runOn s s.junctionRun = true ∧ composedLit s 1 = true ∧
     composedLit { s with junctionRun := ⟨0, 1, 0, false⟩ } 1 = false) ∧
    (let s := showing runEnds 2 .greenFlash .stop 0
     called s 7 = true ∧ s.clearRuns[(2 : Fin 32)] = some ⟨1, 1, 4, false⟩ ∧
     composedLit s 7 = runOn s ⟨1, 1, 4, false⟩) := by decide +kernel

theorem witness_UnitsAddressed_answered : listening.bus.slot = .listening ⟨0, 0x40, [], 5⟩ ∧
    (⟨1, true, 0x40, [9]⟩ : PassFrame).unit = num (0 : Fin 12) ∧
    ¬ ((⟨1, true, 0x41, [9]⟩ : PassFrame).kind = (⟨0, 0x40, [], 5⟩ : PassMsg).kind) ∧
    (∀ m : PassMsg, started.bus.slot ≠ .listening m) :=
  ⟨rfl, rfl, by decide, fun _ h => nomatch h⟩

/-- A window start with group 1's mark set and clear, and one that starts no window. -/
theorem witness_ObservedGreen_window :
    (let s := setGroup polled 0 fun r => { r with seen := true, greenRun := 2 }
     let t := after .substituteWindowStart s
     t.bus.seq ≠ s.bus.seq ∧ live s 0 = true ∧ s.groups[(0 : Fin 32)].seen = true ∧ t.groups[(0 : Fin 32)].raised = true) ∧
    (let s := setGroup polled 0 fun r => { r with quiet := 24, raised := true }
     (after .substituteWindowStart s).bus.seq ≠ s.bus.seq ∧ s.groups[(0 : Fin 32)].seen = false ∧
     (after .substituteWindowStart s).groups[(0 : Fin 32)].raised = false) ∧
    live polled 3 = false ∧ polled.port.configOpen = false ∧
    (after .mainsGapBegin polled).bus.seq = polled.bus.seq := by decide +kernel

/-- With configuration open, a group made UNUSED that acted at the last START still counts, and one in use since then does not (R37, R41). -/
theorem test_window_start_counts_acting_groups :
    (let s := setPort { polled with tables := { tables with group := tablesPor.group } } fun p => { p with configOpen := true }
     let s := setGroup s 0 fun r => { r with seen := true, greenRun := 2 }
     let t := after .substituteWindowStart s
     t.bus.seq ≠ s.bus.seq ∧ live s 0 = false ∧ mem s.acting (0 : Fin 32) = true ∧ t.groups[(0 : Fin 32)].raised = true) ∧
    (let s := setPort { polled with acting := 0 } fun p => { p with configOpen := true }
     let s := setGroup s 0 fun r => { r with seen := true, greenRun := 2 }
     let t := after .substituteWindowStart s
     t.bus.seq ≠ s.bus.seq ∧ live s 0 = true ∧ mem s.acting (0 : Fin 32) = false ∧
     marksOf t.groups[(0 : Fin 32)] = marksOf s.groups[(0 : Fin 32)]) := by decide +kernel

theorem witness_ObservedGreen : live started 0 = true ∧
    (let s := atW (setGroup started 0 fun r => { r with greenRun := 2 })
     live s 0 = true ∧ windowStands s = true ∧ s.tables.cable.greenConfirm ≤ s.groups[(0 : Fin 32)].greenRun ∧
     s.groups[(0 : Fin 32)].raised = false) ∧
    (let s := atW (setGroup started 0 fun r => { r with quiet := 25, raised := true })
     live s 0 = true ∧ windowStands s = true ∧ 25 ≤ s.groups[(0 : Fin 32)].quiet ∧ s.groups[(0 : Fin 32)].raised = true) ∧
    windowStands started = false ∧ (1 : Nat) < started.tables.cable.greenConfirm ∧
    ({ GroupRec.por with seen := true }).seen = true ∧ GroupRec.por.seen = false := by decide +kernel

/-- Each timed end at the pulse at which it falls due; and one pulse short of it. -/
theorem witness_TimedEnds : live started 0 = true ∧ live started 1 = true ∧ live started 2 = true ∧ pulseStands started = false ∧
    (let s := atP (showing (inMode .plan) 0 .green .stop 40)
     live s 0 = true ∧ pulseStands s = true ∧ s.groups[(0 : Fin 32)].aspect = .green ∧
     s.groups[(0 : Fin 32)].target = .stop ∧ s.tables.group[(0 : Fin 32)].safetyMin ≤ s.groups[(0 : Fin 32)].inAspect) ∧
    (let s := atP (showing (inMode .plan) 0 .green .stop 39)
     s.groups[(0 : Fin 32)].inAspect < s.tables.group[(0 : Fin 32)].safetyMin) ∧
    (let s := atP (showing (inMode .plan) 0 .amber .stop 30)
     live s 0 = true ∧ pulseStands s = true ∧ s.groups[(0 : Fin 32)].aspect = .amber ∧
     s.tables.group[(0 : Fin 32)].amber ≤ s.groups[(0 : Fin 32)].inAspect) ∧
    (let s := atP (showing (inMode .plan) 2 .greenFlash .stop 60)
     live s 2 = true ∧ pulseStands s = true ∧ s.groups[(2 : Fin 32)].aspect = .greenFlash ∧
     s.tables.group[(2 : Fin 32)].clearance ≤ s.groups[(2 : Fin 32)].inAspect) ∧
    (let s := atP (showing (inMode .plan) 1 .redAmber .go 10)
     live s 1 = true ∧ pulseStands s = true ∧ s.groups[(1 : Fin 32)].aspect = .redAmber ∧
     s.tables.group[(1 : Fin 32)].redAmber ≤ s.groups[(1 : Fin 32)].inAspect) := by decide +kernel

/-- Group 2 released at the moment its intergreen from group 1 less its red-amber time has run, and one pulse sooner. -/
theorem witness_ReleaseRules :
    (let s := releasing 40
     live s 1 = true ∧ s.groups[(1 : Fin 32)].target = .go ∧ s.groups[(1 : Fin 32)].aspect = .red ∧
     s.tables.group[(1 : Fin 32)].minRed ≤ s.groups[(1 : Fin 32)].inAspect ∧ s.groups[(1 : Fin 32)].inhibited = false ∧
     (∀ i : Fin 32, conflicts s i 1 = true → s.groups[i].aspect ≠ .green ∧ s.groups[i].aspect ≠ .redAmber ∧
       ∀ n ∈ ig s i 1, n ≤ s.groups[i].sinceGreen + if groupType s 1 = .vehicle then s.tables.group[(1 : Fin 32)].redAmber else 0)) ∧
    (conflicts (releasing 39) 0 1 = true ∧ ig (releasing 39) 0 1 = some 50 ∧
     ¬ (50 ≤ (releasing 39).groups[(0 : Fin 32)].sinceGreen +
       if groupType (releasing 39) 1 = .vehicle then (releasing 39).tables.group[(1 : Fin 32)].redAmber else 0)) := by
  decide +kernel

/-- An interstage with its gaining group GREEN, not yet, and inhibited before it; with its losing group RED and not; to the hold step; and a stage
start and an abandoned step. -/
theorem witness_ReleaseRules_interstage :
    (let s := setEng (showing (showing coord 0 .green .go 0) 1 .amber .stop 5) fun e =>
       { e with cur := 0, sub := .interstage, stageOn := false, served := 1, gaining := 1, losing := 2, dwell := true }
     s.eng.running = some 1 ∧ s.eng.sub = .interstage ∧ isHoldStep s 1 s.eng.cur = true ∧
     (interstageProgress s).eng.sub = .min ∧ (interstageProgress s).eng.stageOn = true ∧
     (interstageProgress (showing s 0 .red .go 5)).eng.sub = .interstage) ∧
    (let s := setGroup (setEng (showing (showing isolated 1 .red .go 0) 0 .amber .stop 5) fun e =>
       { e with cur := 0, sub := .interstage, stageOn := false, served := 2, gaining := 2, losing := 1 }) 1 fun r =>
       { r with inhibited := true }
     s.eng.running = some 0 ∧ s.eng.sub = .interstage ∧ isHoldStep s 0 s.eng.cur = false ∧
     (interstageProgress s).eng.sub = .interstage ∧ (interstageProgress s).groups[(1 : Fin 32)].target = .stop ∧
     (interstageProgress (showing s 0 .red .stop 5)).eng.cur = 1 ∧
     (interstageProgress (setEng (showing s 0 .red .stop 5) fun e => { e with orderly := true })).eng.sub = .rest) ∧
    (let s : State := { isolated with latched := 3 }
     (stepOf s 0 s.eng.cur).stage = num (0 : Fin 16) ∧ (stageStart s 0).latched = 2 ∧
     (stageStart s 0).eng.maxElapsed = some 0) := by decide +kernel

theorem witness_TimedEnds_timers : GroupRec.por.inAspectFresh = false ∧ ({ GroupRec.por with inAspectFresh := true }).inAspectFresh = true ∧
    ({ GroupRec.por with aspect := .green }).aspect = .green ∧ GroupRec.por.aspect ≠ .green ∧
    GroupRec.por.sinceGreenFresh = false ∧ ({ GroupRec.por with sinceGreenFresh := true }).sinceGreenFresh = true := by decide

/-- Each mode timer at its limit, with each schedule mode, a VALID governing plan, a VALID fallback alone, and neither VALID. -/
theorem witness_ModeTimers :
    (let s := atP (timed .startFlash 50)
     pulseStands s = true ∧ s.jm.mode = .startFlash ∧ s.tables.startUp.startFlash ≤ s.jm.timer ∧ demandedNow s = .none ∧
     live s 0 = true) ∧ pulseStands (timed .startFlash 50) = false ∧
    (timed .startFlash 49).jm.timer < (timed .startFlash 49).tables.startUp.startFlash ∧
    (let s := allRed (timed .startRed 60)
     s.jm.mode = .startRed ∧ s.tables.startUp.startRed ≤ s.jm.timer ∧ demandedNow s = .none ∧ s.jm.schedMode = .plan ∧
     (∀ g : Fin 32, live s g = true → s.prov.red[g] = .proven ∨ s.prov.red[g] = .degraded) ∧
     s.tables.plan[s.eng.governing].state = .valid) ∧
    (let s := setEng (allRed (timed .startRed 60)) fun e => { e with governing := 7 }
     s.tables.plan[s.eng.governing].state ≠ .valid ∧ s.tables.plan[fallback s].state = .valid ∧
     demandedNow (raiseInvalid s s.eng.governing) = .none) ∧
    (let s : State := { allRed (timed .startRed 60) with
       tables := { tables with plan := Vector.replicate 8 loadedPlan } }
     s.jm.mode = .startRed ∧ s.tables.startUp.startRed ≤ s.jm.timer ∧ demandedNow s = .none ∧ s.jm.schedMode = .plan ∧
     (∀ g : Fin 32, live s g = true → s.prov.red[g] = .proven ∨ s.prov.red[g] = .degraded) ∧
     s.tables.plan[s.eng.governing].state ≠ .valid ∧ s.tables.plan[fallback s].state ≠ .valid ∧
     demandedNow (raiseInvalid (raiseInvalid s s.eng.governing) (fallback s)) ≠ .dark) ∧
    (allRed (timed .startRed 59)).jm.timer < (allRed (timed .startRed 59)).tables.startUp.startRed ∧
    (let s := atP (timed .startRed 160)
     pulseStands s = true ∧ s.jm.mode = .startRed ∧ s.jm.provingTimeout = false ∧
     s.tables.startUp.startRed + s.tables.startUp.provingLimit ≤ s.jm.timer ∧
     ∃ g : Fin 32, live s g = true ∧ s.prov.red[g] ≠ .proven ∧ s.prov.red[g] ≠ .degraded) ∧
    (timed .startRed 159).jm.timer <
      (timed .startRed 159).tables.startUp.startRed + (timed .startRed 159).tables.startUp.provingLimit ∧
    (let s := atP (setMode (inMode .directDrive) fun j => { j with silence := 100 })
     pulseStands s = true ∧ s.jm.mode = .directDrive ∧ s.jm.silent = false ∧
     s.tables.startUp.silence ≤ s.jm.silence ∧ s.jm.departure = none) ∧
    (let s := atP (setMode (inMode .directDrive) fun j => { j with silence := 100, departure := some ⟨.flash, .controller⟩ })
     pulseStands s = true ∧ s.jm.mode = .directDrive ∧ s.jm.silent = false ∧
     s.tables.startUp.silence ≤ s.jm.silence ∧ s.jm.departure ≠ none) ∧
    (99 : Nat) < started.tables.startUp.silence := by decide +kernel

/-- START_RED ended into PLAN with START_PROVING_TIMEOUT raised, and not. -/
theorem witness_ModeTimers_proved : ∀ x ∈ [false, true],
    let s := setMode (allRed (timed .startRed 60)) fun j => { j with provingTimeout := x }
    s.jm.mode = .startRed ∧ s.jm.provingTimeout = x ∧ s.tables.startUp.startRed ≤ s.jm.timer ∧ demandedNow s = .none ∧
    s.jm.schedMode = .plan ∧ s.tables.plan[s.eng.governing].state = .valid ∧
    (∀ g : Fin 32, live s g = true → s.prov.red[g] = .proven ∨ s.prov.red[g] = .degraded) := by decide +kernel

/-- The engine started with a coordinated plan, an isolated one, and with no step wanted. -/
theorem witness_ModeTimers_start :
    FirstFrom (nSteps started 1) (fun k => if 0 < started.tables.plan[(1 : Fin 8)].cycle then (stepOf started 1 k).holdFlag else
      wanted started 1 k) (some 0) ∧
    FirstFrom (nSteps started 0) (fun k => if 0 < started.tables.plan[(0 : Fin 8)].cycle then (stepOf started 0 k).holdFlag else
      wanted started 0 k) (some 0) ∧
    (let s : State := { started with groups := tab fun g => { started.groups[g] with inhibited := true } }
     FirstFrom (nSteps s 0) (fun k => if 0 < s.tables.plan[(0 : Fin 8)].cycle then (stepOf s 0 k).holdFlag else
       wanted s 0 k) none ∧ (engineStart s 0).eng.sub = .rest) ∧
    (engineStart started 1).eng.dwell = true ∧ (engineStart started 0).eng.sub = .interstage ∧
    (timed .startRed 60).jm.provingTimeout = false :=
  ⟨⟨by decide +kernel, by decide +kernel⟩, ⟨by decide +kernel, by decide +kernel⟩,
    ⟨⟨by decide +kernel, by decide +kernel⟩, by decide +kernel⟩, by decide +kernel⟩

/-- A step one pulse short of its minimum, at its minimum, with an orderly stop, gapped out, maxed out and forced off. -/
theorem witness_StepEnds :
    (let s := atP (setEng isolated fun e => { e with minElapsed := 59 })
     s.eng.running = some 0 ∧ s.eng.cur.val < nSteps s 0 ∧ s.eng.minElapsed < (stepOf s 0 s.eng.cur).minGreen ∧
     pulseStands s = true) ∧ pulseStands isolated = false ∧
    (∀ s ∈ [isolated, coord, forcedOffNow, leaving], pulseStands (atP s) = true ∧ (atP s).eng = s.eng ∧
      (atP s).tables = s.tables ∧ (readCounter (atP s)).eng = (readCounter s).eng) ∧
    (let s := atP leaving
     s.eng.running = some 1 ∧ s.eng.cur.val < nSteps s 1 ∧ s.eng.stageOn = true ∧ s.eng.orderly = true ∧
     (stepOf s 1 s.eng.cur).minGreen ≤ s.eng.minElapsed ∧ isHoldStep s 1 s.eng.cur = true) ∧
    isolated.eng.running = some 0 ∧ isolated.eng.cur.val < nSteps isolated 0 ∧ isolated.eng.stageOn = true ∧
    (stepOf isolated 0 isolated.eng.cur).minGreen ≤ isolated.eng.minElapsed ∧
    (setEng isolated fun e => { e with orderly := true }).eng.orderly = true ∧ mem isolated.eng.served 0 = true ∧
    isolated.eng.orderly = false ∧ isolated.eng.stepReq = none ∧ holdStands isolated = false ∧
    isolated.eng.pendingPlan = none ∧ anotherWanted isolated 0 = true ∧ isolated.eng.ext = 0 ∧
    isHoldStep isolated 0 isolated.eng.cur = false ∧ isolated.tables.plan[(0 : Fin 8)].cycle = 0 ∧
    isolated.eng.maxElapsed = some 200 ∧ (stepOf isolated 0 isolated.eng.cur).maxGreen ≤ 200 ∧
    coord.eng.running = some 1 ∧ coord.eng.cur.val < nSteps coord 1 ∧ anotherWanted coord 1 = true ∧
    (stepOf coord 1 coord.eng.cur).minGreen ≤ coord.eng.minElapsed ∧ 0 < coord.tables.plan[(1 : Fin 8)].cycle ∧
    mem (readCounter forcedOffNow).eng.passed forcedOffNow.eng.cur = true ∧ forcedOffNow.eng.running = some 1 ∧
    anotherWanted forcedOffNow 1 = true ∧ holdStands forcedOffNow = false := by decide +kernel

/-- The sub-state of a step: MIN, HOLD, DWELL, EXTEND in a coordinated and in an isolated plan, and REST; and with no stage on. -/
theorem witness_StepEnds_sub :
    (let s := setEng isolated fun e => { e with minElapsed := 59 }
     s.eng.running = some 0 ∧ s.eng.stageOn = true ∧ s.eng.minElapsed < (stepOf s 0 s.eng.cur).minGreen ∧
     (refreshSub s).eng.sub = .min) ∧
    (∀ x ∈ [(held, (1 : Fin 8), Sub.hold), ({ leaving with eng := { leaving.eng with sub := .min } }, 1, .dwell), (coord, 1, .extend),
        (isolated, 0, .extend), (setEng heldAlone fun e => { e with hold := none }, 0, .rest)],
      x.1.eng.running = some x.2.1 ∧ x.1.eng.stageOn = true ∧
      (stepOf x.1 x.2.1 x.1.eng.cur).minGreen ≤ x.1.eng.minElapsed ∧ (refreshSub x.1).eng.sub = x.2.2) ∧
    holdStands held = true ∧ holdStands coord = false ∧ (setEng coord fun e => { e with stageOn := false }).eng.stageOn = false := by
  decide +kernel

/-- The counter read with no step reported, with a step back, with a big step and with a rollover; and no plan running. -/
theorem witness_StepEnds_counter : coord.eng.running = some 1 ∧ coord.tables.plan[(1 : Fin 8)].cycle = 600 ∧
    isolated.tables.plan[(0 : Fin 8)].cycle = 0 ∧ started.eng.running = none ∧
    (let s := forcedOffNow
     counter s 1 = 520 ∧ ((520 : Int) - s.eng.lastReading) % 600 = 1 ∧ (readCounter s).eng.passed = 4 ∧
     (readCounter (setEng s fun e => { e with backStep := true })).eng.passed = 0 ∧
     (readCounter (setEng s fun e => { e with bigStep := true })).eng.passed = 7 ∧
     (readCounter (setEng s fun e => { e with rollover := true })).eng.passed = 4 ∧
     (readCounter (setEng s fun e => { e with rollover := true, lastReading := 499 })).eng.passed = 7) := by decide +kernel

/-- A pulse with the stage started before it, one short of its minimum and at it, extended and not; with the stage just started; in an INTERSTAGE
and in a rest with nothing served. -/
theorem witness_StepEnds_pulse : (stepOf isolated 0 isolated.eng.cur).stage = num (0 : Fin 16) ∧ isolated.eng.stageOn = true ∧
    (stepOf isolated 0 isolated.eng.cur).minGreen ≤ isolated.eng.minElapsed ∧
    (let s := setEng isolated fun e => { e with minElapsed := 59, maxElapsed := none, ext := 5 }
     s.eng.minElapsed < (stepOf s 0 s.eng.cur).minGreen ∧ (enginePulse s true).eng.ext = 4 ∧
     (enginePulse s true).eng.maxElapsed = some 0 ∧ (enginePulse s false).eng.ext = 5) ∧
    (let s := setInput coord 1 fun r => { r with active := true }
     (stepOf s 1 s.eng.cur).stage = num (2 : Fin 16) ∧ extended s 2 = true ∧ (enginePulse s true).eng.ext = 30) ∧
    (setEng isolated fun e => { e with sub := .interstage, stageOn := false }).eng.stageOn = false := by decide +kernel

/-- The end of a step judged with an orderly stop, held, not due, at rest with a plan pending, and with a STEP to NEXT and to a stage; and a search
that reaches step 1. -/
theorem witness_StepEnds_judged : leaving.eng.orderly = true ∧ leaving.eng.cur.val < nSteps leaving 1 ∧
    held.eng.orderly = false ∧ held.eng.stepReq = none ∧ holdStands held = true ∧ held.eng.cur.val < nSteps held 1 ∧
    (let s := setEng heldAlone fun e => { e with hold := none, pendingPlan := some 1, maxElapsed := none }
     s.eng.orderly = false ∧ holdStands s = false ∧ s.eng.cur.val < nSteps s 0 ∧ anotherWanted s 0 = false ∧
     s.tables.plan[(0 : Fin 8)].cycle = 0 ∧ (judgeStepEnd s 0).eng.running = some 1 ∧
     (judgeStepEnd (setEng s fun e => { e with pendingPlan := none }) 0).eng.running = some 0) ∧
    (let s := setEng coord fun e => { e with ext := 5 }
     holdStands s = false ∧ s.eng.stepReq = none ∧ mem s.eng.passed s.eng.cur = false ∧ 0 < s.tables.plan[(1 : Fin 8)].cycle) ∧
    (∀ x ∈ [(StepReq.next, (0 : Fin 16)), (.stage 0, 0), (.stage 1, 1)],
      let s := setEng held fun e => { e with stepReq := some x.1 }
      s.eng.orderly = false ∧ s.eng.cur.val < nSteps s 1 ∧ anotherWanted s 1 = true ∧ (judgeStepEnd s 1).eng.cur = x.2) ∧
    (searchNext held 1 2) = (some 0, true) ∧ (searchNext held 1 0) = (some 2, false) := by decide +kernel

/-- A crystal millisecond with the accumulator one trim short of either end, and with the time of day one millisecond short of midnight. -/
theorem witness_ClockAdvances : effSource State.reset = .crystal ∧ effSource (lockedAt 0) = .mains ∧
    (∀ x ∈ [((999500 : Int), (500 : Int)), (999499, 500), (-999500, -500), (-999499, -500)],
      effSource (clockAt x.1 x.2 86399999) = .crystal ∧
      ∃ n ∈ [((2 : Nat), (0 : Int)), (1, 999999), (0, 0), (1, -999999)],
        n = (if 1000000 ≤ (clockAt x.1 x.2 86399999).clock.acc + (clockAt x.1 x.2 86399999).clock.trim then
            (2, (clockAt x.1 x.2 86399999).clock.acc + (clockAt x.1 x.2 86399999).clock.trim - 1000000)
          else if (clockAt x.1 x.2 86399999).clock.acc + (clockAt x.1 x.2 86399999).clock.trim ≤ -1000000 then
            (0, (clockAt x.1 x.2 86399999).clock.acc + (clockAt x.1 x.2 86399999).clock.trim + 1000000)
          else (1, (clockAt x.1 x.2 86399999).clock.acc + (clockAt x.1 x.2 86399999).clock.trim))) ∧
    86400000 ≤ (clockAt 0 0 86400000).clock.ms ∧ (clockAt 0 0 86399999).clock.ms < 86400000 ∧ coord.eng.running ≠ none := by
  decide +kernel

/-- An advance that reaches a minute exactly, one that passes it by 1 ms, one that stops short of it, and one to midnight. -/
theorem witness_ClockAdvances_minute :
    (∃ k : Fin 3, 59999 < 60000 * k.val ∧ 60000 * k.val ≤ 59999 + 1) ∧ (∃ k : Fin 3, 59999 < 60000 * k.val ∧
    60000 * k.val ≤ 59999 + 2) ∧
    (∀ k : Fin 3, 59998 < 60000 * k.val → 59998 + 1 < 60000 * k.val) ∧ (∀ k : Fin 3, 60000 < 60000 * k.val → 60000 + 1 < 60000 * k.val) ∧
    (clockAt 0 0 86399999).clock.ms + 1 = 86400000 ∧ coord.eng.running = some 1 ∧ started.eng.running = none ∧
    (clockAt 999500 500 0).clock.acc + (clockAt 999500 500 0).clock.trim = 1000000 ∧
    (clockAt (-999500) (-500) 0).clock.acc + (clockAt (-999500) (-500) 0).clock.trim = -1000000 := by decide +kernel

/-- Monday 07:00 with PLAN 3 at 06:00, FLASH at 07:00 that moment and DIM_ON on Sunday 23:00; and the clock UNSET. -/
theorem witness_ScheduleEvaluated :
    (let s : State := { started with
       clock := { started.clock with unset := false, weekday := 0, ms := 25200000 }
       tables := { tables with sched := put (put (put tables.sched 0 ⟨1, 6, 0, 0, 3⟩) 1 ⟨1, 7, 0, 1, 0⟩) 2 ⟨64, 23, 0, 3, 0⟩ } }
     schedModeNow s = .flash ∧ schedPlanNow s = 2 ∧ schedDimNow s = .dim) ∧ started.clock.unset = true ∧
    (let s : State := { started with clock := { started.clock with unset := false }, tables := { tables with schedDefault := 8 } }
     (∀ (i : Fin 48) (d : Fin 7), mem s.tables.sched[i].days d.val = false) ∧ schedPlanNow s = 7) := by decide +kernel

/-- Plan 1 running with the fallback plan 1: named the running plan, a VALID plan and one not VALID; the engine IDLE; each schedule mode named
in PLAN, FLASH and DARK; and FLASH for NO_PLAN. -/
theorem witness_GoverningNamed : isolated.eng.running = some 0 ∧ fallback isolated = 0 ∧
    isolated.tables.plan[(1 : Fin 8)].state = .valid ∧ isolated.tables.plan[(2 : Fin 8)].state ≠ .valid ∧
    (nameGoverning isolated 1).eng.pendingPlan = some 1 ∧ mem (nameGoverning isolated 2).eng.invalidRaised (2 : Fin 8) = true ∧
    started.eng.running = none ∧ coord.eng.running = some 1 ∧ fallback coord ≠ 1 ∧
    isolated.jm.mode = .plan ∧ isolated.jm.departure = none ∧ schedTarget .flash = some .flash ∧ schedTarget .dark = some .dark ∧
    schedTarget .plan = none ∧
    (∀ m ∈ [Mode.flash, .dark], ∀ r ∈ [Reason.schedule, .noPlan],
      let s := setMode (inMode m) fun j => { j with reason := r }
      s.jm.mode = m ∧ s.jm.started = true ∧ s.jm.reason = r ∧ s.jm.schedMode = .plan) := by decide +kernel

/-- A takeover by a coordinated and by an isolated plan, by NEXT, by a stage the plan names and by one it does not; and with no step wanted. -/
theorem witness_GoverningNamed_takeover :
    FirstFrom (nSteps coord 0) (wanted coord 0) (some 0) ∧ FirstFrom (nSteps isolated 1) (wanted isolated 1) (some 0) ∧
    FirstFrom (nSteps isolated 1) (fun k => (stepOf isolated 1 k).holdFlag) (some 0) ∧
    FirstFrom (nSteps coord 0) (fun k => decide ((stepOf coord 0 k).stage = num (0 : Fin 16))) (some 1) ∧
    FirstFrom (nSteps coord 0) (fun k => decide ((stepOf coord 0 k).stage = num (2 : Fin 16))) none ∧
    (let s : State := { coord with groups := tab fun g => { coord.groups[g] with inhibited := true } }
     FirstFrom (nSteps s 0) (wanted s 0) none ∧ (takeover s 0 none).eng.sub = .rest ∧
     (takeover s 0 none).groups[(1 : Fin 32)].target = .stop) ∧
    0 < coord.tables.plan[(1 : Fin 8)].cycle ∧ coord.tables.plan[(0 : Fin 8)].cycle = 0 ∧
    (takeover coord 0 none).eng.cur = 0 ∧ (takeover coord 0 (some (.stage 0))).eng.cur = 1 :=
  ⟨⟨by decide +kernel, by decide +kernel⟩, ⟨by decide +kernel, by decide +kernel⟩, ⟨by decide +kernel, by decide +kernel⟩,
    ⟨by decide +kernel, by decide +kernel⟩, ⟨by decide +kernel, by decide +kernel⟩,
    ⟨⟨by decide +kernel, by decide +kernel⟩, by decide +kernel, by decide +kernel⟩, by decide +kernel⟩

/-- A rest with nothing served: with an orderly stop, with a plan pending and no hold, with a hold, and with none pending. -/
theorem witness_GoverningNamed_rest :
    (let s := setEng isolated fun e => { e with sub := .rest, stageOn := false, served := 0 }
     s.eng.orderly = false ∧ s.eng.pendingPlan = none ∧ s.eng.cur.val < nSteps s 0 ∧ (restPulse s 0).eng.cur = 0 ∧
     (let p := setEng s fun e => { e with pendingPlan := some 1 }
      holdStands p = false ∧ (restPulse p 0).eng.running = some 1 ∧
      holdStands (setEng p fun e => { e with hold := some .stage }) = true ∧
      (restPulse (setEng p fun e => { e with hold := some .stage }) 0).eng.running = some 0 ∧
      (restPulse (setEng p fun e => { e with orderly := true }) 0).eng.sub = .rest)) := by decide +kernel

theorem witness_GoverningNamed_oneEach : OneRecordEach isolated := one_each _ (by decide +kernel)

/-- Group 1 with its red circuit in each verdict: PROVEN, DEGRADED, LOST and UNKNOWN. -/
theorem witness_RedStatusFormed : started.map ≠ none ∧ live started 0 = true ∧ started.tables.group[(0 : Fin 32)].redSets = 1 ∧
    ((started.map.map fun m => m.groups[(0 : Fin 32)].redSets[(0 : Fin 4)]) = some [0]) ∧
    (∀ x ∈ [(Verdict.ok, RedStatus.proven), (.partialOf 1, .degraded), (.low, .degraded), (.out, .lost), (.unknown, .unknown)],
      redStatusNow (setProv started 0 fun r => { r with verdict := x.1 }) 0 = x.2) ∧
    redStatusNow (setCable (setProv started 0 fun r => { r with verdict := .ok }) 0 fun r => { r with openRaised := true }) 0 = .lost ∧
    live started 5 = false := by decide +kernel

/-- Group 1 UNKNOWN in PLAN, in DIRECT_DRIVE and in FLASH; and a group in the inhibit demand. -/
theorem witness_RedStatusFormed_inhibit :
    (∀ x ∈ [(Mode.plan, true), (.directDrive, true), (.flash, false)],
      let s : State := { inMode x.1 with prov := { started.prov with red := put (Vector.replicate 32 .proven) 0 .unknown } }
      conflicts s 0 1 = true ∧ ((refreshInhibit s).groups[(1 : Fin 32)]).inhibited = x.2 ∧
      ((refreshInhibit s).groups[(0 : Fin 32)]).inhibited = false) ∧
    ((refreshInhibit (setColl started fun c => { c with inhibitDemand := 9 })).groups[(0 : Fin 32)]).inhibited = true ∧
    ((refreshInhibit (setColl started fun c => { c with inhibitDemand := 9 })).groups[(3 : Fin 32)]).inhibited = false := by
  decide +kernel

/-- Entry 1, a push button with debounce 1, and entry 2, a detector with debounce 2: due at their unit's frame, one reading short, ACTIVE
and INACTIVE; and stuck at a pulse at ten times the limit, and one pulse short of it. -/
theorem witness_InputsChange :
    min 15 ((reading 1 false 0).inputs[(1 : Fin 64)].disagree + 1) = 1 ∧
    min 15 ((reading 1 false 0).inputs[(1 : Fin 64)].disagree + 1) < (reading 1 false 0).tables.input[(1 : Fin 64)].debounce ∧
    inputUnit started 63 = none ∧ frameStands (reading 0 false 1) (inputUnit (reading 0 false 1) 0) = false ∧
    (reading 1 false 1).inputs[(1 : Fin 64)].disagree < (reading 1 false 1).tables.input[(1 : Fin 64)].debounce ∧
    (let s := atF 1 (reading 0 false 1)
     frameStands s (inputUnit s 0) = true ∧ inputUnit s 0 ≠ none ∧
     s.tables.input[(0 : Fin 64)].debounce ≤ s.inputs[(0 : Fin 64)].disagree ∧
     s.inputs[(0 : Fin 64)].active = false ∧ s.tables.input[(0 : Fin 64)].kind = 1) ∧
    (let s := atF 0 (reading 1 true 2)
     frameStands s (inputUnit s 1) = true ∧ inputUnit s 1 ≠ none ∧ s.inputs[(1 : Fin 64)].active = true ∧
     s.tables.input[(1 : Fin 64)].debounce ≤ s.inputs[(1 : Fin 64)].disagree) ∧
    (let s := atP (stuckAt 100)
     pulseStands s = true ∧ timedInput s 1 = true ∧ s.inputs[(1 : Fin 64)].active = true ∧
     s.inputs[(1 : Fin 64)].stuck = false ∧
     10 * s.tables.input[(1 : Fin 64)].stuckLimit ≤ s.inputs[(1 : Fin 64)].activeTime) ∧ pulseStands (stuckAt 100) = false ∧
    (stuckAt 99).inputs[(1 : Fin 64)].activeTime < 10 * (stuckAt 99).tables.input[(1 : Fin 64)].stuckLimit := by decide +kernel

/-- Candidates OK and OUT at their confirm counts and one short of them, and no candidate. -/
theorem witness_VerdictConfirmed :
    (∀ x ∈ [(Verdict.ok, (25 : Nat)), (.out, 10), (.partialOf 1, 10), (.absent, 10), (.present, 25), (.low, 10), (.high, 10)],
      let s := atF 0 (confirming x.1 x.2)
      frameWorked s FrameWork.judged 0 = true ∧ s.prov.circuits[(0 : Fin 96)].cand = some x.1 ∧
      (if x.1 = .ok ∨ x.1 = .present then s.tables.proving.recoverConfirm else s.tables.proving.failConfirm) ≤
        s.prov.circuits[(0 : Fin 96)].run) ∧ frameWorked (confirming .ok 25) FrameWork.judged 0 = false ∧
    frameWorked (atOtherF 0 (confirming .ok 25)) FrameWork.judged 0 = false ∧
    (confirming .out 9).prov.circuits[(0 : Fin 96)].run < (confirming .out 9).tables.proving.failConfirm ∧
    started.prov.circuits[(0 : Fin 96)].cand = none ∧ (1 : Fin 96) ≠ 0 := by decide +kernel

/-- A ring that converges exactly at the spread limit, one past it, means below 32 and supplies below 50, and counts at N_min and N_max. -/
theorem witness_LearningEnds :
    (∀ x ∈ [((1000 : Nat), (40 : Nat), (200 : Nat)), (1000, 49, 200), (31, 0, 200), (32, 0, 49), (32, 0, 50)],
      let s := atF 0 (learning x.1 x.2.1 x.2.2 8)
      let l := s.prov.learn[(0 : Fin 96)]
      frameWorked s FrameWork.learned 0 = true ∧ l.state = .learning ∧ l.nMin ≤ l.count ∧ l.ring.length = 8) ∧
    (let s := atF 0 (learning 1000 40 200 8)
     let l := s.prov.learn[(0 : Fin 96)]
     1000 * ((l.ring.map Prod.fst).foldl max 0 - (l.ring.map Prod.fst).foldl min 65535) ≤
       s.tables.proving.spread * (((l.ring.map Prod.fst).sum + 4) / 8)) ∧
    frameWorked (atOtherF 0 (learning 1000 40 200 8)) FrameWork.learned 0 = false ∧
    (let s := atF 0 (learning 1000 49 200 20)
     let l := s.prov.learn[(0 : Fin 96)]
     frameWorked s FrameWork.learned 0 = true ∧ s.tables.proving.spread * (((l.ring.map Prod.fst).sum + 4) / 8) <
       1000 * ((l.ring.map Prod.fst).foldl max 0 - (l.ring.map Prod.fst).foldl min 65535) ∧ l.nMax ≤ l.count) ∧
    (learning 1000 40 200 7).prov.learn[(0 : Fin 96)].count < (learning 1000 40 200 7).prov.learn[(0 : Fin 96)].nMin ∧
    (learning 1000 49 200 19).prov.learn[(0 : Fin 96)].count < (learning 1000 49 200 19).prov.learn[(0 : Fin 96)].nMax := by
  decide +kernel

/-- Each count of cable supervision at its limit and one short of it, at the frame or the pulse and after it. -/
theorem witness_CableFaultsHeld :
    (∀ m ∈ [Mismatch.isOpen, .short],
      let s := atF 0 (setCable started 0 fun r => { r with cand := some m, mrun := 3 })
      frameWorked s FrameWork.tested 0 = true ∧ s.cable.circuits[(0 : Fin 96)].cand = some m ∧
      s.tables.cable.testConfirm ≤ s.cable.circuits[(0 : Fin 96)].mrun) ∧
    (let s := atF 0 (setCable started 0 fun r => { r with litRun := 3 })
     frameWorked s FrameWork.lit 0 = true ∧ s.tables.cable.crossConfirm ≤ s.cable.circuits[(0 : Fin 96)].litRun ∧
     s.cable.circuits[(0 : Fin 96)].crossRaised = false) ∧
    (let s := atF 0 (setCable started 0 fun r => { r with crossRaised := true, quiet := 25 })
     frameWorked s FrameWork.lit 0 = true ∧ s.cable.circuits[(0 : Fin 96)].crossRaised = true ∧
     25 ≤ s.cable.circuits[(0 : Fin 96)].quiet) ∧
    (let s := atP (setCable started 0 fun r => { r with retry := .retryWait, retryTimer := 20 })
     pulseStands s = true ∧ s.cable.circuits[(0 : Fin 96)].retry = .retryWait ∧
     s.tables.cable.retryDelay ≤ s.cable.circuits[(0 : Fin 96)].retryTimer ∧
     s.cable.circuits[(0 : Fin 96)].retry ≠ .normal) ∧
    (let s := atP (setCable started 0 fun r => { r with cleanOn := 50 })
     pulseStands s = true ∧ s.cable.circuits[(0 : Fin 96)].retry = .normal ∧
     s.tables.cable.tripClear ≤ s.cable.circuits[(0 : Fin 96)].cleanOn ∧
     s.cable.circuits[(0 : Fin 96)].retry ≠ .retryWait) ∧ (1 : Fin 96) ≠ 0 ∧
    frameWorked (atOtherF 0 started) FrameWork.tested 0 = false ∧ frameWorked (atOtherF 0 started) FrameWork.lit 0 = false ∧
    pulseStands started = false ∧ frameWorked (atF 0 started) FrameWork.tested 0 = true ∧
    (atF 0 started).cable.circuits[(0 : Fin 96)].cand = none ∧
    (let s := atF 0 (setCable started 0 fun r =>
       { r with cand := some .short, mrun := 2, litRun := 2, crossRaised := true, quiet := 24 })
     frameWorked s FrameWork.lit 0 = true ∧ s.cable.circuits[(0 : Fin 96)].mrun < s.tables.cable.testConfirm ∧
     s.cable.circuits[(0 : Fin 96)].litRun < s.tables.cable.crossConfirm ∧ s.cable.circuits[(0 : Fin 96)].quiet < 25) ∧
    (let s := setCable started 0 fun r => { r with retry := .retryWait, retryTimer := 19 }
     s.cable.circuits[(0 : Fin 96)].retryTimer < s.tables.cable.retryDelay) ∧
    (let s := setCable started 0 fun r => { r with cleanOn := 49 }
     s.cable.circuits[(0 : Fin 96)].cleanOn < s.tables.cable.tripClear) := by decide +kernel

/-- Circuit 1 with a reference for BRIGHT and none for DIM, at a supply of three quarters and five quarters of its Vref and one past each. -/
theorem witness_WindowJudged : started.tables.circuit[(0 : Fin 96)].proving = 1 ∧
    (RefEntry.part started.tables.reference[(0 : Fin 96)] .dim).held ≠ 1 ∧
    (RefEntry.part started.tables.reference[(0 : Fin 96)] .bright).held = 1 ∧
    3 * (RefEntry.part started.tables.reference[(0 : Fin 96)] .bright).vref ≤ 4 * 150 ∧
    4 * 250 ≤ 5 * (RefEntry.part started.tables.reference[(0 : Fin 96)] .bright).vref ∧
    4 * 149 < 3 * (RefEntry.part started.tables.reference[(0 : Fin 96)] .bright).vref ∧
    5 * (RefEntry.part started.tables.reference[(0 : Fin 96)] .bright).vref < 4 * 251 := by decide +kernel

/-- A record held in each state; an empty slot; a full table with a slot to evict, and one with none. -/
theorem witness_RaisesTaken : OneRecordEach (withRecord .clearedUnack) ∧ OneRecordEach (fullTable 63) ∧ OneRecordEach started ∧
    (∀ st ∈ [FaultState.activeUnack, .activeAck, .clearedUnack],
      (withRecord st).coll.slots[(0 : Fin 64)] = some (record st) ∧ (record st).kind = .unexpectedGreen ∧
      (record st).subject = 1) ∧
    started.coll.slots[(0 : Fin 64)] = none ∧ (∀ j : Fin 64, j < 0 → started.coll.slots[j] ≠ none) ∧
    (∀ i : Fin 64, (fullTable 63).coll.slots[i] ≠ none) ∧
    (∀ i : Fin 64, ∀ r ∈ (fullTable 63).coll.slots[i], ¬ (r.kind = .unexpectedGreen ∧ r.subject = 1)) ∧
    (∀ r ∈ (fullTable 63).coll.slots[(63 : Fin 64)], r.state = .clearedUnack ∧ r.kind.latching = false) ∧
    (∀ i : Fin 64, ∀ r ∈ (fullTable 63).coll.slots[i], r.state = .clearedUnack → i = 63) ∧
    (∀ i : Fin 64, ∀ r ∈ (setColl started fun c => { c with slots := tab fun j => some { record .activeAck with
        kind := .lampLow, subject := num j } }).coll.slots[i], ¬ (r.state = .clearedUnack ∧ r.kind.latching = false)) := by
  refine ⟨one_each _ (by decide +kernel), one_each _ (by decide +kernel), one_each _ (by decide +kernel), ?_⟩
  decide +kernel

/-- The inhibit demand with no map as CONFIG_OPEN left it, with no map and owed afresh, and with a map. -/
theorem witness_RaisesTaken_inhibit :
    (let t := after (.configOpen 1) latchedShut
     t.coll.demandStands = true ∧ t.map = none) ∧
    State.reset.coll.demandStands = false ∧ State.reset.map = none ∧ latchedShut.map ≠ none ∧
    mem (formInhibit latchedShut).coll.inhibitDemand 0 = true := by decide +kernel

/-- Frames at the ends of their fields: unit 15, H'FF in every byte, a payload of 48 bytes, a link payload of 1017. -/
theorem witness_FramesRoundTrip :
    ({ sense with unit := 15, window := 255, vsup := 255, leakage := 255
                  samples := Vector.replicate 8 ⟨65535, 255, 255, true, true, true, 0⟩ } : SenseFrame).wellFormed = true ∧
    sense.crcGood = true ∧ sense.sizeGood = true ∧ (⟨15, true, 255, 4294967295⟩ : IdentFrame).wellFormed = true ∧
    (⟨12, true, 0x4F, List.replicate 48 0xFF⟩ : PassFrame).wellFormed = true ∧
    7 + (List.replicate 1017 (0 : Byte)).length ≤ 1024 ∧
    (⟨32, 12, 8, 2, 4, 2, 4, 1, 1, 255⟩ : CircuitEntry).wellFormed = true ∧
    (⟨65535, 65535, 255⟩ : PlanHeader).steps < 256 ∧ (⟨255, 65535, 65535, 255, true, true, true, 65535⟩ : PlanStep).stage < 256 := by
  decide +kernel

theorem witness_LawfulKept : Lawful (queued fitted [.start 1]) ∧
    Sys2Proof.Machine.step (queued fitted [.start 1]) = .next (after (.start 1) fitted) :=
  ⟨⟨by decide +kernel, by decide +kernel, by decide +kernel, by decide +kernel, by decide +kernel⟩, rfl⟩

/-- FLASH demanded and obeyed, with a command waiting that cannot leave it. -/
theorem witness_DemandObeyed :
    Obeyed (queued (setColl (setMode flashDemanded fun j => { j with mode := .flash }) fun c => { c with demanded := .flash }) [.resume 1]) ∧
    (after (.resume 1) (setColl (setMode flashDemanded fun j => { j with mode := .flash }) fun c => { c with demanded := .flash })).jm.mode = .flash :=
  ⟨⟨by decide +kernel, by decide +kernel, by decide +kernel, by decide +kernel⟩, by decide +kernel⟩

/-- A demand that rises in PLAN and in FLASH, one that falls from DARK to FLASH and to none in FLASH and DARK, and one that falls with another reason. -/
theorem witness_DemandObeyed_moves :
    demandedNow (withRecord .activeUnack) = .dark ∧ demandedNow flashDemanded = .flash ∧ demandedNow started = .none ∧
    (∀ m ∈ [Mode.plan, .flash], (obeyDemand (setMode (withRecord .activeUnack) fun j => { j with mode := m }) .none).jm.mode = .dark) ∧
    (obeyDemand (setMode flashDemanded fun j => { j with mode := .plan }) .none).jm.mode = .flash ∧
    (obeyDemand (setMode flashDemanded fun j => { j with mode := .dark, reason := .fault }) .dark).jm.mode = .flash ∧
    (∀ x ∈ [(Mode.flash, SchedMode.plan, Mode.startRed), (.dark, .plan, .startFlash), (.flash, .flash, .flash), (.dark, .flash, .flash)],
      let s := setMode (inMode x.1) fun j => { j with reason := .fault, schedMode := x.2.1 }
      s.jm.mode = x.1 ∧ (obeyDemand s .flash).jm.mode = x.2.2) ∧
    (obeyDemand (inMode .dark) .dark).jm = (inMode .dark).jm := by decide +kernel

theorem witness_CapacityKept : WithinCapacity (queued polledLocked [.senseReceived sense]) ∧
    OneRecordEach (queued polledLocked [.senseReceived sense]) ∧
    Sys2Proof.Machine.step (queued polledLocked [.senseReceived sense]) = .next (after (.senseReceived sense) polledLocked) :=
  ⟨by unfold WithinCapacity; decide +kernel, one_each _ (by decide +kernel), rfl⟩

/-- A step that changes the count of unacknowledged records. -/
theorem witness_SummaryKept : Fresh State.reset ∧ (unfed 24).port.summary = summaryNow (unfed 24) ∧ Fresh (unfed 24) ∧
    exec .mainsFrequencyRaise (unfed 25) = .next (after .mainsFrequencyRaise (unfed 25)) ∧ Fresh (unfed 25) ∧
    (after .mainsFrequencyRaise (unfed 25)).port.summary.unack ≠ (unfed 25).port.summary.unack := by
  unfold Fresh
  refine ⟨by decide +kernel, by decide +kernel, by decide +kernel, rfl, by decide +kernel, by decide +kernel⟩

/-- The ALARM line with a record of each reaction and a latch of RECORD; and the applied dim with units ADMITTED at either tap. -/
theorem witness_SummaryKept_fields :
    (∀ x ∈ [(Reaction.record, false), (.alarm, true), (.inhibit, true), (.flash, true), (.dark, true)],
      alarmNow (setColl started fun c => { c with slots := put c.slots 0 (some { record .clearedUnack with reaction := x.1 }) }) = x.2) ∧
    alarmNow (setColl started fun c => { c with overflow := some .record }) = false ∧
    (summaryNow started).dim = .allBright ∧ (summaryNow started).stage = none ∧ (summaryNow coord).stage = some 3 ∧
    (let s := setBus polled fun b => { b with units := put b.units 0 { b.units[0] with dim := .dim } }
     (summaryNow s).dim = .allDim ∧
     (summaryNow (setBus s fun b => { b with units := put b.units 1 { b.units[1] with state := .admitted } })).dim = .mixed) := by
  decide +kernel

end Sys2Proof.Tests
end

namespace Sys2Proof.Machine

open Sys2Proof

/-! ## Numbers from 1 (section 3.3) -/

theorem ofNum_eq_some {n k : Nat} {i : Fin n} : ofNum n k = some i ↔ k = num i := by
  have hi := i.isLt
  unfold ofNum num
  split
  · rw [Option.some.injEq, Fin.ext_iff]; dsimp only; omega
  · simp only [reduceCtorEq, false_iff]; omega

theorem num_lt_num {n : Nat} {i j : Fin n} : num i < num j ↔ i < j := by
  rw [Fin.lt_def, num, num]; omega

/-! ## The first index at which a check fails (R10) -/

/-- `o` is the lowest index at which `F` holds, none where it holds nowhere. -/
def FirstOf (F : Nat → Prop) (o : Option Nat) : Prop := ∀ i : Nat, o = some i ↔ F i ∧ ∀ j : Nat, j < i → ¬ F j

theorem FirstOf.congr {F G : Nat → Prop} {o : Option Nat} (h : FirstOf F o) (e : ∀ i, G i ↔ F i) : FirstOf G o := by
  obtain rfl : G = F := funext fun i => propext (e i)
  exact h

theorem firstOf_none : FirstOf (fun _ => False) none := fun i => by simp

/-- A check of the whole structure has index 0. -/
theorem firstOf_ite (b : Bool) : FirstOf (fun i => i = 0 ∧ b = true) (if b then some 0 else none) := by
  intro i
  cases b
  · simp
  · constructor
    · rintro h
      obtain rfl : 0 = i := by simpa using h
      exact ⟨⟨rfl, rfl⟩, fun j hj => absurd hj (Nat.not_lt_zero j)⟩
    · rintro ⟨⟨rfl, _⟩, _⟩
      rfl

/-- A search through a list in ascending index finds the lowest index that passes. -/
theorem firstOf_find {α : Type} (f : α → Nat) (p : α → Bool) (l : List α) (hl : l.Pairwise fun a b => f a < f b) :
    FirstOf (fun i => ∃ a ∈ l, f a = i ∧ p a = true) ((l.find? p).map f) := by
  induction l with
  | nil => intro i; simp
  | cons a l ih =>
    obtain ⟨hal, hl⟩ := List.pairwise_cons.1 hl
    by_cases hp : p a = true
    · intro i
      have least : ∀ b ∈ a :: l, f a ≤ f b := fun b hb => by
        rcases List.mem_cons.1 hb with rfl | hb
        · exact Nat.le_refl _
        · exact Nat.le_of_lt (hal b hb)
      rw [List.find?_cons_of_pos hp, Option.map_some, Option.some.injEq]
      constructor
      · rintro rfl
        refine ⟨⟨a, List.mem_cons_self, rfl, hp⟩, ?_⟩
        rintro j hj ⟨b, hb, rfl, _⟩
        exact absurd (least b hb) (Nat.not_le.2 hj)
      · rintro ⟨⟨b, hb, rfl, _⟩, hmin⟩
        have := least b hb
        have : ¬ f a < f b := fun h => hmin _ h ⟨a, List.mem_cons_self, rfl, hp⟩
        omega
    · rw [List.find?_cons_of_neg hp]
      exact (ih hl).congr fun i => by simp [hp]

/-- A search through all things of a kind finds the lowest number that passes. -/
theorem firstOf_idx {n : Nat} (p : Fin n → Bool) :
    FirstOf (fun i => ∃ a : Fin n, i = num a ∧ p a = true) (((idx n).find? p).map num) :=
  (firstOf_find num p (idx n) ((List.pairwise_lt_finRange n).imp num_lt_num.2)).congr fun _ => exists_congr fun a =>
    ⟨fun ⟨hi, hp⟩ => ⟨List.mem_finRange a, hi.symm, hp⟩, fun ⟨_, hi, hp⟩ => ⟨hi.symm, hp⟩⟩

theorem mem_errAt {F : Nat → Prop} {o : Option Nat} (h : FirstOf F o) (kind : Nat) (e : ErrEntry) :
    e ∈ errAt kind o ↔ e.plan = 0 ∧ e.kind = kind ∧ F e.index ∧ ∀ i : Nat, i < e.index → ¬ F i := by
  rw [← h e.index]
  obtain ⟨p, k, i⟩ := e
  cases o with
  | none => simp [errAt]
  | some j => simp only [errAt, List.mem_singleton, ErrEntry.mk.injEq, Option.some.injEq, eq_comm]

theorem kind_of_mem_errAt {kind : Nat} {o : Option Nat} {e : ErrEntry} (h : e ∈ errAt kind o) : e.kind = kind := by
  cases o with
  | none => simp [errAt] at h
  | some j => rw [List.mem_singleton.1 h]

section Structure

variable (s : State)

/-! ## The structural error list, kind by kind (R10) -/

/-- The lowest index at which the check of a kind's number fails (R10). -/
def structuralFound : Nat → Option Nat
  | 1 => if noGroups s then some 0 else none
  | 2 => ((idx 96).find? (dupTerminal s)).map num
  | 3 => ((idx 96).find? (badRole s)).map num
  | 4 => ((idx 32).find? (missingRole s)).map num
  | 5 => ((idx 32).find? (roleOverfull s)).map num
  | 6 => ((idx 32).find? (redSetEmpty s)).map num
  | 7 => ((idx 96).find? (fiuUndefined s)).map num
  | 8 => ((idx 32).find? (conflictSelf s)).map num
  | 9 => ((livePairs s).find? (asymmetric s)).map matrixIndex
  | 10 => ((livePairs s).find? (igBelow s)).map matrixIndex
  | 11 => ((idx 16).find? (stageConflict s)).map num
  | 12 => ((idx 64).find? (inputBadTarget s)).map num
  | 13 => if startRedShort s then some 0 else none
  | _ => none

theorem structuralErrors_eq :
    structuralErrors s = (List.range' 1 13).flatMap fun kind => errAt kind (structuralFound s kind) := by
  simp only [structuralErrors, List.range', List.flatMap_cons, List.flatMap_nil, List.append_nil, structuralFound,
    List.append_assoc, Nat.reduceAdd]

theorem structuralFound_of_notMem {kind : Nat} (h : kind ∉ List.range' 1 13) : structuralFound s kind = none := by
  unfold structuralFound
  split
  case h_14 => rfl
  all_goals exact absurd (by decide) h

theorem mem_structuralErrors (e : ErrEntry) : e ∈ structuralErrors s ↔ e ∈ errAt e.kind (structuralFound s e.kind) := by
  rw [structuralErrors_eq, List.mem_flatMap]
  constructor
  · rintro ⟨kind, _, he⟩
    rwa [kind_of_mem_errAt he]
  · intro he
    refine ⟨e.kind, ?_, he⟩
    by_contra hk
    rw [structuralFound_of_notMem s hk] at he
    simp [errAt] at he

/-- The list is in ascending kind, each kind once. -/
theorem structuralErrors_ascending : (structuralErrors s).Pairwise fun x y => x.kind < y.kind := by
  rw [structuralErrors_eq, List.pairwise_flatMap]
  refine ⟨fun kind _ => ?_, ?_⟩
  · cases structuralFound s kind <;> simp [errAt]
  · refine (List.pairwise_lt_range' 1 (by decide)).imp fun {k l} hkl x hx y hy => ?_
    rwa [kind_of_mem_errAt hx, kind_of_mem_errAt hy]


/-! ## Circuit and group checks (R11, R12) -/

theorem groupOf_eq_some {c : Fin 96} {g : Fin 32} : groupOf s c = some g ↔ s.tables.circuit[c].group = num g :=
  ofNum_eq_some

theorem unitOf_eq_some {c : Fin 96} {u : Fin 12} : unitOf s c = some u ↔ s.tables.circuit[c].fiu = num u :=
  ofNum_eq_some

theorem terminalOf_eq_some {c : Fin 96} {t : Fin 8} :
    terminalOf s c = some t ↔ s.tables.circuit[c].terminal = num t := ofNum_eq_some

theorem present_eq_false {u : Fin 12} : present s u = false ↔ s.tables.fiu[u].present ≠ 1 := by simp [present]

theorem badRole_of_groupOf {c : Fin 96} {g : Fin 32} (h : s.tables.circuit[c].group = num g) :
    badRole s c = true ↔ live s g = false ∨
      (Role.ofCode s.tables.circuit[c].role = some .amber ∧ groupType s g = .pedestrian) ∨
      (Role.ofCode s.tables.circuit[c].role = some .red ∧ s.tables.group[g].redSets < s.tables.circuit[c].redSet) := by
  simp only [badRole, (groupOf_eq_some s).2 h, Bool.or_eq_true, Bool.and_eq_true, Bool.not_eq_true', decide_eq_true_eq,
    or_assoc]
  rfl

theorem badRole_eq_true {c : Fin 96} : badRole s c = true ↔ ∃ g : Fin 32, s.tables.circuit[c].group = num g ∧
    (live s g = false ∨ (Role.ofCode s.tables.circuit[c].role = some .amber ∧ groupType s g = .pedestrian) ∨
      (Role.ofCode s.tables.circuit[c].role = some .red ∧ s.tables.group[g].redSets < s.tables.circuit[c].redSet)) := by
  constructor
  · intro h
    cases hg : groupOf s c with
    | none => simp [badRole, hg] at h
    | some g =>
      have hg := (groupOf_eq_some s).1 hg
      exact ⟨g, hg, (badRole_of_groupOf s hg).1 h⟩
  · rintro ⟨g, hg, h⟩
    exact (badRole_of_groupOf s hg).2 h

/-- The circuits that count for a group's role: those that name the group and pass the role check (R11, R12). -/
theorem mem_roleCircuits {g : Fin 32} {r : Role} {c : Fin 96} : c ∈ roleCircuits s g r ↔
    s.tables.circuit[c].group = num g ∧ Role.ofCode s.tables.circuit[c].role = some r ∧ live s g = true ∧
      ¬ (r = .amber ∧ groupType s g = .pedestrian) ∧
      ¬ (r = .red ∧ s.tables.group[g].redSets < s.tables.circuit[c].redSet) := by
  simp only [roleCircuits, List.mem_filter, List.mem_finRange, true_and, Bool.and_eq_true, Bool.not_eq_true',
    decide_eq_true_eq, groupOf_eq_some, and_assoc]
  refine and_congr_right fun hg => ?_
  rw [roleOf, ← Bool.not_eq_true, badRole_of_groupOf s hg]
  constructor
  · rintro ⟨hb, hr⟩
    rw [hr] at hb
    exact ⟨hr, by simpa using fun h => hb (.inl h), fun h => hb (.inr (.inl ⟨congrArg some h.1, h.2⟩)),
      fun h => hb (.inr (.inr ⟨congrArg some h.1, h.2⟩))⟩
  · rintro ⟨hr, hl, ha, hs⟩
    rw [hr]
    refine ⟨?_, rfl⟩
    rintro (h | ⟨h, ht⟩ | ⟨h, ht⟩)
    · rw [hl] at h; cases h
    · exact ha ⟨Option.some.inj h, ht⟩
    · exact hs ⟨Option.some.inj h, ht⟩

theorem roleCircuits_ascending (g : Fin 32) (r : Role) : (roleCircuits s g r).Pairwise (· < ·) :=
  (List.pairwise_lt_finRange 96).filter _

theorem mem_redSetCircuits {g : Fin 32} {k : Nat} {c : Fin 96} :
    c ∈ redSetCircuits s g k ↔ c ∈ roleCircuits s g .red ∧ s.tables.circuit[c].redSet = k + 1 := by
  simp [redSetCircuits]

theorem isEmpty_eq_true {α : Type} (l : List α) : l.isEmpty = true ↔ ∀ a : α, a ∉ l := by
  rw [List.isEmpty_iff, List.eq_nil_iff_forall_not_mem]

theorem noGroups_eq_true : noGroups s = true ↔ ∀ g : Fin 32, live s g = false := by
  simp [noGroups, liveGroups]

theorem dupTerminal_eq_true {c : Fin 96} : dupTerminal s c = true ↔ ∃ d : Fin 96, d < c ∧
    (groupOf s c).isSome = true ∧ (groupOf s d).isSome = true ∧ s.tables.circuit[d].fiu = s.tables.circuit[c].fiu ∧
    s.tables.circuit[d].terminal = s.tables.circuit[c].terminal := by
  simp only [dupTerminal, usedCircuit, Bool.and_eq_true, List.any_eq_true, List.mem_finRange, true_and,
    decide_eq_true_eq, and_assoc, ← exists_and_left]
  exact exists_congr fun _ => and_left_comm

/-- A group misses a role it needs: AMBER is needed by a vehicle group alone. -/
theorem missingRole_eq_true {g : Fin 32} : missingRole s g = true ↔ live s g = true ∧
    ∃ r : Role, (r = .amber → groupType s g = .vehicle) ∧ ∀ c : Fin 96, c ∉ roleCircuits s g r := by
  simp only [missingRole, Bool.and_eq_true, Bool.or_eq_true, isEmpty_eq_true, decide_eq_true_eq]
  refine and_congr_right fun _ => ⟨?_, ?_⟩
  · rintro ((h | h) | ⟨ht, h⟩)
    · exact ⟨.red, nofun, h⟩
    · exact ⟨.green, nofun, h⟩
    · exact ⟨.amber, fun _ => ht, h⟩
  · rintro ⟨r, ht, h⟩
    cases r with
    | red => exact .inl (.inl h)
    | amber => exact .inr ⟨ht rfl, h⟩
    | green => exact .inl (.inr h)

/-- More than 8 members are 9 distinct ones. -/
theorem eight_lt_length_iff {α : Type} {l : List α} (hl : l.Nodup) :
    8 < l.length ↔ ∃ cs : List α, cs.Nodup ∧ cs.length = 9 ∧ ∀ c ∈ cs, c ∈ l := by
  constructor
  · intro h
    exact ⟨l.take 9, hl.sublist (List.take_sublist 9 l), by rw [List.length_take]; omega,
      fun c hc => List.mem_of_mem_take hc⟩
  · rintro ⟨cs, hn, hlen, hsub⟩
    have := (hn.subperm hsub).length_le
    omega

theorem roleOverfull_eq_true {g : Fin 32} : roleOverfull s g = true ↔ live s g = true ∧
    ∃ (r : Role) (cs : List (Fin 96)), cs.Nodup ∧ cs.length = 9 ∧ ∀ c ∈ cs, c ∈ roleCircuits s g r := by
  have hn (r : Role) : (roleCircuits s g r).Nodup := (List.nodup_finRange 96).filter _
  simp only [roleOverfull, Bool.and_eq_true, List.any_eq_true, decide_eq_true_eq, eight_lt_length_iff (hn _)]
  refine and_congr_right fun _ => exists_congr fun r => and_iff_right ?_
  cases r <;> decide

theorem redSetEmpty_eq_true {g : Fin 32} : redSetEmpty s g = true ↔ live s g = true ∧
    ∃ k : Nat, 1 ≤ k ∧ k ≤ s.tables.group[g].redSets ∧
      ∀ c : Fin 96, c ∈ roleCircuits s g .red → s.tables.circuit[c].redSet ≠ k := by
  simp only [redSetEmpty, Bool.and_eq_true, List.any_eq_true, List.mem_range, isEmpty_eq_true, mem_redSetCircuits, not_and]
  refine and_congr_right fun _ => ⟨?_, ?_⟩
  · rintro ⟨k, hk, h⟩
    exact ⟨k + 1, by omega, hk, h⟩
  · rintro ⟨k, h1, hk, h⟩
    obtain ⟨k, rfl⟩ := Nat.exists_eq_add_of_le' h1
    exact ⟨k, hk, h⟩

theorem fiuUndefined_eq_true {c : Fin 96} : fiuUndefined s c = true ↔ (groupOf s c).isSome = true ∧
    ∀ u : Fin 12, s.tables.circuit[c].fiu = num u → s.tables.fiu[u].present ≠ 1 := by
  simp only [fiuUndefined, usedCircuit, Bool.and_eq_true, ← unitOf_eq_some, ← present_eq_false]
  refine and_congr_right fun _ => ?_
  cases unitOf s c with
  | none => simp
  | some u => simp

/-! ## Matrix checks (R13) -/

theorem mem_livePairs {a b : Fin 32} : (a, b) ∈ livePairs s ↔ live s a = true ∧ live s b = true := by
  simp [livePairs, liveGroups]

theorem livePairs_ascending : (livePairs s).Pairwise fun p q => matrixIndex p < matrixIndex q := by
  have hl : (liveGroups s).Pairwise (· < ·) := (List.pairwise_lt_finRange 32).filter _
  rw [livePairs, List.pairwise_flatMap]
  refine ⟨fun a _ => ?_, hl.imp fun {a b} hab p hp q hq => ?_⟩
  · rw [List.pairwise_map]
    refine hl.imp fun {b c} hbc => ?_
    rw [Fin.lt_def] at hbc
    simp only [matrixIndex]; omega
  · obtain ⟨x, _, rfl⟩ := List.mem_map.1 hp
    obtain ⟨y, _, rfl⟩ := List.mem_map.1 hq
    have := x.isLt
    rw [Fin.lt_def] at hab
    simp only [matrixIndex]; omega

/-- A search through the pairs of groups in use finds the lowest matrix index that passes. -/
theorem firstOf_livePairs (p : Fin 32 × Fin 32 → Bool) :
    FirstOf (fun i => ∃ a b : Fin 32, i = 32 * a.val + b.val ∧ live s a = true ∧ live s b = true ∧ p (a, b) = true)
      (((livePairs s).find? p).map matrixIndex) := by
  refine (firstOf_find matrixIndex p _ (livePairs_ascending s)).congr fun i => ?_
  simp only [Prod.exists, mem_livePairs, matrixIndex, and_assoc]
  refine exists_congr fun a => exists_congr fun b => ⟨?_, ?_⟩
  · rintro ⟨hi, ha, hb, hp⟩; exact ⟨ha, hb, hi.symm, hp⟩
  · rintro ⟨ha, hb, hi, hp⟩; exact ⟨hi.symm, ha, hb, hp⟩

theorem conflictSelf_eq_true {g : Fin 32} :
    conflictSelf s g = true ↔ live s g = true ∧ s.tables.matrix[g][g] ≠ none := by
  simp only [conflictSelf, ig, Bool.and_eq_true, Option.isSome_iff_ne_none]

theorem asymmetric_eq_true {a b : Fin 32} :
    asymmetric s (a, b) = true ↔ ¬ (s.tables.matrix[a][b] = none ↔ s.tables.matrix[b][a] = none) := by
  simp only [asymmetric, ig]
  cases s.tables.matrix[a][b] <;> cases s.tables.matrix[b][a] <;> simp

theorem igBelow_eq_true {a b : Fin 32} : igBelow s (a, b) = true ↔ a ≠ b ∧ ∃ n : Nat, s.tables.matrix[a][b] = some n ∧
    n < if groupType s a = .vehicle then s.tables.group[a].amber else s.tables.group[a].clearance := by
  simp only [igBelow, ig, Bool.and_eq_true, decide_eq_true_eq]
  refine and_congr_right fun _ => ?_
  cases s.tables.matrix[a][b] with
  | none => simp
  | some n => simp [clearanceTime]

theorem lt_foldl_max {α : Type} (f : α → Nat) (l : List α) (k m : Nat) :
    k < l.foldl (fun m a => max m (f a)) m ↔ k < m ∨ ∃ a ∈ l, k < f a := by
  induction l generalizing m with
  | nil => simp
  | cons a l ih => rw [List.foldl_cons, ih]; simp [or_assoc]

theorem startRedShort_eq_true : startRedShort s = true ↔ ∃ (a b : Fin 32) (n : Nat), live s a = true ∧ live s b = true ∧
    s.tables.matrix[a][b] = some n ∧ s.tables.startUp.startRed < n := by
  simp only [startRedShort, largestIg, decide_eq_true_eq, lt_foldl_max, Nat.not_lt_zero, false_or, Prod.exists,
    mem_livePairs, ig]
  refine exists_congr fun a => exists_congr fun b => ?_
  cases s.tables.matrix[a][b] with
  | none => simp
  | some n => simp [and_assoc]

/-! ## Stage and input checks (R14) -/

theorem conflicts_eq_true {a b : Fin 32} : conflicts s a b = true ↔
    a ≠ b ∧ live s a = true ∧ live s b = true ∧ (ig s a b).isSome = true := by
  simp only [conflicts, Bool.and_eq_true, decide_eq_true_eq, and_assoc]

theorem stageConflict_eq_true {k : Fin 16} : stageConflict s k = true ↔ ∃ a b : Fin 32, conflicts s a b = true ∧
    mem s.tables.stage[k] a = true ∧ mem s.tables.stage[k] b = true := by
  simp only [stageConflict, List.any_eq_true, Prod.exists, mem_livePairs, conflicts_eq_true, Bool.and_eq_true,
    decide_eq_true_eq]
  exact exists_congr fun a => exists_congr fun b => by tauto

theorem namesUndefined_eq_true {m : StageSet} :
    namesUndefined s m = true ↔ ∃ k : Fin 16, s.tables.stage[k] = 0 ∧ mem m k = true := by
  simp only [namesUndefined, List.any_eq_true, List.mem_finRange, true_and, Bool.and_eq_true, decide_eq_true_eq, and_comm]

theorem inputBadTarget_eq_true {e : Fin 64} : inputBadTarget s e = true ↔ ∃ u : Fin 12, s.tables.input[e].fiu = num u ∧
    (s.tables.fiu[u].present ≠ 1 ∨ ∃ k : Fin 16, s.tables.stage[k] = 0 ∧
      (mem s.tables.input[e].demand k = true ∨ mem s.tables.input[e].extend k = true)) := by
  have hu (u : Fin 12) : s.tables.input[e].fiu = num u ↔ inputUnit s e = some u := ofNum_eq_some.symm
  simp only [hu, ← present_eq_false, and_or_left, exists_or, ← namesUndefined_eq_true, inputBadTarget]
  cases inputUnit s e with
  | none => simp
  | some u => simp [or_assoc]


/-! ## The circuit map (R15) -/

theorem buildMap_terminal {u : Fin 12} {t : Fin 8} {c : Fin 96} : (buildMap s).terminal[u][t] = some c ↔
    (groupOf s c).isSome = true ∧ s.tables.circuit[c].fiu = num u ∧ s.tables.circuit[c].terminal = num t ∧
      ∀ d : Fin 96, d < c → ¬ ((groupOf s d).isSome = true ∧ s.tables.circuit[d].fiu = num u ∧
        s.tables.circuit[d].terminal = num t) := by
  have stands (d : Fin 96) : (usedCircuit s d && decide (unitOf s d = some u) && decide (terminalOf s d = some t)) = true ↔
      (groupOf s d).isSome = true ∧ s.tables.circuit[d].fiu = num u ∧ s.tables.circuit[d].terminal = num t := by
    simp only [usedCircuit, Bool.and_eq_true, decide_eq_true_eq, unitOf_eq_some, terminalOf_eq_some, and_assoc]
  have entry : (buildMap s).terminal[u][t] = (idx 96).find? fun d =>
      usedCircuit s d && decide (unitOf s d = some u) && decide (terminalOf s d = some t) := by
    simp [buildMap]
  have found := firstOf_find Fin.val (fun d : Fin 96 =>
    usedCircuit s d && decide (unitOf s d = some u) && decide (terminalOf s d = some t)) (idx 96)
    (List.pairwise_lt_finRange 96) c.val
  simp only [stands, List.mem_finRange, true_and, ← Fin.ext_iff, exists_eq_left] at found
  rw [entry, ← and_assoc, ← and_assoc, and_assoc (a := (groupOf s c).isSome = true)]
  refine Iff.trans ⟨fun h => by rw [h]; rfl, fun h => ?_⟩ (found.trans (and_congr_right fun _ => ?_))
  · obtain ⟨d, hd, hdc⟩ := Option.map_eq_some_iff.1 h
    rw [hd, Fin.ext hdc]
  · constructor
    · exact fun h d hd hs => h d.val hd ⟨d, rfl, hs⟩
    · rintro h _ hj ⟨d, rfl, hs⟩
      exact h d hj hs

theorem buildMap_groups (g : Fin 32) : (buildMap s).groups[g] =
    { red := roleCircuits s g .red, amber := roleCircuits s g .amber, green := roleCircuits s g .green
      redSets := tab fun k => redSetCircuits s g k } := by
  simp [buildMap]

theorem redSetCircuits_ascending (g : Fin 32) (k : Nat) : (redSetCircuits s g k).Pairwise (· < ·) :=
  (roleCircuits_ascending s g .red).filter _

end Structure

/-- Settles O14: the list is the first failure of each kind's check in turn, and each check is what R11 to R14 say it is. -/
theorem structureChecked : Obligations.StructureChecked := by
  intro s fails passes hp hf
  obtain rfl : passes = fun r g c => c ∈ roleCircuits s g r :=
    funext fun r => funext fun g => funext fun c => propext ((hp r g c).trans (mem_roleCircuits s).symm)
  have first (kind : Nat) : FirstOf (fails kind) (structuralFound s kind) :=
    match kind with
    | 0 => firstOf_none.congr (hf 0)
    | 1 => (firstOf_ite (noGroups s)).congr fun i => (hf 1 i).trans (and_congr_right' (noGroups_eq_true s).symm)
    | 2 => (firstOf_idx (dupTerminal s)).congr fun i => (hf 2 i).trans <| by
        simp only [dupTerminal_eq_true, exists_and_left]
    | 3 => (firstOf_idx (badRole s)).congr fun i => (hf 3 i).trans <| by
        simp only [badRole_eq_true, exists_and_left]
    | 4 => (firstOf_idx (missingRole s)).congr fun i => (hf 4 i).trans <| by simp only [missingRole_eq_true]
    | 5 => (firstOf_idx (roleOverfull s)).congr fun i => (hf 5 i).trans <| by simp only [roleOverfull_eq_true]
    | 6 => (firstOf_idx (redSetEmpty s)).congr fun i => (hf 6 i).trans <| by simp only [redSetEmpty_eq_true]
    | 7 => (firstOf_idx (fiuUndefined s)).congr fun i => (hf 7 i).trans <| by simp only [fiuUndefined_eq_true]
    | 8 => (firstOf_idx (conflictSelf s)).congr fun i => (hf 8 i).trans <| by simp only [conflictSelf_eq_true]
    | 9 => (firstOf_livePairs s (asymmetric s)).congr fun i => (hf 9 i).trans <| by simp only [asymmetric_eq_true]
    | 10 => (firstOf_livePairs s (igBelow s)).congr fun i => (hf 10 i).trans <| by
        simp only [igBelow_eq_true, exists_and_left]
    | 11 => (firstOf_idx (stageConflict s)).congr fun i => (hf 11 i).trans <| by simp only [stageConflict_eq_true]
    | 12 => (firstOf_idx (inputBadTarget s)).congr fun i => (hf 12 i).trans <| by
        simp only [inputBadTarget_eq_true, exists_and_left]
    | 13 => (firstOf_ite (startRedShort s)).congr fun i =>
        (hf 13 i).trans (and_congr_right' (startRedShort_eq_true s).symm)
    | k + 14 => firstOf_none.congr (hf (k + 14))
  refine ⟨structuralErrors_ascending s, fun e => ?_, fun u t c => buildMap_terminal s, fun g _ => ?_⟩
  · rw [mem_structuralErrors, mem_errAt (first e.kind)]
    simp only [true_and]
  · rw [buildMap_groups]
    simp only [Fin.getElem_fin, getElem_tab_val, true_and]
    exact ⟨fun c k => mem_redSetCircuits s, roleCircuits_ascending s g .red, roleCircuits_ascending s g .amber,
      roleCircuits_ascending s g .green, fun k => redSetCircuits_ascending s g k⟩


/-! ## Power-on reset (R16) -/

theorem reset_group (g : Fin 32) : State.reset.tables.group[g] = groupPor := by simp [State.reset, tablesPor]

theorem reset_circuit (c : Fin 96) : State.reset.tables.circuit[c] = circuitPor := by simp [State.reset, tablesPor]

theorem reset_fiu (u : Fin 12) : State.reset.tables.fiu[u] = fiuPor := by simp [State.reset, tablesPor]

theorem live_of_groupPor {s : State} {g : Fin 32} (h : s.tables.group[g] = groupPor) : live s g = false := by
  simp only [live, groupType, h]
  rfl

/-- With no group in use the structural error list begins with NO_GROUPS (R10, R12). -/
theorem noGroups_mem_structuralErrors {s : State} (h : ∀ g : Fin 32, live s g = false) :
    (⟨0, 1, 0⟩ : ErrEntry) ∈ structuralErrors s := by
  simp [structuralErrors, (noGroups_eq_true s).2 h, errAt]

/-- START past its checks of mode and identity is refused with the structural errors first, where there are any (R77). -/
theorem startReq_structural {s : State} (fit : startUnfit s = false) (named : blankIdentity s = false)
    (he : structuralErrors s ≠ []) :
    startReq s = ⟨refreshInvalid (validateAll s), .invalid,
      .errors (structuralErrors s ++ planEntries (refreshInvalid (validateAll s)))⟩ := by
  rw [startReq, checked_pass (by rw [fit, named]; rfl), startValidated, if_neg (by simpa using he)]

/-- Settles O2: with every group UNUSED the check NO_GROUPS fails, and START meets it past its own checks. -/
theorem resetTables : Obligations.ResetTables := by
  refine ⟨reset_group, reset_circuit, reset_fiu, rfl, fun s tag hs hmode hopen hslot hgroups => ?_⟩
  have unused : ∀ g : Fin 32, live s g = false := fun g => live_of_groupPor ((hgroups g).trans (reset_group g))
  have noGroups := noGroups_mem_structuralErrors unused
  have fit : startUnfit (taken 0x05 tag s) = false := by
    rw [startUnfit, hmode, taken_configOpen, hopen]; rfl
  have named : blankIdentity (taken 0x05 tag s) = false := by simp [blankIdentity, hslot]
  rw [← taken_structuralErrors 0x05 tag s] at noGroups
  have refused := startReq_structural fit named (List.ne_nil_of_mem noGroups)
  exact ⟨_, _, congrArg Host.Outcome.next (serve_of hs refused), List.mem_append_left _ noGroups⟩

end Sys2Proof.Machine

namespace Sys2Proof.Machine

open Sys2Proof

/-! ## Checks and answers of a TABLE_WRITE (R175) -/

/-- A write of good form with every index in range, allowed and with no field refused passes its checks. -/
theorem writeChecks_pass {a : TableArgs} {entries range : Nat} {allowed badField : Bool} (hf : formOk a = true)
    (hn : entries = a.count) (hi : ∀ i ∈ addressed a, i < range) (ha : allowed = true) (hb : badField = false) :
    firstRefusal (writeChecks a entries range allowed badField false) = none := by
  have inRange : ((addressed a).any fun i => decide (range ≤ i)) = false := by
    simpa using hi
  simp [writeChecks, hf, hn, inRange, ha, hb]

theorem any_bad_eq_false {α : Type} {bad : α → Bool} {es : List α} (h : ∀ e ∈ es, bad e = false) : es.any bad = false := by
  simpa using h

theorem setTables_taken (kind tag : Byte) (s : State) (f : Tables → Tables) :
    setTables (taken kind tag s) f = { taken kind tag s with tables := f s.tables } := by
  rw [setTables, taken_tables]

/-- The reply of a write whose entries are stored clamped (R175). -/
theorem writeResult_any {α : Type} [DecidableEq α] (clamp : α → α) (es : List α) :
    writeResult (es.any fun e => decide (clamp e ≠ e)) = if ∃ e ∈ es, clamp e ≠ e then .clamped else .done := by
  simp only [writeResult, List.any_eq_true, decide_eq_true_eq]

/-! ## The tables of the junction (R2, R4, R6, R19, R42, R48, R91) -/

section Writes

variable {s : State} {tag : Byte} {a : TableArgs} (hs : s.port.inService = none) (ho : s.port.configOpen = true)
  (hf : formOk a = true)

include hs ho hf

theorem exec_tableWriteFiu {es : List FiuEntry} (hn : es.length = a.count) (hi : ∀ i ∈ addressed a, i < 12)
    (hb : ∀ e ∈ es, badFiu e = false) :
    exec (.tableWriteFiu tag a es) s = .next (answered 0x02 tag
      { taken 0x02 tag s with
        tables := { s.tables with fiu := writeAt s.tables.fiu ((addressed a).zip es) } } .done .none) := by
  refine congrArg Host.Outcome.next (serve_of hs ?_)
  rw [writeFiu, checked_pass (writeChecks_pass hf hn hi (by simpa using ho) (any_bad_eq_false hb)), setTables_taken]

theorem exec_tableWriteGroup {es : List GroupEntry} (hn : es.length = a.count) (hi : ∀ i ∈ addressed a, i < 32)
    (hb : ∀ e ∈ es, badGroup e = false) :
    exec (.tableWriteGroup tag a es) s = .next (answered 0x02 tag
      { taken 0x02 tag s with
        tables := { s.tables with group := writeAt s.tables.group ((addressed a).zip (es.map clampGroup)) } }
      (if ∃ e ∈ es, clampGroup e ≠ e then .clamped else .done) .none) := by
  refine congrArg Host.Outcome.next (serve_of hs ?_)
  rw [writeGroup, checked_pass (writeChecks_pass hf hn hi (by simpa using ho) (any_bad_eq_false hb)), setTables_taken,
    writeResult_any]

theorem exec_tableWriteCircuit {es : List CircuitEntry} (hn : es.length = a.count) (hi : ∀ i ∈ addressed a, i < 96)
    (hb : ∀ e ∈ es, badCircuit e = false) :
    exec (.tableWriteCircuit tag a es) s = .next (answered 0x02 tag
      { taken 0x02 tag s with
        tables := { s.tables with circuit := writeAt s.tables.circuit ((addressed a).zip (es.map clampCircuit)) } }
      (if ∃ e ∈ es, clampCircuit e ≠ e then .clamped else .done) .none) := by
  refine congrArg Host.Outcome.next (serve_of hs ?_)
  rw [writeCircuit, checked_pass (writeChecks_pass hf hn hi (by simpa using ho) (any_bad_eq_false hb)), setTables_taken,
    writeResult_any]

theorem exec_tableWriteStage {es : List GroupSet} (hn : es.length = a.count) (hi : ∀ i ∈ addressed a, i < 16) :
    exec (.tableWriteStage tag a es) s = .next (answered 0x02 tag
      { taken 0x02 tag s with
        tables := { s.tables with stage := writeAt s.tables.stage ((addressed a).zip es) } } .done .none) := by
  refine congrArg Host.Outcome.next (serve_of hs ?_)
  rw [writeStage, checked_pass (writeChecks_pass hf hn hi (by simpa using ho) rfl), setTables_taken]

theorem exec_tableWriteInputMap {es : List InputEntry} (hn : es.length = a.count) (hi : ∀ i ∈ addressed a, i < 64)
    (hb : ∀ e ∈ es, badInput e = false) :
    exec (.tableWriteInputMap tag a es) s = .next (answered 0x02 tag
      { taken 0x02 tag s with
        tables := { s.tables with input := writeAt s.tables.input ((addressed a).zip (es.map clampInput)) } }
      (if ∃ e ∈ es, clampInput e ≠ e then .clamped else .done) .none) := by
  refine congrArg Host.Outcome.next (serve_of hs ?_)
  rw [writeInput, checked_pass (writeChecks_pass hf hn hi (by simpa using ho) (any_bad_eq_false hb)), setTables_taken,
    writeResult_any]

theorem exec_tableWriteConflictMatrix {es : List Nat} (hn : es.length = a.count) (hi : ∀ i ∈ addressed a, i < 1024)
    (hb : ∀ e ∈ es, badConflict e = false) :
    exec (.tableWriteConflictMatrix tag a es) s = .next (answered 0x02 tag
      { taken 0x02 tag s with
        tables := { s.tables with matrix := ((addressed a).zip es).foldl writeMatrixEntry s.tables.matrix } }
      .done .none) := by
  refine congrArg Host.Outcome.next (serve_of hs ?_)
  rw [writeMatrix, checked_pass (writeChecks_pass hf hn hi (by simpa using ho) (any_bad_eq_false hb)), setTables_taken]

theorem exec_tableWritePattern {es : List PatternEntry} (hn : es.length = a.count) (hi : ∀ i ∈ addressed a, i < 4)
    (hb : ∀ e ∈ es, badPattern e = false) :
    exec (.tableWritePattern tag a es) s = .next (answered 0x02 tag
      (restartRuns
        { taken 0x02 tag s with
          tables := { s.tables with pattern := writeAt s.tables.pattern ((addressed a).zip es) } } (addressed a))
      .done .none) := by
  refine congrArg Host.Outcome.next (serve_of hs ?_)
  rw [writePattern, checked_pass (writeChecks_pass hf hn hi (by simpa using ho) (any_bad_eq_false hb)), setTables_taken]

end Writes

/-! ## The conflict matrix (R18, R19) -/

/-- A row and a column in range are written, and a row out of range writes nothing. -/
theorem writeMatrixEntry_eq (m : Vector (Vector (Option Nat) 32) 32) (w : Nat × Nat) (col : w.1 % 32 < 32) :
    (∀ row : w.1 / 32 < 32, writeMatrixEntry m w =
      put m ⟨w.1 / 32, row⟩ (put m[w.1 / 32] ⟨w.1 % 32, col⟩ (conflictEntry w.2))) ∧
    (¬ w.1 / 32 < 32 → writeMatrixEntry m w = m) := by
  unfold writeMatrixEntry
  refine ⟨fun row => ?_, fun row => ?_⟩
  · rw [finAt, dif_pos row, finAt, dif_pos col]; rfl
  · rw [finAt, dif_neg row]

/-- One entry written to the matrix is read at its matrix index alone. -/
theorem writeMatrixEntry_getElem (m : Vector (Vector (Option Nat) 32) 32) (w : Nat × Nat) (i j : Fin 32) :
    (writeMatrixEntry m w)[i][j] = if w.1 = 32 * i.val + j.val then conflictEntry w.2 else m[i][j] := by
  have hi := i.isLt
  have hj := j.isLt
  have col : w.1 % 32 < 32 := Nat.mod_lt _ (by decide)
  obtain ⟨written, skipped⟩ := writeMatrixEntry_eq m w col
  by_cases row : w.1 / 32 < 32
  · rw [written row]
    by_cases hr : w.1 / 32 = i.val
    · obtain rfl : i = ⟨w.1 / 32, row⟩ := Fin.ext hr.symm
      rw [getElem_put_self]
      by_cases hc : w.1 % 32 = j.val
      · obtain rfl : j = ⟨w.1 % 32, col⟩ := Fin.ext hc.symm
        rw [getElem_put_self, if_pos (Nat.div_add_mod w.1 32).symm]
      · rw [getElem_put_of_ne _ _ _ _ (fun h => hc (congrArg Fin.val h)), if_neg (by dsimp only; omega)]
        rfl
    · rw [getElem_put_of_ne _ _ _ _ (fun h => hr (congrArg Fin.val h)), if_neg (by omega)]
  · rw [skipped row, if_neg (by omega)]

/-- A position to which nothing is written is as it was. -/
theorem writeMatrix_untouched (ws : List (Nat × Nat)) (i j : Fin 32) (h : ∀ w ∈ ws, w.1 ≠ 32 * i.val + j.val)
    (m : Vector (Vector (Option Nat) 32) 32) : (ws.foldl writeMatrixEntry m)[i][j] = m[i][j] := by
  induction ws generalizing m with
  | nil => rfl
  | cons w ws ih =>
    obtain ⟨hw, hws⟩ := List.forall_mem_cons.1 h
    rw [List.foldl_cons, ih hws, writeMatrixEntry_getElem, if_neg hw]

/-- A position holds what was written to it last. -/
theorem writeMatrix_last (before after : List (Nat × Nat)) (i j : Fin 32) (n : Nat)
    (h : ∀ w ∈ after, w.1 ≠ 32 * i.val + j.val) (m : Vector (Vector (Option Nat) 32) 32) :
    ((before ++ (32 * i.val + j.val, n) :: after).foldl writeMatrixEntry m)[i][j] = conflictEntry n := by
  rw [List.foldl_append, List.foldl_cons, writeMatrix_untouched after i j h, writeMatrixEntry_getElem, if_pos rfl]

/-! ## Flash runs of a pattern written (R91, R92) -/

theorem newRun_taken (kind tag : Byte) (s : State) (p : Nat) :
    newRun (taken kind tag s) p = { pattern := p, step := 0, time := 0, fresh := !s.inPulse } := by
  rw [newRun, taken_inPulse]

section Restart

variable (x : State) (t : Tables) (written : List Nat)

/-- Restarting the runs of the patterns written touches the runs alone. -/
theorem restartRuns_frame : restartRuns { x with tables := t } written =
    { x with
      tables := t
      junctionRun := (restartRuns { x with tables := t } written).junctionRun
      clearRuns := (restartRuns { x with tables := t } written).clearRuns } := rfl

theorem restartRuns_junctionRun : (restartRuns { x with tables := t } written).junctionRun =
    if x.junctionRun.pattern ∈ written then newRun x x.junctionRun.pattern else x.junctionRun := by
  simp only [restartRuns, List.contains_iff_mem]
  rfl

theorem restartRuns_clearRuns (g : Fin 32) : (restartRuns { x with tables := t } written).clearRuns[g] =
    x.clearRuns[g].map fun r => if r.pattern ∈ written then newRun x r.pattern else r := by
  simp only [restartRuns, List.contains_iff_mem, getElem_tab]
  rfl

end Restart

section HandOvers

variable (s : State)

/-! ## What leaves the junction flash run alone -/

@[simp] theorem takeRaise_junctionRun (k : Kind) (n : Nat) (d : Detail) :
    (takeRaise s k n d).junctionRun = s.junctionRun := by rw [takeRaise_frame]

@[simp] theorem takeClear_junctionRun (k : Kind) (n : Nat) : (takeClear s k n).junctionRun = s.junctionRun := by
  rw [takeClear_frame]

@[simp] theorem handTarget_junctionRun (g : Fin 32) (t : Target) : (handTarget s g t).junctionRun = s.junctionRun := by
  rw [handTarget_frame]

@[simp] theorem handAll_junctionRun (t : Target) : (handAll s t).junctionRun = s.junctionRun := by rw [handAll_frame]

@[simp] theorem refreshInhibit_junctionRun : (refreshInhibit s).junctionRun = s.junctionRun := rfl

@[simp] theorem raiseInvalid_junctionRun (p : Fin 8) : (raiseInvalid s p).junctionRun = s.junctionRun := by
  simp [raiseInvalid]

@[simp] theorem raiseBothInvalid_junctionRun (p f : Fin 8) : (raiseBothInvalid s p f).junctionRun = s.junctionRun := by
  unfold raiseBothInvalid; split <;> simp

/-- Clearing PLAN_INVALID changes the collector and the engine's raised flags alone (R66). -/
theorem refreshInvalid_frame : refreshInvalid s =
    { s with
      coll := (refreshInvalid s).coll, eng := { s.eng with invalidRaised := (refreshInvalid s).eng.invalidRaised } } := by
  unfold refreshInvalid
  generalize idx 8 = l
  induction l generalizing s with
  | nil => rfl
  | cons p l ih =>
    rw [List.foldl_cons, ih]
    split
    · rw [takeClear_frame]; rfl
    · rfl

@[simp] theorem refreshInvalid_junctionRun : (refreshInvalid s).junctionRun = s.junctionRun := by
  rw [refreshInvalid_frame]

@[simp] theorem changeGroup_junctionRun (was : GroupSet) (now : List (Fin 32)) (g : Fin 32) :
    (changeGroup was now s g).junctionRun = s.junctionRun := by
  unfold changeGroup; repeat' split
  all_goals simp

@[simp] theorem beginInterstage_junctionRun (p : Fin 8) (b : Fin 16) :
    (beginInterstage s p b).junctionRun = s.junctionRun := by
  unfold beginInterstage
  exact foldl_inv State.junctionRun _ (fun s g => changeGroup_junctionRun s _ _ g) _ _

@[simp] theorem stageStart_junctionRun (p : Fin 8) : (stageStart s p).junctionRun = s.junctionRun := by
  unfold stageStart
  dsimp only
  split <;> simp

@[simp] theorem abandonStep_junctionRun (p : Fin 8) : (abandonStep s p).junctionRun = s.junctionRun := by
  unfold abandonStep
  dsimp only
  repeat' split
  all_goals simp

@[simp] theorem gainGroup_junctionRun (g : Fin 32) : (gainGroup s g).junctionRun = s.junctionRun := by
  unfold gainGroup; repeat' split
  all_goals simp

@[simp] theorem gainGroups_junctionRun (l : List (Fin 32)) : (l.foldl gainGroup s).junctionRun = s.junctionRun :=
  foldl_inv State.junctionRun _ (fun s g => gainGroup_junctionRun s g) _ _

@[simp] theorem interstageProgress_junctionRun : (interstageProgress s).junctionRun = s.junctionRun := by
  unfold interstageProgress
  dsimp only
  repeat' split
  all_goals simp

@[simp] theorem refreshSub_junctionRun : (refreshSub s).junctionRun = s.junctionRun := by
  unfold refreshSub; repeat' split
  all_goals simp

@[simp] theorem engineStart_junctionRun (p : Fin 8) : (engineStart s p).junctionRun = s.junctionRun := by
  unfold engineStart; dsimp only; split <;> simp

@[simp] theorem orderlyStop_junctionRun : (orderlyStop s).junctionRun = s.junctionRun := by
  unfold orderlyStop; dsimp only; split
  · rw [foldl_inv State.junctionRun _ (fun s g => by split <;> simp)]; simp
  · simp

@[simp] theorem dealGoverning_junctionRun (p : Fin 8) : (dealGoverning s p).junctionRun = s.junctionRun := by
  unfold dealGoverning; dsimp only; repeat' split
  all_goals simp

@[simp] theorem nameGoverning_junctionRun (p : Fin 8) : (nameGoverning s p).junctionRun = s.junctionRun := by
  unfold nameGoverning; dsimp only; split <;> simp

@[simp] theorem writeMode_junctionRun (m : Mode) (r : Reason) : (writeMode s m r).junctionRun = s.junctionRun := by
  rw [writeMode_frame]

@[simp] theorem setDeparture_junctionRun (d : Dest) (r : Reason) : (setDeparture s d r).junctionRun = s.junctionRun := by
  unfold setDeparture; dsimp only; split <;> simp

@[simp] theorem takeFrame_junctionRun : (takeFrame s).junctionRun = s.junctionRun := by
  unfold takeFrame; repeat' split
  all_goals rfl

@[simp] theorem kick_junctionRun : (kick s).junctionRun = s.junctionRun := by unfold kick; split <;> simp

@[simp] theorem handAlarm_junctionRun : (handAlarm s).junctionRun = s.junctionRun := rfl

@[simp] theorem refreshSummary_junctionRun : (refreshSummary s).junctionRun = s.junctionRun := rfl

/-! ## A junction flash run that stands at its restart (R92) -/

/-- The junction flash run stands as a restart at this moment leaves it. Every rule of the hand-overs that touches the run restarts it, so they
keep this. -/
def RunRestarted : Prop := s.junctionRun = newRun s s.tables.startUp.pattern

variable {s}

theorem RunRestarted.of_eq {t : State} (h : RunRestarted s) (ht : t.tables = s.tables) (hp : t.inPulse = s.inPulse)
    (hr : t.junctionRun = s.junctionRun) : RunRestarted t := by
  rw [RunRestarted, newRun, hr, ht, hp]
  exact h

theorem RunRestarted.of_held {t : State} (h : RunRestarted s) (hk : held t = held s)
    (hr : t.junctionRun = s.junctionRun) : RunRestarted t :=
  h.of_eq (tables_of_kept (kept_of_held hk)) (inPulse_of_kept (kept_of_held hk)) hr

theorem RunRestarted.takeMode (h : RunRestarted s) (m : Mode) (r : Reason) : RunRestarted (takeMode s m r) := by
  by_cases hm : m = .flash ∨ m = .startFlash
  · have hk := kept_of_held (held_takeMode s m r)
    rw [RunRestarted, takeMode_junctionRun, if_pos hm, newRun, newRun, tables_of_kept hk, inPulse_of_kept hk]
  · exact h.of_held (held_takeMode s m r) (by rw [takeMode_junctionRun, if_neg hm])

theorem RunRestarted.setReason (h : RunRestarted s) (r : Reason) : RunRestarted (setReason s r) := h

theorem RunRestarted.enterDemanded (h : RunRestarted s) : RunRestarted (enterDemanded s) := by
  unfold Machine.enterDemanded
  split
  · split
    · exact h.setReason _
    · exact h.takeMode _ _
  · exact h

theorem RunRestarted.enterMode (h : RunRestarted s) (m : Mode) (r : Reason) : RunRestarted (enterMode s m r) := by
  unfold Machine.enterMode
  split
  · exact h.enterDemanded
  · split
    · exact (h.takeMode _ _).takeMode _ _
    · exact h.takeMode _ _

theorem RunRestarted.enterOrKeep (h : RunRestarted s) (m : Mode) (r : Reason) : RunRestarted (enterOrKeep s m r) := by
  unfold Machine.enterOrKeep
  split
  · exact h.setReason _
  · exact h.enterMode _ _

theorem RunRestarted.enterPlan (h : RunRestarted s) (p : Fin 8) (r : Reason) : RunRestarted (enterPlan s p r) := by
  unfold Machine.enterPlan
  split
  · exact h.enterDemanded
  · exact h.of_held (by simp) (by simp)

theorem RunRestarted.planEntry (h : RunRestarted s) (r : Reason) : RunRestarted (planEntry s r) := by
  unfold Machine.planEntry
  dsimp only
  split
  · exact h.enterMode _ _
  · split
    · exact h.enterPlan _ _
    · split
      · exact (h.of_held (held_raiseInvalid _ _) (raiseInvalid_junctionRun _ _)).enterPlan _ _
      · exact (h.of_held (held_raiseBothInvalid _ _ _) (raiseBothInvalid_junctionRun _ _ _)).enterMode _ _

theorem RunRestarted.takeExit (h : RunRestarted s) (r : Reason) : RunRestarted (takeExit s r) := by
  unfold Machine.takeExit
  split
  · split
    · exact h.enterMode _ _
    · exact h.enterOrKeep _ _
  · exact h.enterMode _ _

theorem RunRestarted.noPlanExit (h : RunRestarted s) : RunRestarted (noPlanExit s) := by
  unfold Machine.noPlanExit
  split
  · exact h.takeExit _
  · exact h

theorem RunRestarted.judgeDeparture (h : RunRestarted s) : RunRestarted (judgeDeparture s) := by
  unfold Machine.judgeDeparture completeDeparture
  dsimp only
  split
  · split
    · split
      · exact (h.enterMode _ _).takeExit _
      · exact h.enterMode _ _
    · exact h
  · exact h

theorem RunRestarted.takeStartRedEnd (h : RunRestarted s) : RunRestarted (takeStartRedEnd s) := by
  unfold Machine.takeStartRedEnd
  split
  · exact h.planEntry _
  · exact h

theorem RunRestarted.obeyDemand (h : RunRestarted s) (old : Demanded) : RunRestarted (obeyDemand s old) := by
  unfold Machine.obeyDemand
  dsimp only
  split
  · exact h.enterDemanded
  · split
    · split
      · exact h.enterMode _ _
      · exact h.takeExit _
      · exact h.takeExit _
      · exact h
    · exact h

theorem RunRestarted.handDemand (h : RunRestarted s) : RunRestarted (handDemand s) := by
  unfold Machine.handDemand
  dsimp only
  split
  · exact h
  · exact RunRestarted.obeyDemand (s := setColl s _) h _

theorem RunRestarted.settleOnce (h : RunRestarted s) : RunRestarted (settleOnce s) := by
  have demanded : RunRestarted (Machine.handDemand (handInhibit s)) :=
    RunRestarted.handDemand (h.of_held (held_handInhibit s) rfl)
  have progressed : RunRestarted (interstageProgress (refreshInhibit (Machine.handDemand (handInhibit s)))) :=
    demanded.of_held (by simp) (by simp)
  exact progressed.judgeDeparture.takeStartRedEnd.of_held (held_refreshSub _) (refreshSub_junctionRun _)

theorem RunRestarted.settleN (n : Nat) (h : RunRestarted s) : RunRestarted (settleN n s) := by
  induction n generalizing s with
  | zero => exact h
  | succ n ih => exact ih h.settleOnce

theorem RunRestarted.settle (h : RunRestarted s) : RunRestarted (settle s) :=
  (h.settleN 4).of_held (by simp [Machine.settle]) (by simp [Machine.settle])

theorem RunRestarted.nameSchedule (h : RunRestarted s) (m : SchedMode) : RunRestarted (nameSchedule s m) := by
  have named : RunRestarted (setMode s fun j => { j with schedMode := m }) := h
  have departed (d : Dest) (r : Reason) : RunRestarted (setDeparture (setMode s fun j => { j with schedMode := m }) d r) :=
    named.of_held (held_setDeparture _ _ _) (setDeparture_junctionRun _ _ _)
  unfold Machine.nameSchedule
  dsimp only
  split
  case h_1 =>
    split
    case h_3 => exact named
    all_goals
      split
      · exact departed _ _
      · exact named
  case h_2 | h_3 =>
    split
    · exact named
    · split
      · split
        · exact named.enterOrKeep _ _
        · exact named
      · split
        · exact named.takeExit _
        · exact named
  all_goals exact named

theorem RunRestarted.handPlan (h : RunRestarted s) (always : Bool) : RunRestarted (handPlan always s) := by
  unfold Machine.handPlan
  dsimp only
  split
  · have formed : RunRestarted { s with sched := { s.sched with effPlan := s.sched.planOverride.getD s.sched.plan } } := h
    exact (formed.of_held (held_nameGoverning _ _) (nameGoverning_junctionRun _ _)).noPlanExit
  · exact h

theorem RunRestarted.formResults (h : RunRestarted s) (always : Bool) : RunRestarted (formResults always s) := by
  unfold Machine.formResults
  dsimp only
  have formed : RunRestarted { s with
      sched := { s.sched with mode := schedModeNow s, plan := schedPlanNow s, dim := schedDimNow s } } := h
  generalize ({ s with sched := _ } : State) = x at formed ⊢
  have named : RunRestarted (if (always || decide (schedModeNow s ≠ s.sched.mode)) = true then
      Machine.settle (Machine.nameSchedule x (schedModeNow s)) else x) := by
    split
    · exact (formed.nameSchedule _).settle
    · exact formed
  exact (named.handPlan always).of_eq rfl rfl rfl

theorem RunRestarted.answered (h : RunRestarted s) (kind tag : Byte) (r : Result) (d : ReplyData) :
    RunRestarted (answered kind tag s r d) := by
  have ready : RunRestarted (answer kind tag ⟨s, r, d⟩) :=
    h.settle.of_eq (by simp only [answer, setPort_tables]) (by simp only [answer, setPort_inPulse])
      (by simp only [answer, setPort_junctionRun])
  rw [Machine.answered, finish]
  exact ready.settle.of_eq (tables_of_kept (kept_kick _)) (inPulse_of_kept (kept_kick _)) (kick_junctionRun _)


/-! ## The hand-overs while configuration is open (R77, R93, R177) -/

/-- What configuration open holds of a lawful state: the mode is DARK for a reason that nothing but START leaves, the junction is not started, the
engine runs no plan and no departure waits. -/
structure Configuring (s : State) : Prop where
  mode : s.jm.mode = .dark
  started : s.jm.started = false
  reason : s.jm.reason = .reset ∨ s.jm.reason = .restart ∨ s.jm.reason = .config
  running : s.eng.running = none
  departure : s.jm.departure = none

theorem Lawful.toConfiguring (h : Lawful s) (ho : s.port.configOpen = true) : Configuring s := by
  obtain ⟨mode, started, reason⟩ := h.configuring ho
  obtain ⟨_, running, departure⟩ := h.darkness mode
  exact ⟨mode, started, reason, running, departure⟩

/-- The part of a state that no hand-over touches while configuration is open: the latched demands, the clearance runs, the mode record, the engine
but for its PLAN_INVALID flags and the groups but for the inhibit set. -/
def calm (s : State) : StageSet × Vector (Option Run) 32 × ModeRec × Engine × Vector GroupRec 32 :=
  (s.latched, s.clearRuns, s.jm, { s.eng with invalidRaised := 0 }, tab fun g => { s.groups[g] with inhibited := false })

theorem calm_fields {t : State} (h : calm t = calm s) : t.latched = s.latched ∧ t.clearRuns = s.clearRuns ∧ t.jm = s.jm ∧
    t.eng = { s.eng with invalidRaised := t.eng.invalidRaised } ∧
    ∀ g : Fin 32, { t.groups[g] with inhibited := s.groups[g].inhibited } = s.groups[g] := by
  simp only [calm, Prod.mk.injEq] at h
  obtain ⟨latched, runs, jm, eng, groups⟩ := h
  refine ⟨latched, runs, jm, congrArg (fun e : Engine => { e with invalidRaised := t.eng.invalidRaised }) eng, fun g => ?_⟩
  have hg := congrArg (fun v : Vector GroupRec 32 => v[g]) groups
  simp only [getElem_tab] at hg
  exact congrArg (fun r : GroupRec => { r with inhibited := s.groups[g].inhibited }) hg

theorem Configuring.of_calm {t : State} (h : Configuring s) (hc : calm t = calm s) : Configuring t := by
  obtain ⟨_, _, jm, eng, _⟩ := calm_fields hc
  refine ⟨?_, ?_, ?_, ?_, ?_⟩
  · rw [jm]; exact h.mode
  · rw [jm]; exact h.started
  · rw [jm]; exact h.reason
  · rw [eng]; exact h.running
  · rw [jm]; exact h.departure

/-- States that agree in the calm part do so after the same governing plan is recorded. -/
theorem calm_governing {x y : State} (h : calm x = calm y) (p : Fin 8) :
    calm { x with eng := { x.eng with governing := p } } = calm { y with eng := { y.eng with governing := p } } :=
  congrArg (fun v => (v.1, v.2.1, v.2.2.1, { v.2.2.2.1 with governing := p }, v.2.2.2.2)) h

/-- The same for the schedule mode named. -/
theorem calm_schedMode {x y : State} (h : calm x = calm y) (m : SchedMode) :
    calm { x with jm := { x.jm with schedMode := m } } = calm { y with jm := { y.jm with schedMode := m } } :=
  congrArg (fun v => (v.1, v.2.1, { v.2.2.1 with schedMode := m }, v.2.2.2)) h

@[simp] theorem calm_setColl (s : State) (f : Collector → Collector) : calm (setColl s f) = calm s := rfl

@[simp] theorem calm_setPort (s : State) (f : Port → Port) : calm (setPort s f) = calm s := rfl

@[simp] theorem calm_sched (s : State) (r : SchedRec) : calm { s with sched := r } = calm s := rfl

@[simp] theorem calm_refreshInhibit (s : State) : calm (refreshInhibit s) = calm s := by
  simp only [calm, refreshInhibit, getElem_tab]

@[simp] theorem calm_handInhibit (s : State) : calm (handInhibit s) = calm s := by
  rw [handInhibit, calm_refreshInhibit, formInhibit, calm_setColl]

@[simp] theorem calm_takeClear (s : State) (k : Kind) (n : Nat) : calm (takeClear s k n) = calm s := by
  rw [takeClear_frame]; rfl

@[simp] theorem calm_refreshInvalid (s : State) : calm (refreshInvalid s) = calm s :=
  foldl_inv calm _ (fun s p => by
    split
    · exact calm_takeClear s _ _
    · rfl) _ s

@[simp] theorem calm_kick (s : State) : calm (kick s) = calm s := by
  unfold kick takeFrame
  repeat' split
  all_goals rfl

namespace Configuring

/-- No demand is more severe than DARK, and no reason of an open configuration is FAULT (R88). -/
theorem obeyDemand_eq (h : Configuring s) (old : Demanded) : obeyDemand s old = s := by
  have least (d : Demanded) : d.severity ≤ 2 := by cases d <;> decide
  have noFault : s.jm.reason ≠ .fault := by
    rcases h.reason with e | e | e <;> rw [e] <;> decide
  rw [obeyDemand, if_neg, if_neg fun e => noFault e.2]
  rw [h.mode]
  exact Nat.not_lt.2 (least _)

theorem calm_handDemand (h : Configuring s) : calm (handDemand s) = calm s := by
  have demanded : Configuring (setColl s fun c => { c with demanded := demandedNow s }) := h.of_calm (calm_setColl _ _)
  unfold handDemand
  dsimp only
  split
  · rfl
  · rw [demanded.obeyDemand_eq, calm_setColl]

theorem calm_settleOnce (h : Configuring s) : calm (settleOnce s) = calm s := by
  have demanded : calm (refreshInhibit (handDemand (handInhibit s))) = calm s := by
    rw [calm_refreshInhibit, (h.of_calm (calm_handInhibit s)).calm_handDemand, calm_handInhibit]
  rw [settleOnce]
  generalize refreshInhibit (handDemand (handInhibit s)) = x at demanded ⊢
  obtain ⟨mode, _, _, running, departure⟩ := h.of_calm demanded
  have progress : interstageProgress x = x := by rw [interstageProgress, running]
  have departed : judgeDeparture x = x := by rw [judgeDeparture, departure]
  have startRed : takeStartRedEnd x = x := by rw [takeStartRedEnd, startRedDue, mode]; rfl
  have sub : refreshSub x = x := by rw [refreshSub, running]
  rw [progress, departed, startRed, sub, demanded]

theorem calm_settleN (n : Nat) (h : Configuring s) : calm (settleN n s) = calm s := by
  induction n generalizing s with
  | zero => rfl
  | succ n ih => rw [settleN, ih (h.of_calm h.calm_settleOnce), h.calm_settleOnce]

theorem calm_settle (h : Configuring s) : calm (settle s) = calm s := by
  rw [settle, refreshSummary, calm_setPort, handAlarm, calm_setColl, h.calm_settleN]

/-- Answering a request leaves the calm part as the request's own rule left it. -/
theorem calm_answered (h : Configuring s) (kind tag : Byte) (r : Result) (d : ReplyData) :
    calm (answered kind tag s r d) = calm s := by
  have ready : calm (answer kind tag ⟨s, r, d⟩) = calm s := by rw [answer, calm_setPort, h.calm_settle]
  rw [answered, finish, calm_kick, (h.of_calm ready).calm_settle, ready]

/-- A request received restarts the silence timer and changes nothing else of the calm part (R87). -/
theorem calm_taken (h : Configuring s) (kind tag : Byte) : calm (taken kind tag s) =
    calm { s with jm := { s.jm with silence := 0, silenceFresh := !s.inPulse, silent := false } } := by
  have heard : calm (heardRequest (setPort (between s) fun p => { p with receiver := .hunting })) =
      calm { s with jm := { s.jm with silence := 0, silenceFresh := !s.inPulse, silent := false } } := by
    unfold heardRequest
    dsimp only
    split
    · rw [calm_takeClear]; rfl
    · rfl
  have silenced : Configuring { s with jm := { s.jm with silence := 0, silenceFresh := !s.inPulse, silent := false } } :=
    ⟨h.mode, h.started, h.reason, h.running, h.departure⟩
  rw [taken, calm_setPort, received, (silenced.of_calm heard).calm_settle, heard]

/-! ## The schedule results while configuration is open (R103) -/

theorem nameSchedule_eq (h : Configuring s) (m : SchedMode) :
    nameSchedule s m = setMode s fun j => { j with schedMode := m } := by
  simp only [nameSchedule, h.mode, h.started]
  rfl

theorem noPlanExit_eq (h : Configuring s) : noPlanExit s = s := by
  have noPlan : s.jm.reason ≠ .noPlan := by
    rcases h.reason with e | e | e <;> rw [e] <;> decide
  rw [noPlanExit, stoppedFor, decide_eq_false noPlan, Bool.and_false]
  rfl

/-- With no plan running the governing plan named is recorded, and PLAN_INVALID of a plan that no longer governs is cleared (R66). -/
theorem calm_nameGoverning (h : Configuring s) (p : Fin 8) :
    calm (nameGoverning s p) = calm { s with eng := { s.eng with governing := p } } := by
  have recorded : Configuring (setEng s fun e => { e with governing := p }) :=
    ⟨h.mode, h.started, h.reason, h.running, h.departure⟩
  have idle := (recorded.of_calm (calm_refreshInvalid _)).running
  rw [nameGoverning]
  dsimp only
  rw [idle, if_neg (by decide), calm_refreshInvalid]
  rfl

/-- The effective plan is named as the governing plan where it has changed (R66, R84, R103). -/
theorem calm_handPlan (h : Configuring s) {p : Fin 8} (hp : s.sched.planOverride.getD s.sched.plan = p) :
    calm (handPlan false s) =
      calm { s with eng := { s.eng with governing := if p = s.sched.effPlan then s.eng.governing else p } } := by
  rw [handPlan]
  dsimp only
  rw [hp]
  by_cases same : p = s.sched.effPlan
  · rw [if_neg (by simp [same]), if_pos same]
  · have formed : Configuring { s with sched := { s.sched with effPlan := p } } :=
      ⟨h.mode, h.started, h.reason, h.running, h.departure⟩
    have governed : Configuring { s with eng := { s.eng with governing := p } } :=
      ⟨h.mode, h.started, h.reason, h.running, h.departure⟩
    rw [if_pos (by simp [same]), if_neg same,
      (governed.of_calm (formed.calm_nameGoverning p)).noPlanExit_eq, formed.calm_nameGoverning]
    rfl

/-- The schedule mode is named where it has changed (R83, R103). -/
theorem calm_nameChanged (h : Configuring s) (m old : SchedMode) :
    calm (if (false || decide (m ≠ old)) = true then settle (nameSchedule s m) else s) =
      calm { s with jm := { s.jm with schedMode := if m = old then s.jm.schedMode else m } } := by
  have named : Configuring (setMode s fun j => { j with schedMode := m }) :=
    ⟨h.mode, h.started, h.reason, h.running, h.departure⟩
  by_cases same : m = old
  · rw [if_neg (by simp [same]), if_pos same]
  · rw [if_pos (by simp [same]), if_neg same, h.nameSchedule_eq, named.calm_settle]
    rfl

/-- Forming the results names a schedule mode and a governing plan that have changed, and nothing else of the calm part (R66, R83, R103). -/
theorem calm_formResults (h : Configuring s) {p : Fin 8} (hp : s.sched.planOverride.getD (schedPlanNow s) = p) :
    calm (formResults false s) =
      calm { s with
        jm := { s.jm with schedMode := if schedModeNow s = s.sched.mode then s.jm.schedMode else schedModeNow s }
        eng := { s.eng with governing := if p = s.sched.effPlan then s.eng.governing else p } } := by
  have formed : Configuring { s with
      sched := { s.sched with mode := schedModeNow s, plan := schedPlanNow s, dim := schedDimNow s } } :=
    ⟨h.mode, h.started, h.reason, h.running, h.departure⟩
  have named := formed.calm_nameChanged (schedModeNow s) s.sched.mode
  have silenced : Configuring { s with
      jm := { s.jm with schedMode := if schedModeNow s = s.sched.mode then s.jm.schedMode else schedModeNow s } } :=
    ⟨h.mode, h.started, h.reason, h.running, h.departure⟩
  unfold formResults handDim
  dsimp only
  rw [calm_sched]
  generalize hx : (if (false || decide (schedModeNow s ≠ s.sched.mode)) = true then _ else _ : State) = x at named ⊢
  have results : x.sched = { s.sched with mode := schedModeNow s, plan := schedPlanNow s, dim := schedDimNow s } := by
    rw [← hx]
    split
    · rw [settle_sched, formed.nameSchedule_eq]; rfl
    · rfl
  have agreed : calm x = calm { s with
      jm := { s.jm with schedMode := if schedModeNow s = s.sched.mode then s.jm.schedMode else schedModeNow s } } := named
  have governs : x.eng.governing = s.eng.governing := by
    obtain ⟨_, _, _, eng, _⟩ := calm_fields agreed
    rw [eng]
  have effective : x.sched.effPlan = s.sched.effPlan := by rw [results]
  rw [(silenced.of_calm agreed).calm_handPlan (p := p) (by rw [results, ← hp]), effective, governs]
  exact calm_governing agreed (if p = s.sched.effPlan then s.eng.governing else p)

end Configuring


end HandOvers

/-! ## The start-up record written (R76) -/

/-- The schedule results are formed from the tables and the clock alone (R103). -/
theorem schedResults_congr {a b : State} (ht : a.tables = b.tables) (hc : a.clock = b.clock) :
    schedModeNow a = schedModeNow b ∧ schedPlanNow a = schedPlanNow b ∧ schedDimNow a = schedDimNow b := by
  have mode (x : State) : schedModeNow x = schedModeNow { State.reset with tables := x.tables, clock := x.clock } := rfl
  have plan (x : State) : schedPlanNow x = schedPlanNow { State.reset with tables := x.tables, clock := x.clock } := rfl
  have dim (x : State) : schedDimNow x = schedDimNow { State.reset with tables := x.tables, clock := x.clock } := rfl
  rw [mode a, mode b, plan a, plan b, dim a, dim b, ht, hc]
  exact ⟨rfl, rfl, rfl⟩

/-- The mains supervisor once a start-up record has been stored: a change of the mains nominal restarts its counts (R94, R97). -/
def nominalStored (s : State) (e : StartUp) : Mains :=
  if e.mains = s.tables.startUp.mains then s.mains
  else { s.mains with outOfBand := 0, inBand := 0, windowCount := 0 }

/-- The state in which a write of the start-up record forms the schedule results. -/
def startUpStored (s : State) (e : StartUp) : State :=
  refreshInvalid (restartJunctionRun
    { s with tables := { s.tables with startUp := e }, mains := nominalStored s e })

theorem takeStartUp_eq (s : State) (e : StartUp) : takeStartUp s e = formResults false (startUpStored s e) := by
  unfold takeStartUp startUpStored nominalStored
  dsimp only
  split <;> rfl

theorem kept_startUpStored (s : State) (e : StartUp) : kept (startUpStored s e) =
    { kept s with tables := { s.tables with startUp := e }, mains := nominalStored s e } := by
  rw [startUpStored, kept_of_held (held_refreshInvalid _)]
  rfl

theorem calm_startUpStored (s : State) (e : StartUp) : calm (startUpStored s e) = calm s := by
  rw [startUpStored, calm_refreshInvalid]
  rfl

theorem startUpStored_restarted (s : State) (e : StartUp) : RunRestarted (startUpStored s e) :=
  RunRestarted.of_held (s := restartJunctionRun
    { s with tables := { s.tables with startUp := e }, mains := nominalStored s e }) rfl
    (held_refreshInvalid _) (refreshInvalid_junctionRun _)

/-- The field bus but for its report queue, from the kept part. -/
theorem bus_eq_of_kept_queue {a : State} {K : Kept} {b : Bus} (h : kept a = K) (hb : K.bus = { b with queue := [] }) :
    a.bus = { b with queue := a.bus.queue } :=
  congrArg (fun x : Bus => { x with queue := a.bus.queue }) ((congrArg Kept.bus h).trans hb)

/-- The state a write of the start-up record leaves. -/
def startUpWritten (tag : Byte) (s : State) (e : StartUp) : State :=
  answered 0x02 tag (takeStartUp (taken 0x02 tag s) e) .done .none

section StartUp

variable (tag : Byte) (s : State) (e : StartUp)

/-- What a write of the start-up record leaves of the kept part. -/
theorem kept_startUpWritten : kept (startUpWritten tag s e) =
    { keptTaken 0x02 tag s with
      tables := { s.tables with startUp := e }, mains := nominalStored s e
      sched := formedSched (startUpStored (taken 0x02 tag s) e)
      schedMode := (startUpWritten tag s e).jm.schedMode } := by
  have stored : kept (startUpStored (taken 0x02 tag s) e) = { keptTaken 0x02 tag s with
      tables := { s.tables with startUp := e }, mains := nominalStored s e } := by
    rw [kept_startUpStored, kept_taken, taken_tables, nominalStored, taken_tables, taken_mains]; rfl
  have written : kept (startUpWritten tag s e) = { kept (startUpStored (taken 0x02 tag s) e) with
      sched := formedSched (startUpStored (taken 0x02 tag s) e)
      schedMode := (startUpWritten tag s e).jm.schedMode } := by
    have h := kept_formResults (startUpStored (taken 0x02 tag s) e) false
    rw [← takeStartUp_eq, ← kept_answered 0x02 tag _ .done .none] at h
    have mode := schedMode_eq_of_kept h
    rw [startUpWritten, h, mode]
  rw [written, stored]

theorem startUpStored_sched : (startUpStored (taken 0x02 tag s) e).sched = s.sched := by
  rw [sched_eq_of_kept (kept_startUpStored (taken 0x02 tag s) e), kept_taken]; rfl

theorem startUpWritten_sched : (startUpWritten tag s e).sched = { s.sched with
    mode := schedModeNow (startUpWritten tag s e), plan := schedPlanNow (startUpWritten tag s e)
    dim := schedDimNow (startUpWritten tag s e)
    effPlan := s.sched.planOverride.getD (schedPlanNow (startUpWritten tag s e))
    effDim := s.sched.dimOverride.getD (schedDimNow (startUpWritten tag s e)) } := by
  have hk := kept_startUpWritten tag s e
  have stored := kept_startUpStored (taken 0x02 tag s) e
  have tables : (startUpWritten tag s e).tables = (startUpStored (taken 0x02 tag s) e).tables := by
    rw [tables_eq_of_kept hk, tables_eq_of_kept stored, taken_tables]
  have clock : (startUpWritten tag s e).clock = (startUpStored (taken 0x02 tag s) e).clock := by
    rw [clock_eq_of_kept hk, clock_eq_of_kept stored, kept_taken]
  obtain ⟨mode, plan, dim⟩ := schedResults_congr tables clock
  rw [sched_eq_of_kept hk, mode, plan, dim, formedSched, startUpStored_sched]

theorem startUpWritten_junctionRun : (startUpWritten tag s e).junctionRun =
    { pattern := e.pattern, step := 0, time := 0, fresh := !s.inPulse } := by
  have restarted : RunRestarted (startUpWritten tag s e) := by
    rw [startUpWritten, takeStartUp_eq]
    exact ((startUpStored_restarted _ e).formResults false).answered _ _ _ _
  have hk := kept_startUpWritten tag s e
  rw [restarted, newRun, tables_eq_of_kept hk, inPulse_eq_of_kept hk]
  rfl

/-- In an open configuration a write of the start-up record restarts the silence timer and names a schedule mode and a governing plan that have
changed, and nothing else of the calm part (R66, R83, R87, R103). -/
theorem Configuring.calm_startUpWritten (h : Configuring s) : calm (startUpWritten tag s e) = calm { s with
    jm := { s.jm with
      silence := 0, silenceFresh := !s.inPulse, silent := false
      schedMode := if (startUpWritten tag s e).sched.mode = s.sched.mode then s.jm.schedMode
        else (startUpWritten tag s e).sched.mode }
    eng := { s.eng with
      governing := if (startUpWritten tag s e).sched.effPlan = s.sched.effPlan then s.eng.governing
        else (startUpWritten tag s e).sched.effPlan } } := by
  have sched : (startUpWritten tag s e).sched = formedSched (startUpStored (taken 0x02 tag s) e) :=
    sched_eq_of_kept (kept_startUpWritten tag s e)
  have heard := (calm_startUpStored (taken 0x02 tag s) e).trans (h.calm_taken 0x02 tag)
  have before := startUpStored_sched tag s e
  rw [sched, startUpWritten, takeStartUp_eq]
  generalize startUpStored (taken 0x02 tag s) e = x at heard before ⊢
  have silenced : Configuring { s with jm := { s.jm with silence := 0, silenceFresh := !s.inPulse, silent := false } } :=
    ⟨h.mode, h.started, h.reason, h.running, h.departure⟩
  have formed := (silenced.of_calm heard).calm_formResults (p := (formedSched x).effPlan) rfl
  obtain ⟨_, _, jm, eng, _⟩ := calm_fields heard
  have schedMode : x.jm.schedMode = s.jm.schedMode := by rw [jm]
  have governing : x.eng.governing = s.eng.governing := by rw [eng]
  rw [before, schedMode, governing] at formed
  have named := calm_governing (calm_schedMode heard (if schedModeNow x = s.sched.mode then s.jm.schedMode else schedModeNow x))
    (if (formedSched x).effPlan = s.sched.effPlan then s.eng.governing else (formedSched x).effPlan)
  have still : Configuring (formResults false x) := by
    refine Configuring.of_calm ?_ (formed.trans named)
    exact ⟨h.mode, h.started, h.reason, h.running, h.departure⟩
  exact (still.calm_answered 0x02 tag .done .none).trans (formed.trans named)

end StartUp

theorem exec_tableWriteStartUpRecord {s : State} {tag : Byte} {a : TableArgs} (hs : s.port.inService = none)
    (ho : s.port.configOpen = true) (hf : formOk a = true) {es : List StartUp} {e : StartUp} (hn : es.length = a.count)
    (he : es.getLast? = some e) (hi : ∀ i ∈ addressed a, i < 1) (hb : ∀ x ∈ es, badStartUp x = false) :
    exec (.tableWriteStartUpRecord tag a es) s = .next (startUpWritten tag s e) := by
  refine congrArg Host.Outcome.next (serve_of hs ?_)
  rw [writeStartUp, checked_pass (writeChecks_pass hf hn hi (by simpa using ho) (any_bad_eq_false hb)), he]

/-- Settles O7. A table of the junction is written entry by entry and answered; for the start-up record, what the hand-overs never touch gives the
kept fields, a restarted run stays restarted, and an open configuration of a lawful state leaves its calm part alone. -/
theorem configTablesWritten : Obligations.ConfigTablesWritten := by
  intro s tag a hs ho hf
  refine ⟨fun es => exec_tableWriteFiu hs ho hf, fun es => exec_tableWriteGroup hs ho hf,
    fun es => exec_tableWriteCircuit hs ho hf, fun es hn hi hb => ?matrix, fun es => exec_tableWriteStage hs ho hf,
    fun es => exec_tableWriteInputMap hs ho hf, fun es hn hi hb => ?pattern, fun es e hn he hi hb => ?startUp⟩
  case matrix =>
    refine ⟨_, exec_tableWriteConflictMatrix hs ho hf hn hi hb, fun i j hij => ?_, fun i j n before after split last => ?_⟩
    · exact writeMatrix_untouched _ i j (fun w hw e => hij (e ▸ (List.of_mem_zip hw).1)) _
    · rw [split]
      exact writeMatrix_last before after i j n last _
  case pattern =>
    refine ⟨_, exec_tableWritePattern hs ho hf hn hi hb, restartRuns_frame _ _ _, ?_, fun g => ?_⟩
    · rw [restartRuns_junctionRun, newRun_taken]
    · rw [restartRuns_clearRuns]
      simp only [newRun_taken]
  case startUp =>
    have hk := kept_startUpWritten tag s e
    have sched := startUpWritten_sched tag s e
    refine ⟨_, exec_tableWriteStartUpRecord hs ho hf hn he hi hb, replied_answered _ _ _ _ _, tables_eq_of_kept hk,
      mains_eq_of_kept hk, startUpWritten_junctionRun tag s e, sched, clock_eq_of_kept hk, prov_eq_of_kept hk,
      cable_eq_of_kept hk, inputs_eq_of_kept hk, map_eq_of_kept hk, ?bus, identity_eq_of_kept hk,
      (configOpen_eq_of_kept hk).trans ho, fun lawful => ?calm⟩
    case bus => exact bus_eq_of_kept_queue hk rfl
    case calm =>
      have still := (lawful.toConfiguring ho).calm_startUpWritten tag s e
      generalize startUpWritten tag s e = t at still ⊢
      exact calm_fields still

end Sys2Proof.Machine

namespace Sys2Proof.Machine

open Sys2Proof

/-! ## What the laws of the device are read from (R1, R13, R30, R75) -/

/-- The part of a state that the laws of the device are read from, with the rest of the mode record, the observed-green fields, the groups whose
types act and the cable parameters, which the same work leaves alone. -/
structure Footing where
  group : Vector GroupEntry 32
  matrix : Vector (Vector (Option Nat) 32) 32
  cable : CableParams
  aspects : Vector Aspect 32
  marks : Vector Marks 32
  acting : GroupSet
  running : Option (Fin 8)
  jm : ModeRec
  configOpen : Bool

/-- The footing of a state. -/
def footing (s : State) : Footing :=
  { group := s.tables.group, matrix := s.tables.matrix, cable := s.tables.cable, aspects := tab fun g => s.groups[g].aspect
    marks := tab fun g => marksOf s.groups[g], acting := s.acting, running := s.eng.running, jm := s.jm
    configOpen := s.port.configOpen }

theorem live_of_group {s t : State} (h : t.tables.group = s.tables.group) : live t = live s := by
  funext g; simp [live, groupType, h]

theorem conflicts_of_group {s t : State} (h : t.tables.group = s.tables.group) (h' : t.tables.matrix = s.tables.matrix) :
    conflicts t = conflicts s := by
  funext i j; simp [conflicts, live_of_group h, ig, h']

theorem aspect_of_footing {s t : State} (h : footing t = footing s) (g : Fin 32) :
    t.groups[g].aspect = s.groups[g].aspect := by
  have := congrArg (fun f : Footing => f.aspects[g]) h
  simpa only [footing, getElem_tab] using this

/-- No group that conflicts with a going one goes, where each group that goes went before. -/
theorem going_of_aspect {a b : GroupRec} (h : a.aspect = b.aspect) : going a = going b := by
  simp only [going, h]

variable {s t : State}

/-- A state with the same groups in use and matrix, in which only groups go that went before and groups of type UNUSED stay as they are, is as
lawful as its mode allows. -/
theorem Lawful.of_going (h : Lawful s) (hg : t.tables.group = s.tables.group) (hm : t.tables.matrix = s.tables.matrix)
    (ho : t.port.configOpen = s.port.configOpen)
    (went : ∀ g : Fin 32, going t.groups[g] = true → going s.groups[g] = true)
    (unused : ∀ g : Fin 32, live s g = false → t.groups[g].aspect = s.groups[g].aspect)
    (dark : t.jm.mode = .dark →
      (∀ g : Fin 32, t.groups[g].aspect = .dark) ∧ t.eng.running = none ∧ t.jm.departure = none)
    (conf : s.port.configOpen = true → t.jm.mode = .dark ∧ t.jm.started = false ∧
      (t.jm.reason = .reset ∨ t.jm.reason = .restart ∨ t.jm.reason = .config)) : Lawful t where
  apart i j hc hij := h.apart i j (conflicts_of_group hg hm ▸ hc) ⟨went i hij.1, went j hij.2⟩
  symmetric hc i j hij := by
    rw [conflicts_of_group hg hm] at hij ⊢
    exact h.symmetric (ho ▸ hc) i j hij
  darkness := dark
  unusedDark g hl := by
    rw [live_of_group hg] at hl
    rw [unused g hl, h.unusedDark g hl]
  configuring hc := conf (ho ▸ hc)

/-- The laws are read from the footing alone. -/
theorem Lawful.of_footing (h : Lawful s) (e : footing t = footing s) : Lawful t := by
  have aspect := aspect_of_footing e
  simp only [footing, Footing.mk.injEq] at e
  obtain ⟨hg, hm, -, -, -, -, hr, hj, ho⟩ := e
  refine h.of_going hg hm ho (fun g hgo => ?_) (fun g _ => aspect g) ?_ ?_
  · rwa [← going_of_aspect (aspect g)]
  · rw [hj, hr]
    exact fun hd => ⟨fun g => (aspect g).trans ((h.darkness hd).1 g), (h.darkness hd).2⟩
  · rw [hj]
    exact h.configuring

/-- Configuration is closed in a mode other than DARK. -/
theorem Lawful.closed_of_mode (h : Lawful s) (hm : s.jm.mode ≠ .dark) : s.port.configOpen = false := by
  by_contra ho
  exact hm (h.configuring (by simpa using ho)).1

/-- Configuration is closed once the junction is started. -/
theorem Lawful.closed_of_started (h : Lawful s) (hs : s.jm.started = true) : s.port.configOpen = false := by
  by_contra ho
  rw [(h.configuring (by simpa using ho)).2.1] at hs
  cases hs

/-- Configuration is closed where the reason of the mode is one that START and what follows it give. -/
theorem Lawful.closed_of_reason (h : Lawful s) {r : Reason} (hr : s.jm.reason = r) (h1 : r ≠ .reset) (h2 : r ≠ .restart)
    (h3 : r ≠ .config) : s.port.configOpen = false := by
  by_contra ho
  rcases (h.configuring (by simpa using ho)).2.2 with e | e | e <;> rw [hr] at e
  exacts [h1 e, h2 e, h3 e]

/-- A group that is not DARK says that the mode is not DARK (R75). -/
theorem Lawful.mode_of_aspect (h : Lawful s) {g : Fin 32} (ha : s.groups[g].aspect ≠ .dark) : s.jm.mode ≠ .dark :=
  fun hm => ha ((h.darkness hm).1 g)

/-- A plan that runs says that the mode is not DARK (R75). -/
theorem Lawful.mode_of_running (h : Lawful s) (hr : s.eng.running ≠ none) : s.jm.mode ≠ .dark :=
  fun hm => hr (h.darkness hm).2.1

theorem Lawful.mode_of_departure (h : Lawful s) (hd : s.jm.departure ≠ none) : s.jm.mode ≠ .dark :=
  fun hm => hd (h.darkness hm).2.2

/-! ## Work that makes no group go (R24 to R28) -/

/-- From `s` to `t` no group has begun to go, no group of type UNUSED has changed its aspect, and the tables, the mode record and the configuration
are as they were. -/
structure Eased (s t : State) : Prop where
  tables : t.tables = s.tables
  configOpen : t.port.configOpen = s.port.configOpen
  jm : t.jm = s.jm
  went : ∀ g : Fin 32, going t.groups[g] = true → going s.groups[g] = true
  unused : ∀ g : Fin 32, live s g = false → t.groups[g].aspect = s.groups[g].aspect

/-- Outside DARK such work keeps the laws. -/
theorem Lawful.of_eased (h : Lawful s) (e : Eased s t) (hm : s.jm.mode ≠ .dark) : Lawful t :=
  h.of_going (congrArg Tables.group e.tables) (congrArg Tables.matrix e.tables) e.configOpen e.went e.unused
    (fun hd => absurd (e.jm ▸ hd) hm) (fun ho => by rw [h.closed_of_mode hm] at ho; cases ho)

theorem Eased.refl (s : State) : Eased s s := ⟨rfl, rfl, rfl, fun _ => id, fun _ _ => rfl⟩

theorem Eased.trans {u : State} (h : Eased s t) (h' : Eased t u) : Eased s u where
  tables := h'.tables.trans h.tables
  configOpen := h'.configOpen.trans h.configOpen
  jm := h'.jm.trans h.jm
  went g hg := h.went g (h'.went g hg)
  unused g hl := (h'.unused g (by rw [live_congr h.tables]; exact hl)).trans (h.unused g hl)

/-- A fold of such work is such work. -/
theorem eased_foldl {α : Type} (f : State → α → State) (hf : ∀ t a, Eased t (f t a)) (l : List α) (h : Eased s t) :
    Eased s (l.foldl f t) := by
  induction l generalizing t with
  | nil => exact h
  | cons a l ih => exact ih (h.trans (hf t a))

/-- What touches neither the groups nor what `Eased` holds fixed. -/
theorem Eased.step {u : State} (h : Eased s t) (ht : u.tables = t.tables) (ho : u.port.configOpen = t.port.configOpen)
    (hj : u.jm = t.jm) (hg : u.groups = t.groups) : Eased s u :=
  h.trans ⟨ht, ho, hj, fun g => by rw [hg]; exact id, fun g _ => by rw [hg]⟩

@[simp] theorem eased_setEng (h : Eased s t) (f : Engine → Engine) : Eased s (setEng t f) := h.step rfl rfl rfl rfl

@[simp] theorem eased_setColl (h : Eased s t) (f : Collector → Collector) : Eased s (setColl t f) := h.step rfl rfl rfl rfl

@[simp] theorem eased_takeRaise (h : Eased s t) (k : Kind) (n : Nat) (d : Detail) : Eased s (takeRaise t k n d) := by
  rw [takeRaise_frame]; exact h.step rfl rfl rfl rfl

@[simp] theorem eased_takeClear (h : Eased s t) (k : Kind) (n : Nat) : Eased s (takeClear t k n) := by
  rw [takeClear_frame]; exact h.step rfl rfl rfl rfl

/-- A target handed makes no group go: it leads to RED, FLASH_AMBER or DARK where it leads to another aspect (R24 to R26). -/
theorem going_handedAspect (s : State) (g : Fin 32) (x : Target) (r : GroupRec) (hr : r.aspect = handedAspect s g x)
    (h : going r = true) : going s.groups[g] = true := by
  simp only [going, hr, handedAspect, flashAspect] at h ⊢
  cases x <;> cases ha : s.groups[g].aspect <;> simp_all <;> split at h <;> simp_all

@[simp] theorem eased_handTarget (h : Eased s t) (g : Fin 32) (x : Target) : Eased s (handTarget t g x) := by
  have frame := handTarget_frame t g x
  refine h.trans ⟨by rw [frame], by rw [frame], by rw [frame], fun j hj => ?_, fun j hl => ?_⟩
  · by_cases e : g = j
    · subst e
      by_cases hl : live t g = true
      · exact going_handedAspect t g x _ (handTarget_self t g x hl).2.1 hj
      · rwa [handTarget_unused t g x (by simpa using hl)] at hj
    · rwa [(handTarget_of_ne t g j x e).1] at hj
  · by_cases e : g = j
    · subst e; rw [handTarget_unused t g x hl]
    · rw [(handTarget_of_ne t g j x e).1]

@[simp] theorem eased_handTargets (h : Eased s t) (gs : List (Fin 32)) (x : Target) : Eased s (handTargets t gs x) :=
  eased_foldl _ (fun t g => eased_handTarget (.refl t) g x) gs h

@[simp] theorem eased_handAll (h : Eased s t) (x : Target) : Eased s (handAll t x) := eased_handTargets h _ x

@[simp] theorem eased_refreshInhibit (h : Eased s t) : Eased s (refreshInhibit t) := by
  refine h.trans ⟨rfl, rfl, rfl, fun g hg => ?_, fun g _ => ?_⟩
  · simpa only [refreshInhibit, getElem_tab, going] using hg
  · simp only [refreshInhibit, getElem_tab]

/-! ## The engine's work (R53 to R73) -/

@[simp] theorem eased_raiseInvalid (h : Eased s t) (p : Fin 8) : Eased s (raiseInvalid t p) := by simp [raiseInvalid, h]

@[simp] theorem eased_refreshInvalid (h : Eased s t) : Eased s (refreshInvalid t) := by
  rw [refreshInvalid_frame]; exact h.step rfl rfl rfl rfl

theorem eased_changeGroup (t : State) (was : GroupSet) (now : List (Fin 32)) (g : Fin 32) :
    Eased t (changeGroup was now t g) := by
  rcases changeGroup_cases t was now g with ⟨_, _, e⟩ | ⟨_, _, _, e⟩ | ⟨_, _, e⟩ <;> rw [e] <;> simp [Eased.refl]

@[simp] theorem eased_beginInterstage (h : Eased s t) (p : Fin 8) (b : Fin 16) : Eased s (beginInterstage t p b) := by
  unfold beginInterstage
  exact eased_foldl _ (fun t g => eased_changeGroup t _ _ g) _ (eased_setEng h _)

@[simp] theorem eased_stopServed (h : Eased s t) : Eased s (stopServed t) := by simp [stopServed, h]

@[simp] theorem eased_takeover (h : Eased s t) (q : Fin 8) (req : Option StepReq) : Eased s (takeover t q req) := by
  unfold takeover
  dsimp only
  split
  · exact eased_beginInterstage (eased_setEng h _) _ _
  · exact eased_setEng (eased_stopServed (eased_setEng h _)) _

@[simp] theorem eased_leaveStep (h : Eased s t) (p : Fin 8) : Eased s (leaveStep t p) := by
  unfold leaveStep; split <;> simp [h]

@[simp] theorem eased_goOn (h : Eased s t) (p : Fin 8) (found : Option (Fin 16) × Bool) (req : Option StepReq) :
    Eased s (goOn t p found req) := by
  unfold goOn
  dsimp only
  repeat' split
  all_goals simp [h]

@[simp] theorem eased_endStep (h : Eased s t) (p : Fin 8) : Eased s (endStep t p) := by simp [endStep, h]

@[simp] theorem eased_endForStep (h : Eased s t) (p : Fin 8) (req : StepReq) : Eased s (endForStep t p req) := by
  unfold endForStep
  dsimp only
  split <;> simp [h]

@[simp] theorem eased_stageStart (h : Eased s t) (p : Fin 8) : Eased s (stageStart t p) := by
  unfold stageStart
  dsimp only
  split <;> exact h.step rfl rfl rfl rfl

@[simp] theorem eased_abandonStep (h : Eased s t) (p : Fin 8) : Eased s (abandonStep t p) := by
  unfold abandonStep
  dsimp only
  generalize hr : setEng t _ = r
  have rests : Eased s r := hr ▸ eased_setEng h _
  repeat' split
  all_goals simp [rests]

theorem eased_gainGroup (t : State) (g : Fin 32) : Eased t (gainGroup t g) := by
  unfold gainGroup
  repeat' split
  all_goals simp [Eased.refl]

@[simp] theorem eased_interstageProgress (h : Eased s t) : Eased s (interstageProgress t) := by
  have gained := eased_foldl gainGroup eased_gainGroup (idx 32) h
  unfold interstageProgress
  dsimp only
  repeat' split
  all_goals simp [h, gained]

@[simp] theorem eased_refreshSub (h : Eased s t) : Eased s (refreshSub t) := by
  unfold refreshSub
  repeat' split
  all_goals simp [h]

@[simp] theorem eased_judgeStepEnd (h : Eased s t) (p : Fin 8) : Eased s (judgeStepEnd t p) := by
  unfold judgeStepEnd
  repeat' split
  all_goals simp [h]

@[simp] theorem eased_readCounter (h : Eased s t) : Eased s (readCounter t) := by
  unfold readCounter
  dsimp only
  repeat' split
  all_goals simp [h]

@[simp] theorem eased_restPulse (h : Eased s t) (p : Fin 8) : Eased s (restPulse t p) := by
  unfold restPulse
  dsimp only
  repeat' split
  all_goals simp [h]

@[simp] theorem eased_enginePulse (h : Eased s t) (ran : Bool) : Eased s (enginePulse t ran) := by
  have read := eased_readCounter h
  unfold enginePulse
  dsimp only
  generalize readCounter t = r at read ⊢
  repeat' split
  all_goals simp [h, read]

@[simp] theorem eased_engineStart (h : Eased s t) (p : Fin 8) : Eased s (engineStart t p) := by
  unfold engineStart
  dsimp only
  split <;> simp [h]

@[simp] theorem eased_orderlyStop (h : Eased s t) : Eased s (orderlyStop t) := by
  unfold orderlyStop
  dsimp only
  split
  · exact eased_foldl _ (fun t g => by split <;> simp [Eased.refl]) _ (eased_setEng h _)
  · simp [h]

@[simp] theorem eased_dealGoverning (h : Eased s t) (p : Fin 8) : Eased s (dealGoverning t p) := by
  unfold dealGoverning
  dsimp only
  repeat' split
  all_goals simp [h]

end Sys2Proof.Machine

namespace Sys2Proof.Machine

open Sys2Proof

variable {s t : State}

/-! ## The mode machine with configuration closed (R75 to R90) -/

@[simp] theorem eased_nameGoverning (h : Eased s t) (p : Fin 8) : Eased s (nameGoverning t p) := by
  have named : Eased s (refreshInvalid (setEng t fun e => { e with governing := p })) := by simp [h]
  unfold nameGoverning
  dsimp only
  split <;> simp [named]

/-- What the mode machine works on: a lawful state with configuration closed. -/
structure Closed (s : State) : Prop where
  lawful : Lawful s
  closed : s.port.configOpen = false

/-- Work that makes no group go, changes no group of type UNUSED and meets the law of DARK keeps a closed state lawful. -/
theorem Closed.of_going (h : Closed s) (hh : held t = held s) (went : ∀ g : Fin 32, going t.groups[g] = true → going s.groups[g] = true)
    (unused : ∀ g : Fin 32, live s g = false → t.groups[g].aspect = s.groups[g].aspect)
    (dark : t.jm.mode = .dark → (∀ g : Fin 32, t.groups[g].aspect = .dark) ∧ t.eng.running = none ∧ t.jm.departure = none) : Closed t where
  lawful := by
    have tables := tables_of_kept (kept_of_held hh)
    exact h.lawful.of_going (congrArg Tables.group tables) (congrArg Tables.matrix tables) (configOpen_of_kept (kept_of_held hh)) went unused dark
      fun ho => by rw [h.closed] at ho; cases ho
  closed := (configOpen_of_kept (kept_of_held hh)).trans h.closed

theorem Closed.of_footing (h : Closed s) (e : footing t = footing s) : Closed t :=
  ⟨h.lawful.of_footing e, (congrArg Footing.configOpen e).trans h.closed⟩

/-- Outside DARK, work that makes no group go keeps a closed state lawful. -/
theorem Closed.of_eased (h : Closed s) (e : Eased s t) (hm : s.jm.mode ≠ .dark) : Closed t :=
  ⟨h.lawful.of_eased e hm, e.configOpen.trans h.closed⟩

/-- A lawful state outside DARK is closed. -/
theorem Lawful.toClosed (h : Lawful s) (hm : s.jm.mode ≠ .dark) : Closed s := ⟨h, h.closed_of_mode hm⟩

theorem footing_takeRaise (s : State) (k : Kind) (n : Nat) (d : Detail) : footing (takeRaise s k n d) = footing s := by
  rw [takeRaise_frame]; rfl

theorem footing_takeClear (s : State) (k : Kind) (n : Nat) : footing (takeClear s k n) = footing s := by
  rw [takeClear_frame]; rfl

theorem footing_setColl (s : State) (f : Collector → Collector) : footing (setColl s f) = footing s := rfl

theorem footing_raiseInvalid (s : State) (p : Fin 8) : footing (raiseInvalid s p) = footing s := by
  rw [raiseInvalid, ← footing_takeRaise s .planInvalid (num p) (.errIndex (invalidDetail s p))]; rfl

@[simp] theorem closed_takeRaise (h : Closed s) (k : Kind) (n : Nat) (d : Detail) : Closed (takeRaise s k n d) :=
  h.of_footing (footing_takeRaise s k n d)

@[simp] theorem closed_takeClear (h : Closed s) (k : Kind) (n : Nat) : Closed (takeClear s k n) := h.of_footing (footing_takeClear s k n)

@[simp] theorem closed_raiseInvalid (h : Closed s) (p : Fin 8) : Closed (raiseInvalid s p) := h.of_footing (footing_raiseInvalid s p)

@[simp] theorem closed_raiseBothInvalid (h : Closed s) (p f : Fin 8) : Closed (raiseBothInvalid s p f) := by
  unfold raiseBothInvalid; split <;> simp [h]

@[simp] theorem refreshInvalid_running : (refreshInvalid s).eng.running = s.eng.running := by
  rw [refreshInvalid_frame]

theorem footing_refreshInvalid (s : State) : footing (refreshInvalid s) = footing s := by
  rw [refreshInvalid_frame]; rfl

/-- A change of the mode record that keeps the mode, and in DARK leaves no departure, keeps a closed state lawful. -/
theorem Closed.setMode (h : Closed s) (f : ModeRec → ModeRec) (hm : (f s.jm).mode = s.jm.mode)
    (hd : (f s.jm).departure = s.jm.departure ∨ s.jm.mode ≠ .dark) : Closed (setMode s f) where
  lawful := by
    refine h.lawful.of_going rfl rfl rfl (fun _ => id) (fun _ _ => rfl) (fun dark => ?_) fun ho => by rw [h.closed] at ho; cases ho
    have dark : s.jm.mode = .dark := hm.symm.trans dark
    obtain ⟨ha, hr, hn⟩ := h.lawful.darkness dark
    exact ⟨ha, hr, (hd.resolve_right (fun hne => hne dark)).trans hn⟩
  closed := h.closed

@[simp] theorem closed_setReason (h : Closed s) (r : Reason) : Closed (setReason s r) := h.setMode _ rfl (.inl rfl)

/-- An entry makes no group go, and one to DARK leads every group to DARK, the engine to IDLE and no departure to wait (R75). -/
@[simp] theorem closed_takeMode (h : Closed s) (m : Mode) (r : Reason) : Closed (takeMode s m r) := by
  obtain ⟨jmMode, -, jmDeparture, -⟩ := takeMode_jm s m r
  have groups (g : Fin 32) : (takeMode s m r).groups[g] = s.groups[g] ∨
      (live s g = true ∧ (takeMode s m r).groups[g].aspect = handedAspect s g (modeTarget m)) := by
    by_cases hm : m = .plan ∨ m = .directDrive
    · exact .inl (by rw [(takeMode_groups_kept s m r hm).1])
    · obtain ⟨used, unused⟩ := takeMode_groups s m r (fun e => hm (.inl e)) (fun e => hm (.inr e)) g
      by_cases hl : live s g = true
      · exact .inr ⟨hl, (used hl).2.1⟩
      · exact .inl (unused (by simpa using hl))
  refine h.of_going (held_takeMode s m r) (fun g hg => ?_) (fun g hl => ?_) (fun hd => ⟨fun g => ?_, ?_, jmDeparture⟩)
  · rcases groups g with e | ⟨_, e⟩
    · rwa [e] at hg
    · exact going_handedAspect s g _ _ e hg
  · rcases groups g with e | ⟨hl', _⟩
    · rw [e]
    · rw [hl] at hl'; cases hl'
  · have hm : m = .dark := jmMode.symm.trans hd
    subst hm
    obtain ⟨used, unused⟩ := takeMode_groups s .dark r (by decide) (by decide) g
    by_cases hl : live s g = true
    · exact (used hl).2.1
    · rw [unused (by simpa using hl), h.lawful.unusedDark g (by simpa using hl)]
  · rw [takeMode_eng]; rfl

@[simp] theorem closed_enterDemanded (h : Closed s) : Closed (enterDemanded s) := by
  unfold enterDemanded
  split
  · split <;> simp [h]
  · exact h

@[simp] theorem closed_enterMode (h : Closed s) (m : Mode) (r : Reason) : Closed (enterMode s m r) := by
  unfold enterMode
  split
  · simp [h]
  · split <;> simp [h]

@[simp] theorem closed_enterOrKeep (h : Closed s) (m : Mode) (r : Reason) : Closed (enterOrKeep s m r) := by
  unfold enterOrKeep; split <;> simp [h]

/-- Writing a mode other than DARK makes no group go. -/
theorem closed_writeMode (h : Closed s) (m : Mode) (r : Reason) (hm : m ≠ .dark) : Closed (writeMode s m r) := by
  refine h.of_going (held_writeMode s m r) (fun g => ?_) (fun g _ => ?_) (fun hd => absurd ?_ hm)
  · rw [writeMode_frame]; exact id
  · rw [writeMode_frame]
  · rw [writeMode_jm] at hd; exact hd

@[simp] theorem closed_enterPlan (h : Closed s) (p : Fin 8) (r : Reason) : Closed (enterPlan s p r) := by
  unfold enterPlan
  split
  · simp [h]
  · refine (closed_writeMode h .plan r (by decide)).of_eased (by simp [Eased.refl]) ?_
    rw [writeMode_jm]; simp

@[simp] theorem closed_planEntry (h : Closed s) (r : Reason) : Closed (planEntry s r) := by
  unfold planEntry
  dsimp only
  repeat' split
  all_goals simp [h]

@[simp] theorem closed_takeExit (h : Closed s) (r : Reason) : Closed (takeExit s r) := by
  unfold takeExit
  repeat' split
  all_goals simp [h]

@[simp] theorem closed_setDeparture (h : Closed s) (d : Dest) (r : Reason) (hm : s.jm.mode ≠ .dark) : Closed (setDeparture s d r) := by
  have set : Closed (Machine.setMode s fun j => { j with departure := some ⟨d, r⟩ }) := h.setMode _ rfl (.inr hm)
  unfold setDeparture
  dsimp only
  split
  · exact set.of_eased (by simp [Eased.refl]) hm
  · exact set.of_eased (by simp [Eased.refl]) hm
  all_goals exact set

@[simp] theorem closed_completeDeparture (h : Closed s) (d : Departure) : Closed (completeDeparture s d) := by
  unfold completeDeparture; dsimp only; split <;> simp [h]

/-- The monitor's reason NO_PLAN is one that nothing but PLAN entry gives, so configuration is closed (R79). -/
theorem Lawful.closed_of_stoppedFor (h : Lawful s) {r : Reason} (hr : stoppedFor s r = true) (h1 : r ≠ .reset) (h2 : r ≠ .restart)
    (h3 : r ≠ .config) : Closed s := by
  simp only [stoppedFor, Bool.and_eq_true, decide_eq_true_eq] at hr
  exact ⟨h, h.closed_of_reason hr.2 h1 h2 h3⟩

@[simp] theorem lawful_noPlanExit (h : Lawful s) : Lawful (noPlanExit s) := by
  unfold noPlanExit
  split
  case isTrue hs => exact (closed_takeExit (h.closed_of_stoppedFor hs (by decide) (by decide) (by decide)) _).lawful
  case isFalse => exact h

@[simp] theorem lawful_judgeDeparture (h : Lawful s) : Lawful (judgeDeparture s) := by
  unfold judgeDeparture
  split
  case h_1 d hd =>
    split
    · exact (closed_completeDeparture (h.toClosed (h.mode_of_departure (by simp [hd]))) d).lawful
    · exact h
  case h_2 => exact h

@[simp] theorem lawful_takeStartFlashEnd (h : Lawful s) : Lawful (takeStartFlashEnd s) := by
  unfold takeStartFlashEnd
  split
  case isTrue hd =>
    simp only [startFlashDue, Bool.and_eq_true, decide_eq_true_eq] at hd
    exact (closed_enterMode (h.toClosed (by simp [hd.1])) _ _).lawful
  case isFalse => exact h

@[simp] theorem lawful_takeStartRedEnd (h : Lawful s) : Lawful (takeStartRedEnd s) := by
  unfold takeStartRedEnd
  split
  case isTrue hd =>
    simp only [startRedDue, Bool.and_eq_true, decide_eq_true_eq] at hd
    exact (closed_planEntry (h.toClosed (by simp [hd.1.1])) _).lawful
  case isFalse => exact h

/-- A change of the mode record that leaves what the laws are read from. -/
theorem Lawful.setMode (h : Lawful s) (f : ModeRec → ModeRec) (hm : (f s.jm).mode = s.jm.mode) (hd : (f s.jm).departure = s.jm.departure)
    (hs : (f s.jm).started = s.jm.started) (hr : (f s.jm).reason = s.jm.reason) : Lawful (setMode s f) := by
  refine h.of_going rfl rfl rfl (fun _ => id) (fun _ _ => rfl) (fun dark => ?_) fun ho => ?_
  · obtain ⟨ha, hn, hw⟩ := h.darkness (hm.symm.trans dark)
    exact ⟨ha, hn, hd.trans hw⟩
  · simpa only [Machine.setMode, hm, hs, hr] using h.configuring ho

@[simp] theorem lawful_takeProvingTimeout (h : Lawful s) : Lawful (takeProvingTimeout s) := by
  unfold takeProvingTimeout
  split
  · exact (h.of_footing (footing_takeRaise ..)).setMode _ rfl rfl rfl rfl
  · exact h

@[simp] theorem lawful_takeSilent (h : Lawful s) : Lawful (takeSilent s) := by
  unfold takeSilent
  split
  case isTrue hd =>
    have raised : Lawful (Machine.setMode (takeRaise s .controllerSilent 0 .absent) fun j => { j with silent := true }) :=
      (h.of_footing (footing_takeRaise ..)).setMode _ rfl rfl rfl rfl
    dsimp only
    split
    · have mode : (takeRaise s .controllerSilent 0 .absent).jm.mode ≠ .dark := by
        simp only [silentDue, Bool.and_eq_true, decide_eq_true_eq] at hd
        rw [takeRaise_frame]; simp [hd.1.1]
      exact (closed_setDeparture (raised.toClosed mode) _ _ mode).lawful
    · exact raised
  case isFalse => exact h

@[simp] theorem lawful_heardRequest (h : Lawful s) : Lawful (heardRequest s) := by
  have heard : Lawful (Machine.setMode s fun j => { j with silence := 0, silenceFresh := !s.inPulse, silent := false }) :=
    h.setMode _ rfl rfl rfl rfl
  unfold heardRequest
  dsimp only
  split
  · exact heard.of_footing (footing_takeClear ..)
  · exact heard

@[simp] theorem lawful_advanceMode (h : Lawful s) : Lawful (advanceMode s) := h.setMode _ rfl rfl rfl rfl

/-- A demand is obeyed only where configuration is closed: nothing is more severe than DARK, and the reason FAULT is given with configuration
closed (R88). -/
@[simp] theorem lawful_obeyDemand (h : Lawful s) (old : Demanded) : Lawful (obeyDemand s old) := by
  unfold obeyDemand
  dsimp only
  split
  case isTrue hd =>
    have mode : s.jm.mode ≠ .dark := by
      intro e; rw [e] at hd; revert hd; cases demandedNow s <;> decide
    exact (closed_enterDemanded (h.toClosed mode)).lawful
  case isFalse =>
    split
    case isTrue hr =>
      have closed : Closed s := ⟨h, h.closed_of_reason hr.2 (by decide) (by decide) (by decide)⟩
      split
      · exact (closed_enterMode closed _ _).lawful
      · exact (closed_takeExit closed _).lawful
      · exact (closed_takeExit closed _).lawful
      · exact h
    case isFalse => exact h

@[simp] theorem lawful_mainsRestart (h : Lawful s) : Lawful (mainsRestart s) := by
  unfold mainsRestart
  cases hm : s.jm.mode <;> dsimp only
  case flash | dark => exact h
  all_goals
    have closed : Closed s := h.toClosed (by simp [hm])
    refine Closed.lawful ?_
    repeat' split
    all_goals simp [closed]

@[simp] theorem lawful_nameSchedule (h : Lawful s) (m : SchedMode) : Lawful (nameSchedule s m) := by
  have named : Lawful (Machine.setMode s fun j => { j with schedMode := m }) := h.setMode _ rfl rfl rfl rfl
  unfold nameSchedule
  dsimp only
  cases hm : s.jm.mode <;> dsimp only
  case plan =>
    have closed : Closed (Machine.setMode s fun j => { j with schedMode := m }) := named.toClosed (by simp [Machine.setMode, hm])
    refine Closed.lawful ?_
    repeat' split
    all_goals simp [closed, hm]
  case flash | dark =>
    split
    · exact named
    case isFalse hst =>
      have closed : Closed (Machine.setMode s fun j => { j with schedMode := m }) :=
        ⟨named, h.closed_of_started (by simpa using hst)⟩
      refine Closed.lawful ?_
      repeat' split
      all_goals simp [closed]
  all_goals exact named

/-! ## The hand-overs (R31, R167) -/

/-- Work of the engine that does nothing in IDLE and makes no group go. -/
theorem Lawful.of_engine (h : Lawful s) (idle : s.eng.running = none → t = s) (e : Eased s t) : Lawful t := by
  by_cases hr : s.eng.running = none
  · rw [idle hr]; exact h
  · exact h.of_eased e (h.mode_of_running hr)

@[simp] theorem lawful_interstageProgress (h : Lawful s) : Lawful (interstageProgress s) :=
  h.of_engine (fun hr => by unfold interstageProgress; rw [hr]) (by simp [Eased.refl])

@[simp] theorem lawful_refreshSub (h : Lawful s) : Lawful (refreshSub s) :=
  h.of_engine (fun hr => by unfold refreshSub; rw [hr]) (by simp [Eased.refl])

@[simp] theorem lawful_enginePulse (h : Lawful s) (ran : Bool) : Lawful (enginePulse s ran) :=
  h.of_engine (fun hr => by unfold enginePulse; rw [hr]) (by simp [Eased.refl])

theorem footing_refreshInhibit (s : State) : footing (refreshInhibit s) = footing s := by
  simp only [footing, refreshInhibit, Footing.mk.injEq, true_and, and_true]
  constructor <;> · ext g hg; simp [tab, marksOf]

@[simp] theorem lawful_refreshInhibit (h : Lawful s) : Lawful (refreshInhibit s) := h.of_footing (footing_refreshInhibit s)

@[simp] theorem lawful_handDemand (h : Lawful s) : Lawful (handDemand s) := by
  unfold handDemand
  dsimp only
  split
  · exact h
  · exact lawful_obeyDemand (h.of_footing (footing_setColl ..)) _

@[simp] theorem lawful_handInhibit (h : Lawful s) : Lawful (handInhibit s) :=
  lawful_refreshInhibit (h.of_footing (footing_setColl ..))

@[simp] theorem lawful_settleOnce (h : Lawful s) : Lawful (settleOnce s) := by
  have begun : Lawful (interstageProgress (refreshInhibit (handDemand (handInhibit s)))) :=
    lawful_interstageProgress (lawful_refreshInhibit (lawful_handDemand (lawful_handInhibit h)))
  exact lawful_refreshSub (lawful_takeStartRedEnd (lawful_judgeDeparture begun))

theorem lawful_settleN (n : Nat) (h : Lawful s) : Lawful (settleN n s) := by
  induction n generalizing s with
  | zero => exact h
  | succ n ih => exact ih (lawful_settleOnce h)

theorem footing_outputs (s : State) : footing (refreshSummary (handAlarm s)) = footing s := rfl

/-- The hand-overs keep the laws. -/
@[simp] theorem lawful_settle (h : Lawful s) : Lawful (settle s) := (lawful_settleN 4 h).of_footing (footing_outputs _)

end Sys2Proof.Machine

namespace Sys2Proof.Machine

open Sys2Proof

variable {s t : State}

/-! ## Work aside from the groups and the mode machine (R109 to R157) -/

/-- What work aside from the groups and the mode machine makes of a state: it leaves the footing, and hands its changes on from time to time. -/
inductive Aside (s : State) : State → Prop where
  | refl : Aside s s
  | quiet {t u : State} : Aside s t → footing u = footing t → Aside s u
  | handed {t : State} : Aside s t → Aside s (settle t)

theorem Aside.trans {u : State} (h : Aside s t) (h' : Aside t u) : Aside s u := by
  induction h' with
  | refl => exact h
  | quiet _ e ih => exact ih.quiet e
  | handed _ ih => exact ih.handed

/-- Such work keeps the laws. -/
theorem Aside.lawful (h : Aside s t) (hs : Lawful s) : Lawful t := by
  induction h with
  | refl => exact hs
  | quiet _ e ih => exact ih.of_footing e
  | handed _ ih => exact lawful_settle ih

/-- What the observed-green rules are read from (R36 to R38): the marks, the groups whose types act, the configuration and the tables of the groups
and of the cable parameters. -/
def greenView (s : State) : Vector Marks 32 × GroupSet × Bool × Vector GroupEntry 32 × CableParams :=
  (tab fun g => marksOf s.groups[g], s.acting, s.port.configOpen, s.tables.group, s.tables.cable)

theorem greenView_of_footing (h : footing t = footing s) : greenView t = greenView s :=
  congrArg (fun f : Footing => (f.marks, f.acting, f.configOpen, f.group, f.cable)) h

theorem greenView_of_kept (h : kept t = kept s) : greenView t = greenView s := by
  have acting : t.acting = s.acting := congrArg Kept.acting h
  simp only [greenView, acting, configOpen_of_kept h, tables_of_kept h, marks_of_kept h]

/-- Such work leaves what the observed-green rules are read from. -/
theorem Aside.greenView (h : Aside s t) : greenView t = greenView s := by
  induction h with
  | refl => rfl
  | quiet _ e ih => exact (greenView_of_footing e).trans ih
  | handed _ ih => exact (greenView_of_kept (kept_settle _)).trans ih

theorem aside_foldl {α : Type} (f : State → α → State) (hf : ∀ t a, Aside t (f t a)) (l : List α) (h : Aside s t) :
    Aside s (l.foldl f t) := by
  induction l generalizing t with
  | nil => exact h
  | cons a l ih => exact ih (h.trans (hf t a))

theorem aside_times (n : Nat) (f : State → State) (hf : ∀ t, Aside t (f t)) (h : Aside s t) : Aside s (times n f t) := by
  induction n generalizing t with
  | zero => exact h
  | succ n ih => exact ih (h.trans (hf t))

/-! ### Writes of one record -/

@[simp] theorem aside_settle (h : Aside s t) : Aside s (settle t) := h.handed
@[simp] theorem aside_setColl (h : Aside s t) (f : Collector → Collector) : Aside s (setColl t f) := h.quiet rfl
@[simp] theorem aside_setUnit (h : Aside s t) (u : Fin 12) (f : UnitRec → UnitRec) : Aside s (setUnit t u f) := h.quiet rfl
@[simp] theorem aside_setProv (h : Aside s t) (c : Fin 96) (f : ProvRec → ProvRec) : Aside s (setProv t c f) := h.quiet rfl
@[simp] theorem aside_setLearn (h : Aside s t) (c : Fin 96) (f : LearnRec → LearnRec) : Aside s (setLearn t c f) := h.quiet rfl
@[simp] theorem aside_setCable (h : Aside s t) (c : Fin 96) (f : CableRec → CableRec) : Aside s (setCable t c f) := h.quiet rfl
@[simp] theorem aside_setLeak (h : Aside s t) (u : Fin 12) (f : LeakRec → LeakRec) : Aside s (setLeak t u f) := h.quiet rfl
@[simp] theorem aside_setInput (h : Aside s t) (e : Fin 64) (f : InputRec → InputRec) : Aside s (setInput t e f) := h.quiet rfl
@[simp] theorem aside_setBus (h : Aside s t) (f : Bus → Bus) : Aside s (setBus t f) := h.quiet rfl
@[simp] theorem aside_setRound (h : Aside s t) (f : Round → Round) : Aside s (setRound t f) := h.quiet rfl
@[simp] theorem aside_sendBus (h : Aside s t) (f : BusFrame) : Aside s (sendBus t f) := h.quiet rfl
@[simp] theorem aside_setMains (h : Aside s t) (f : Mains → Mains) : Aside s (setMains t f) := h.quiet rfl
@[simp] theorem aside_setClock (h : Aside s t) (f : Clock → Clock) : Aside s (setClock t f) := h.quiet rfl
@[simp] theorem aside_between (h : Aside s t) : Aside s (between t) := h.quiet rfl
@[simp] theorem aside_prov (h : Aside s t) (p : Proving) : Aside s { t with prov := p } := h.quiet rfl
@[simp] theorem aside_cable (h : Aside s t) (c : Cable) : Aside s { t with cable := c } := h.quiet rfl
@[simp] theorem aside_latched (h : Aside s t) (x : StageSet) : Aside s { t with latched := x } := h.quiet rfl
@[simp] theorem aside_sched (h : Aside s t) (x : SchedRec) : Aside s { t with sched := x } := h.quiet rfl

/-- A write of the engine's record that keeps the plan it runs. -/
theorem Aside.setEng (h : Aside s t) (f : Engine → Engine) (hf : (f t.eng).running = t.eng.running) : Aside s (setEng t f) :=
  h.quiet (by simp [footing, hf])

/-- A write of the port that keeps the configuration. -/
theorem Aside.setPort (h : Aside s t) (f : Port → Port) (hf : (f t.port).configOpen = t.port.configOpen) : Aside s (setPort t f) :=
  h.quiet (by simp [footing, hf])

@[simp] theorem aside_takeRaise (h : Aside s t) (k : Kind) (n : Nat) (d : Detail) : Aside s (takeRaise t k n d) :=
  h.quiet (footing_takeRaise ..)

@[simp] theorem aside_takeClear (h : Aside s t) (k : Kind) (n : Nat) : Aside s (takeClear t k n) := h.quiet (footing_takeClear ..)

@[simp] theorem aside_raise (h : Aside s t) (k : Kind) (n : Nat) (d : Detail) : Aside s (raise t k n d) := by simp [raise, h]

@[simp] theorem aside_clear (h : Aside s t) (k : Kind) (n : Nat) : Aside s (clear t k n) := by simp [clear, h]

@[simp] theorem aside_ackSlot (h : Aside s t) (i : Fin 64) : Aside s (ackSlot t i) := h.quiet (by rw [ackSlot_frame]; rfl)

/-! ### Lamp proving (R128 to R143) -/

@[simp] theorem aside_changeLampFault (h : Aside s t) (c : Fin 96) (f : Option LampFault) (d : Detail) :
    Aside s (changeLampFault t c f d) := by
  have cleared : Aside s (match t.prov.circuits[c].fault with
      | some k => clear (setProv t c fun r => { r with fault := f }) (LampFault.kind k) (num c)
      | none => setProv t c fun r => { r with fault := f }) := by split <;> simp [h]
  unfold changeLampFault
  dsimp only
  split
  · exact h
  · cases f
    · exact cleared
    · exact aside_raise cleared _ _ _

@[simp] theorem aside_changeVerdict (h : Aside s t) (c : Fin 96) (v : Verdict) : Aside s (changeVerdict t c v) := by
  simp [changeVerdict, h]

@[simp] theorem aside_takeConfirm (h : Aside s t) (c : Fin 96) : Aside s (takeConfirm t c) := by
  unfold takeConfirm; split <;> simp [h]

theorem aside_handRed (before : Vector RedStatus 32) (t : State) (g : Fin 32) : Aside t (handRed before t g) := by
  unfold handRed
  dsimp only
  repeat' split
  all_goals simp [Aside.refl]

@[simp] theorem aside_recomputeRed (h : Aside s t) : Aside s (recomputeRed t) :=
  (aside_foldl _ (aside_handRed _) _ (aside_prov h _)).handed

@[simp] theorem aside_releaseVerdict (h : Aside s t) (c : Fin 96) : Aside s (releaseVerdict t c) := by simp [releaseVerdict, h]

@[simp] theorem aside_gapProving (h : Aside s t) : Aside s (gapProving t) := h.quiet rfl

@[simp] theorem aside_unitLeavesProving (h : Aside s t) (u : Fin 12) : Aside s (unitLeavesProving t u) :=
  aside_recomputeRed (aside_foldl _ (fun t tc => by split <;> simp [Aside.refl]) _ (aside_prov h _))

@[simp] theorem aside_learnDone (h : Aside s t) (c : Fin 96) : Aside s (learnDone t c) := h.quiet rfl

@[simp] theorem aside_takeConverge (h : Aside s t) (c : Fin 96) : Aside s (takeConverge t c) := by
  unfold takeConverge
  dsimp only
  repeat' split
  all_goals simp [h]

@[simp] theorem aside_takeUnstable (h : Aside s t) (c : Fin 96) : Aside s (takeUnstable t c) := by
  unfold takeUnstable; dsimp only; split <;> simp [h]

@[simp] theorem aside_learnWindow (h : Aside s t) (c : Fin 96) (tap : Tap) (isum vsup : Nat) :
    Aside s (learnWindow t c tap isum vsup) := by
  unfold learnWindow
  dsimp only
  split
  · exact aside_takeUnstable (aside_takeConverge (aside_setLearn h _ _) c) c
  · exact h

@[simp] theorem aside_judgeEligible (h : Aside s t) (f : SenseFrame) (c : Fin 96) (x : Sample) : Aside s (judgeEligible t f c x) := by
  have measured := aside_setProv h c
  unfold judgeEligible
  dsimp only
  refine aside_learnWindow ?_ c f.tap x.isum f.vsup
  split <;> simp [measured]

theorem aside_proveCircuit (u : Fin 12) (f : SenseFrame) (xs : Vector Sample 8) (cont : Bool) (t : State) (tc : Fin 8 × Fin 96) :
    Aside t (proveCircuit u f xs cont t tc) := by
  unfold proveCircuit; dsimp only; split <;> simp [Aside.refl]

@[simp] theorem aside_proveFrame (h : Aside s t) (u : Fin 12) (f : SenseFrame) (xs : Vector Sample 8) : Aside s (proveFrame t u f xs) :=
  aside_recomputeRed (aside_prov (aside_foldl _ (aside_proveCircuit u f xs _) _ h) _)

/-! ### Cable supervision (R148 to R156) -/

@[simp] theorem aside_clearOpen (h : Aside s t) (c : Fin 96) : Aside s (clearOpen t c) := by unfold clearOpen; split <;> simp [h]
@[simp] theorem aside_clearShort (h : Aside s t) (c : Fin 96) : Aside s (clearShort t c) := by unfold clearShort; split <;> simp [h]

@[simp] theorem aside_raiseOpen (h : Aside s t) (c : Fin 96) (k : TestClass) : Aside s (raiseOpen t c k) := by
  unfold raiseOpen; split <;> simp [h]

@[simp] theorem aside_raiseShort (h : Aside s t) (c : Fin 96) (k : TestClass) : Aside s (raiseShort t c k) := by
  unfold raiseShort; split <;> simp [h]

@[simp] theorem aside_takeCableFault (h : Aside s t) (c : Fin 96) : Aside s (takeCableFault t c) := by
  unfold takeCableFault; split <;> simp [h]

@[simp] theorem aside_takeTestResult (h : Aside s t) (c : Fin 96) (residual : Nat) : Aside s (takeTestResult t c residual) := by
  have recorded := aside_setCable h c
  unfold takeTestResult
  dsimp only
  split
  · exact aside_clearShort (aside_clearOpen (aside_setCable (recorded _) c _) c) c
  · simp [recorded]
  · simp [recorded]

theorem aside_resolveTest (v : Nat) (xs : Option (Vector Sample 8)) (t : State) (tc : Fin 8 × Fin 96) :
    Aside t (resolveTest v xs t tc) := by
  unfold resolveTest
  dsimp only
  repeat' split
  all_goals simp [Aside.refl]

@[simp] theorem aside_resolveTests (h : Aside s t) (u : Fin 12) (v : Nat) (xs : Option (Vector Sample 8)) :
    Aside s (resolveTests t u v xs) := aside_foldl _ (aside_resolveTest v xs) _ h

@[simp] theorem aside_abandonTests (h : Aside s t) (u : Fin 12) : Aside s (abandonTests t u) :=
  aside_foldl _ (fun t tc => by simp [Aside.refl]) _ h

@[simp] theorem aside_takeOvc (h : Aside s t) (c : Fin 96) : Aside s (takeOvc t c) := by
  have counted := aside_setCable h c
  unfold takeOvc
  dsimp only
  repeat' split
  · exact aside_changeVerdict (aside_setCable (counted _) c _) c _
  · exact aside_changeVerdict (aside_raise (aside_setCable (counted _) c _) _ _ _) c _
  · exact h

theorem aside_ovcCircuit (xs : Vector Sample 8) (t : State) (tc : Fin 8 × Fin 96) : Aside t (ovcCircuit xs t tc) := by
  unfold ovcCircuit; split <;> simp [Aside.refl]

@[simp] theorem aside_takeRelease (h : Aside s t) (c : Fin 96) : Aside s (takeRelease t c) := by
  unfold takeRelease; split <;> simp [h]

@[simp] theorem aside_takeTripClear (h : Aside s t) (c : Fin 96) : Aside s (takeTripClear t c) := by
  unfold takeTripClear; split <;> simp [h]

@[simp] theorem aside_takeCrossRaise (h : Aside s t) (c : Fin 96) : Aside s (takeCrossRaise t c) := by
  unfold takeCrossRaise; split <;> simp [h]

@[simp] theorem aside_takeCrossClear (h : Aside s t) (c : Fin 96) : Aside s (takeCrossClear t c) := by
  unfold takeCrossClear; split <;> simp [h]

@[simp] theorem aside_takeLeakRaise (h : Aside s t) (u : Fin 12) : Aside s (takeLeakRaise t u) := by
  unfold takeLeakRaise; split <;> simp [h]

@[simp] theorem aside_takeLeakClear (h : Aside s t) (u : Fin 12) : Aside s (takeLeakClear t u) := by
  unfold takeLeakClear; split <;> simp [h]

@[simp] theorem aside_judgeLeak (h : Aside s t) (u : Fin 12) (f : SenseFrame) : Aside s (judgeLeak t u f) :=
  aside_takeLeakClear (aside_takeLeakRaise (aside_setLeak h u _) u) u

@[simp] theorem aside_unitLeavesCable (h : Aside s t) (u : Fin 12) : Aside s (unitLeavesCable t u) := by simp [unitLeavesCable, h]

@[simp] theorem aside_cablePulse (h : Aside s t) : Aside s (cablePulse t) :=
  aside_foldl _ (fun _ c => aside_takeTripClear .refl c) _ (aside_cable (aside_foldl _ (fun _ c => aside_takeRelease .refl c) _ h) _)

/-! ### Inputs and holds (R48 to R53, R65) -/

@[simp] theorem aside_resyncIfReleased (h : Aside s t) (u : State) : Aside s (resyncIfReleased u t) := by
  unfold resyncIfReleased
  split
  · exact h.setEng _ rfl
  · exact h

@[simp] theorem aside_inputOn (h : Aside s t) (e : Fin 64) : Aside s (inputOn t e) := by
  unfold inputOn
  dsimp only
  split
  · exact aside_latched (aside_setInput h e _) _
  · simp [h]

@[simp] theorem aside_inputOff (h : Aside s t) (e : Fin 64) : Aside s (inputOff t e) := by
  unfold inputOff
  dsimp only
  refine aside_resyncIfReleased ?_ t
  split <;> simp [h]

@[simp] theorem aside_takeInputChange (h : Aside s t) (e : Fin 64) : Aside s (takeInputChange t e) := by
  unfold takeInputChange
  repeat' split
  all_goals simp [h]

@[simp] theorem aside_readInput (h : Aside s t) (e : Fin 64) (reading : Bool) : Aside s (readInput t e reading) := by
  unfold readInput; split <;> simp [h]

@[simp] theorem aside_takeStuck (h : Aside s t) (e : Fin 64) : Aside s (takeStuck t e) := by unfold takeStuck; split <;> simp [h]

@[simp] theorem aside_stuckPulse (h : Aside s t) : Aside s (stuckPulse t) := aside_foldl _ (fun _ e => aside_takeStuck .refl e) _ h

@[simp] theorem aside_dropInputs (h : Aside s t) (u : Fin 12) : Aside s (dropInputs t u) :=
  aside_foldl _ (fun t e => by split <;> simp [Aside.refl]) _ h

@[simp] theorem aside_takeInputs (h : Aside s t) (u : Fin 12) (f : SenseFrame) : Aside s (takeInputs t u f) :=
  (aside_foldl _ (fun t e => by split <;> simp [Aside.refl]) _ h).handed

@[simp] theorem aside_setHold (h : Aside s t) (x : Option HoldMode) : Aside s (setHold t x) :=
  aside_resyncIfReleased (h.setEng _ rfl) _

/-! ### The field bus (R109 to R122) -/

@[simp] theorem aside_leaveAdmitted (h : Aside s t) (u : Fin 12) : Aside s (leaveAdmitted t u) := by
  have dropped : Aside s (dropInputs (setUnit t u fun x => { x with miss := 0, hotRun := 0, hotQuiet := 0, log := [] }) u) := by simp [h]
  exact aside_unitLeavesProving (aside_unitLeavesCable dropped.handed u) u

@[simp] theorem aside_takeLost (h : Aside s t) (u : Fin 12) : Aside s (takeLost t u) := by
  have lost := aside_setUnit h u
  unfold takeLost
  dsimp only
  repeat' split
  all_goals simp [h, lost]

@[simp] theorem aside_takeMiss (h : Aside s t) (u : Fin 12) : Aside s (takeMiss t u) := by
  have resolved : Aside s (resolveTests (between t) u (lastWindowNo t) none) := by simp [h]
  unfold takeMiss
  dsimp only
  split
  · exact aside_takeLost (aside_setUnit resolved u _) u
  · exact resolved

@[simp] theorem aside_compose (h : Aside s t) (u : Fin 12) : Aside s (compose t u) := by
  unfold compose
  dsimp only
  refine aside_sendBus (aside_setUnit ?_ u _) _
  split <;> simp [h]

@[simp] theorem aside_passStep (h : Aside s t) : Aside s (passStep t) := by
  unfold passStep
  repeat' split
  all_goals simp [h]

@[simp] theorem aside_rollStep (h : Aside s t) : Aside s (rollStep t) := by
  unfold rollStep
  split
  · exact aside_sendBus (aside_setRound h _) _
  · simp [h]

@[simp] theorem aside_goRound (h : Aside s t) : Aside s (goRound t) := by
  unfold goRound
  dsimp only
  repeat' split
  all_goals simp [h]

@[simp] theorem aside_judgeDim (h : Aside s t) (u : Fin 12) : Aside s (judgeDim t u) := by
  unfold judgeDim
  dsimp only
  repeat' split
  all_goals simp [h]

@[simp] theorem aside_takeRollRound (h : Aside s t) : Aside s (takeRollRound t) := by
  unfold takeRollRound; split <;> simp [h]

@[simp] theorem aside_beginRound (h : Aside s t) : Aside s (beginRound t) := by
  have judged : Aside s ((idx 12).foldl judgeDim t) := aside_foldl _ (fun _ u => aside_judgeDim .refl u) _ h
  unfold beginRound
  dsimp only
  split
  · exact aside_goRound (aside_takeRollRound (aside_setBus judged _))
  · exact h

@[simp] theorem aside_exchangeOver (h : Aside s t) : Aside s (exchangeOver t) := by simp [exchangeOver, h]

@[simp] theorem aside_senseMissed (h : Aside s t) (u : Fin 12) : Aside s (senseMissed t u) := by
  unfold senseMissed; split <;> simp [h]

@[simp] theorem aside_callOver (h : Aside s t) : Aside s (callOver t) := by simp [callOver, h]

@[simp] theorem aside_identTimedOut (h : Aside s t) (u : Fin 12) : Aside s (identTimedOut t u) := by
  unfold identTimedOut; split <;> simp [h]

@[simp] theorem aside_closeRound (h : Aside s t) : Aside s (closeRound t) := by
  have missed (t : State) : Aside t (missOutstanding t) := by unfold missOutstanding; split <;> simp [Aside.refl]
  have out (t : State) : Aside t (timeoutOutstanding t) := by unfold timeoutOutstanding; split <;> simp [Aside.refl]
  unfold closeRound
  exact aside_setBus (aside_times 12 _ out (aside_times 12 _ missed h)) _

@[simp] theorem aside_takeHotRaise (h : Aside s t) (u : Fin 12) : Aside s (takeHotRaise t u) := by
  unfold takeHotRaise; split <;> simp [h]

@[simp] theorem aside_takeHotClear (h : Aside s t) (u : Fin 12) : Aside s (takeHotClear t u) := by
  unfold takeHotClear; split <;> simp [h]

@[simp] theorem aside_takeFlags (h : Aside s t) (u : Fin 12) (f : SenseFrame) : Aside s (takeFlags t u f) :=
  aside_takeHotClear (aside_takeHotRaise (aside_setUnit h u _) u) u

@[simp] theorem aside_forward (h : Aside s t) (u : Fin 12) (f : SenseFrame) : Aside s (forward t u f) := by
  unfold forward queueReport
  repeat' split
  all_goals simp [h]

@[simp] theorem aside_clearLost (h : Aside s t) (u : Fin 12) (raised : Bool) : Aside s (clearLost t u raised) := by
  unfold clearLost; split <;> simp [h]

@[simp] theorem aside_clearMismatch (h : Aside s t) (u : Fin 12) (raised : Bool) : Aside s (clearMismatch t u raised) := by
  unfold clearMismatch; split <;> simp [h]

@[simp] theorem aside_takeIdent (h : Aside s t) (u : Fin 12) (f : IdentFrame) : Aside s (takeIdent t u f) := by
  have taken := aside_setUnit (aside_between h) u
  unfold takeIdent
  dsimp only
  repeat' split
  all_goals simp [taken]

@[simp] theorem aside_identArrives (h : Aside s t) (f : IdentFrame) : Aside s (identArrives t f) := by
  unfold identArrives
  repeat' split
  all_goals simp [h]

@[simp] theorem aside_passArrives (h : Aside s t) (f : PassFrame) : Aside s (passArrives t f) := by
  unfold passArrives
  repeat' split
  all_goals simp [h]

/-! ### The mains supervisor (R94 to R96) -/

@[simp] theorem aside_takeInterruptionClear (h : Aside s t) : Aside s (takeInterruptionClear t) := by
  unfold takeInterruptionClear; split <;> simp [h]

@[simp] theorem aside_countAfterGap (h : Aside s t) : Aside s (countAfterGap t) := by simp [countAfterGap, h]

@[simp] theorem aside_takeFreqRaise (h : Aside s t) : Aside s (takeFreqRaise t) := by unfold takeFreqRaise; split <;> simp [h]

@[simp] theorem aside_takeFreqClear (h : Aside s t) : Aside s (takeFreqClear t) := by unfold takeFreqClear; split <;> simp [h]

@[simp] theorem aside_countPeriod (h : Aside s t) (period : Nat) : Aside s (countPeriod t period) := by
  unfold countPeriod; split <;> simp [h]

@[simp] theorem aside_clearMisses (h : Aside s t) : Aside s (clearMisses t) := by simp [clearMisses, h]

@[simp] theorem aside_takeInterruption (h : Aside s t) : Aside s (takeInterruption t) := by
  unfold takeInterruption; split <;> simp [h]

/-! ### The governing plan and the clock (R66, R98) -/

theorem footing_setEng (s : State) (f : Engine → Engine) (h : (f s.eng).running = s.eng.running) : footing (setEng s f) = footing s := by
  simp [footing, h]

@[simp] theorem aside_raiseInvalid (h : Aside s t) (p : Fin 8) : Aside s (raiseInvalid t p) := h.quiet (footing_raiseInvalid ..)

@[simp] theorem aside_refreshInvalid (h : Aside s t) : Aside s (refreshInvalid t) := h.quiet (footing_refreshInvalid _)

@[simp] theorem aside_pendingPlan (h : Aside s t) (q : Option (Fin 8)) : Aside s (setEng t fun e => { e with pendingPlan := q }) :=
  h.setEng _ rfl

@[simp] theorem aside_dealGoverning (h : Aside s t) (p : Fin 8) : Aside s (dealGoverning t p) := by
  unfold dealGoverning
  dsimp only
  repeat' split
  all_goals simp [h]

@[simp] theorem aside_nameGoverning (h : Aside s t) (p : Fin 8) : Aside s (nameGoverning t p) := by
  have named : Aside s (refreshInvalid (setEng t fun e => { e with governing := p })) := aside_refreshInvalid (h.setEng _ rfl)
  unfold nameGoverning
  dsimp only
  split <;> simp [named]

@[simp] theorem aside_handDim (h : Aside s t) : Aside s (handDim t) := h.quiet rfl

@[simp] theorem aside_reportRollover (h : Aside s t) : Aside s (reportRollover t) := by
  unfold reportRollover
  split
  · exact h
  · exact h.setEng _ rfl

@[simp] theorem aside_reportStep (h : Aside s t) (ms : Int) : Aside s (reportStep t ms) := by
  unfold reportStep
  repeat' split
  · exact h
  · exact h.setEng _ rfl
  · exact h.setEng _ rfl
  · exact h

@[simp] theorem aside_takeMidnight (h : Aside s t) : Aside s (takeMidnight t) := by
  unfold takeMidnight; split <;> simp [h]

/-! ### The port (R169 to R173) -/

@[simp] theorem aside_takeFrame (h : Aside s t) : Aside s (takeFrame t) := by
  unfold takeFrame
  repeat' split
  all_goals exact h.quiet rfl

@[simp] theorem aside_kick (h : Aside s t) : Aside s (kick t) := by unfold kick; split <;> simp [h]

@[simp] theorem aside_finish (h : Aside s t) : Aside s (finish t) := by simp [finish, h]

@[simp] theorem aside_endFrame (h : Aside s t) : Aside s (endFrame t) := by
  unfold endFrame frameDone
  repeat' split
  all_goals exact h.quiet rfl

@[simp] theorem aside_answerBusy (h : Aside s t) (kind tag : Byte) : Aside s (answerBusy t kind tag) := by
  unfold answerBusy
  split
  · exact h
  · exact h.setPort _ rfl

end Sys2Proof.Machine

namespace Sys2Proof.Machine

open Sys2Proof

variable {s t : State}

/-! ## The monitor's work at a pulse (R22, R27 to R30) -/

/-- A state with the tables of the groups and the matrix, the aspects, the mode record, the running plan and the configuration of a lawful one. -/
theorem Lawful.of_aspects (h : Lawful s) (hg : t.tables.group = s.tables.group) (hm : t.tables.matrix = s.tables.matrix)
    (ha : ∀ g : Fin 32, t.groups[g].aspect = s.groups[g].aspect) (hj : t.jm = s.jm) (hr : t.eng.running = s.eng.running)
    (ho : t.port.configOpen = s.port.configOpen) : Lawful t :=
  h.of_going hg hm ho (fun g hgo => by rwa [← going_of_aspect (ha g)]) (fun g _ => ha g)
    (by rw [hj, hr]; exact fun hd => ⟨fun g => (ha g).trans ((h.darkness hd).1 g), (h.darkness hd).2⟩) (by rw [hj]; exact h.configuring)

theorem lawful_setGroup (h : Lawful s) (g : Fin 32) (f : GroupRec → GroupRec) (hf : ∀ r : GroupRec, (f r).aspect = r.aspect) :
    Lawful (setGroup s g f) := by
  refine h.of_aspects rfl rfl (fun j => ?_) rfl rfl rfl
  by_cases e : g = j
  · subst e; simp only [setGroup, getElem_upd_self, hf]
  · simp only [setGroup, getElem_upd_of_ne _ _ _ _ e]

@[simp] theorem lawful_setMains (h : Lawful s) (f : Mains → Mains) : Lawful (setMains s f) := h.of_footing rfl
@[simp] theorem lawful_setClock (h : Lawful s) (f : Clock → Clock) : Lawful (setClock s f) := h.of_footing rfl
@[simp] theorem lawful_setBus (h : Lawful s) (f : Bus → Bus) : Lawful (setBus s f) := h.of_footing rfl
@[simp] theorem lawful_setUnit (h : Lawful s) (u : Fin 12) (f : UnitRec → UnitRec) : Lawful (setUnit s u f) := h.of_footing rfl
@[simp] theorem lawful_sched (h : Lawful s) (x : SchedRec) : Lawful { s with sched := x } := h.of_footing rfl
@[simp] theorem lawful_between (h : Lawful s) : Lawful (between s) := h.of_footing rfl
@[simp] theorem lawful_moment (h : Lawful s) (m : Moment) : Lawful { s with moment := m } := h.of_footing rfl
@[simp] theorem lawful_inPulse (h : Lawful s) (b : Bool) : Lawful { s with inPulse := b } := h.of_footing rfl

theorem going_iff {r : GroupRec} : going r = true ↔ r.aspect = .green ∨ r.aspect = .redAmber := by
  simp only [going, Bool.or_eq_true, decide_eq_true_eq]

/-- A group in use that enters an aspect makes no group go, unless it enters GREEN or RED_AMBER from one of the other aspects. -/
theorem eased_setAspect {g : Fin 32} {a : Aspect} (hl : live s g = true)
    (ha : (a = .green ∨ a = .redAmber) → going s.groups[g] = true) : Eased s (setAspect s g a) := by
  have frame := setAspect_frame s g a
  refine ⟨by rw [frame], by rw [frame], by rw [frame], fun j hj => ?_, fun j hj => ?_⟩
  · by_cases e : g = j
    · subst e
      rw [going_iff, setAspect_aspect] at hj
      exact ha hj
    · rwa [setAspect_of_ne _ _ _ _ e] at hj
  · rw [setAspect_of_ne _ _ _ _ (by rintro rfl; rw [hl] at hj; cases hj)]

theorem eased_takeClearanceStart (s : State) (g : Fin 32) : Eased s (takeClearanceStart s g) := by
  unfold takeClearanceStart
  split
  case isTrue hd =>
    simp only [clearanceStartDue, Bool.and_eq_true, decide_eq_true_eq] at hd
    exact eased_setAspect hd.1.1.1 fun _ => going_iff.2 (.inl hd.1.1.2)
  case isFalse => exact .refl s

theorem eased_takeAmberEnd (s : State) (g : Fin 32) : Eased s (takeAmberEnd s g) := by
  unfold takeAmberEnd
  split
  case isTrue hd =>
    simp only [amberEndDue, Bool.and_eq_true, decide_eq_true_eq] at hd
    exact eased_setAspect hd.1.1 (by simp)
  case isFalse => exact .refl s

theorem eased_takeClearanceEnd (s : State) (g : Fin 32) : Eased s (takeClearanceEnd s g) := by
  unfold takeClearanceEnd
  split
  case isTrue hd =>
    simp only [clearanceEndDue, Bool.and_eq_true, decide_eq_true_eq] at hd
    exact eased_setAspect hd.1.1 (by simp)
  case isFalse => exact .refl s

theorem eased_takeRedAmberEnd (s : State) (g : Fin 32) : Eased s (takeRedAmberEnd s g) := by
  unfold takeRedAmberEnd
  split
  case isTrue hd =>
    simp only [redAmberEndDue, Bool.and_eq_true, decide_eq_true_eq] at hd
    exact eased_setAspect hd.1.1 fun _ => going_iff.2 (.inr hd.1.2)
  case isFalse => exact .refl s

/-- Work that makes no group go and touches nothing where the group is DARK. -/
theorem Lawful.of_lit (h : Lawful s) (g : Fin 32) (e : Eased s t) (dark : s.groups[g].aspect = .dark → t = s) : Lawful t := by
  by_cases ha : s.groups[g].aspect = .dark
  · rw [dark ha]; exact h
  · exact h.of_eased e (h.mode_of_aspect ha)

theorem lawful_takeClearanceStart (h : Lawful s) (g : Fin 32) : Lawful (takeClearanceStart s g) :=
  h.of_lit g (eased_takeClearanceStart s g) fun ha => if_neg (by simp only [clearanceStartDue, ha, reduceCtorEq, decide_false, Bool.and_false, Bool.false_and, Bool.false_eq_true, not_false_eq_true])

theorem lawful_takeAmberEnd (h : Lawful s) (g : Fin 32) : Lawful (takeAmberEnd s g) :=
  h.of_lit g (eased_takeAmberEnd s g) fun ha => if_neg (by simp only [amberEndDue, ha, reduceCtorEq, decide_false, Bool.and_false, Bool.false_and, Bool.false_eq_true, not_false_eq_true])

theorem lawful_takeClearanceEnd (h : Lawful s) (g : Fin 32) : Lawful (takeClearanceEnd s g) :=
  h.of_lit g (eased_takeClearanceEnd s g) fun ha => if_neg (by simp only [clearanceEndDue, ha, reduceCtorEq, decide_false, Bool.and_false, Bool.false_and, Bool.false_eq_true, not_false_eq_true])

theorem lawful_takeRedAmberEnd (h : Lawful s) (g : Fin 32) : Lawful (takeRedAmberEnd s g) :=
  h.of_lit g (eased_takeRedAmberEnd s g) fun ha => if_neg (by simp only [redAmberEndDue, ha, reduceCtorEq, decide_false, Bool.and_false, Bool.false_and, Bool.false_eq_true, not_false_eq_true])

theorem lawful_takeTimedEnd (h : Lawful s) (g : Fin 32) : Lawful (takeTimedEnd s g) := by
  unfold takeTimedEnd
  split
  · exact lawful_takeClearanceStart h g
  · exact lawful_takeAmberEnd h g
  · exact lawful_takeClearanceEnd h g
  · exact lawful_takeRedAmberEnd h g
  all_goals exact h

theorem lawful_foldl {α : Type} (f : State → α → State) (hf : ∀ t a, Lawful t → Lawful (f t a)) (l : List α) (h : Lawful s) :
    Lawful (l.foldl f s) := by
  induction l generalizing s with
  | nil => exact h
  | cons a l ih => exact ih (hf s a h)

/-- A group that may be released has no group that conflicts with it going (R29). -/
theorem not_going_of_releasable {i j : Fin 32} (hr : releasable s j = true) (hc : conflicts s i j = true) :
    going s.groups[i] = false := by
  simp only [releasable, Bool.and_eq_true, List.all_eq_true] at hr
  have clear := hr.2 i (List.mem_finRange i)
  simp only [clearOf, hc, Bool.not_true, Bool.false_or, Bool.and_eq_true, Bool.not_eq_true'] at clear
  exact clear.1

/-- The release of a group leaves no two groups that conflict going: those that conflict with it do not go, on either side of the matrix, which is
symmetric with configuration closed, as it is where a group is RED (R13, R29, R30). -/
theorem lawful_judgeRelease (h : Lawful s) (j : Fin 32) : Lawful (judgeRelease s j) := by
  unfold judgeRelease
  split
  case isFalse => exact h
  case isTrue hr =>
    generalize (if redAmberTime s j = 0 then Aspect.green else Aspect.redAmber) = a
    have due := hr
    simp only [releasable, Bool.and_eq_true, decide_eq_true_eq] at due
    obtain ⟨⟨⟨⟨⟨hl, -⟩, red⟩, -⟩, -⟩, -⟩ := due
    have mode : s.jm.mode ≠ .dark := h.mode_of_aspect (g := j) (by rw [red]; decide)
    have frame := setAspect_frame s j a
    have conflicts_eq : conflicts (setAspect s j a) = conflicts s := conflicts_of_group (by rw [frame]) (by rw [frame])
    constructor
    case apart =>
      rintro i k hc ⟨hi, hk⟩
      rw [conflicts_eq] at hc
      have ne : i ≠ k := ((conflicts_eq_true s).1 hc).1
      by_cases ek : j = k
      · subst ek
        rw [setAspect_of_ne _ _ _ _ ne.symm, not_going_of_releasable hr hc] at hi
        cases hi
      · rw [setAspect_of_ne _ _ _ _ ek] at hk
        by_cases ei : j = i
        · subst ei
          rw [not_going_of_releasable hr (h.symmetric (h.closed_of_mode mode) _ _ hc)] at hk
          cases hk
        · rw [setAspect_of_ne _ _ _ _ ei] at hi
          exact h.apart i k hc ⟨hi, hk⟩
    case symmetric =>
      rw [conflicts_eq, frame]
      exact h.symmetric
    case darkness => exact fun hd => absurd (by rw [frame] at hd; exact hd) mode
    case unusedDark =>
      intro g hg
      rw [show live (setAspect s j a) g = live s g by rw [frame]; rfl] at hg
      rw [setAspect_of_ne _ _ _ _ (by rintro rfl; rw [hl] at hg; cases hg)]
      exact h.unusedDark g hg
    case configuring => exact fun ho => by rw [frame] at ho; exact absurd (h.configuring ho).1 mode

/-! ## The pulse (R97) -/

@[simp] theorem lawful_modePulse (h : Lawful s) : Lawful (modePulse s) := by
  have ended : Lawful (takeStartRedEnd (settle (takeStartFlashEnd s))) :=
    lawful_takeStartRedEnd (lawful_settle (lawful_takeStartFlashEnd h))
  exact lawful_settle (lawful_takeSilent (lawful_settle (lawful_takeProvingTimeout ended)))

@[simp] theorem lawful_monitorPulse (h : Lawful s) : Lawful (monitorPulse s) :=
  lawful_settle (lawful_foldl _ (fun _ g ht => lawful_judgeRelease ht g) _
    (lawful_settle (lawful_foldl _ (fun _ g ht => lawful_takeTimedEnd ht g) _ h)))

@[simp] theorem lawful_advanceEngine (h : Lawful s) : Lawful (advanceEngine s) := by
  unfold advanceEngine
  split
  · exact h.of_footing (footing_setEng _ _ rfl)
  · exact h

@[simp] theorem lawful_advanceTimers (h : Lawful s) : Lawful (advanceTimers s) := by
  have groups : Lawful (advanceGroups s) := h.of_aspects rfl rfl (fun g => by simp [advanceGroups, advanceGroup]) rfl rfl rfl
  have runs : Lawful (advanceRuns (advanceGroups s)) := groups.of_footing rfl
  have engine : Lawful (advanceEngine (advanceMode (advanceRuns (advanceGroups s)))) := by simp [runs]
  exact engine.of_footing rfl

theorem aside_timers (s : State) : Aside s (stuckPulse (cablePulse s)) := by simp [Aside.refl]

@[simp] theorem lawful_pulse (h : Lawful s) : Lawful (pulse s) := by
  have timed : Lawful (stuckPulse (cablePulse (advanceTimers s))) := (aside_timers _).lawful (lawful_advanceTimers h)
  have run := lawful_settle (lawful_enginePulse (lawful_monitorPulse (lawful_modePulse timed)) (stageRan s))
  unfold pulse
  dsimp only
  generalize settle _ = u at run ⊢
  exact run.of_footing rfl

/-! ## The clock (R98, R103) -/

@[simp] theorem lawful_handPlan (h : Lawful s) (always : Bool) : Lawful (handPlan always s) := by
  unfold handPlan
  dsimp only
  split
  · exact lawful_noPlanExit (Aside.lawful (aside_nameGoverning (aside_sched .refl _) _) h)
  · exact h

theorem lawful_formResults (h : Lawful s) (always : Bool) : Lawful (formResults always s) := by
  unfold formResults
  dsimp only
  refine (lawful_handPlan ?_ always).of_footing rfl
  split
  · exact lawful_settle (lawful_nameSchedule (lawful_sched h _) _)
  · exact lawful_sched h _

@[simp] theorem lawful_evaluate (h : Lawful s) : Lawful (evaluate s) := lawful_formResults h false

theorem lawful_advanceClock (h : Lawful s) (n : Nat) : Lawful (advanceClock s n) := by
  have counted : Lawful (takeMidnight (setClock (between s) fun c => { c with ms := c.ms + n })) :=
    (aside_takeMidnight (aside_setClock (aside_between .refl) _)).lawful h
  unfold advanceClock
  dsimp only
  split <;> simp [counted]

theorem lawful_takeCrystalMs (h : Lawful s) : Lawful (takeCrystalMs s) := by
  unfold takeCrystalMs
  dsimp only
  split
  · exact lawful_advanceClock (lawful_setClock h _) _
  · exact h

theorem lawful_windowClock (h : Lawful s) : Lawful (windowClock s) := by
  unfold windowClock
  split
  · refine lawful_advanceClock ?_ _
    split
    · exact h.of_footing rfl
    · exact h
  · exact h

/-! ## Window starts and edges (R36 to R38, R94 to R97) -/

theorem lawful_takeGreenRaise (h : Lawful s) (g : Fin 32) : Lawful (takeGreenRaise s g) := by
  unfold takeGreenRaise
  split
  · exact (aside_raise .refl _ _ _).lawful (lawful_setGroup h g _ fun _ => rfl)
  · exact h

theorem lawful_takeGreenClear (h : Lawful s) (g : Fin 32) : Lawful (takeGreenClear s g) := by
  unfold takeGreenClear
  split
  · exact (aside_clear .refl _ _).lawful (lawful_setGroup h g _ fun _ => rfl)
  · exact h

theorem countGreen_aspect (r : GroupRec) : (countGreen r).aspect = r.aspect := by unfold countGreen; split <;> rfl

theorem lawful_greenGroup (h : Lawful s) (g : Fin 32) : Lawful (greenGroup s g) := by
  unfold greenGroup
  split
  · exact lawful_takeGreenClear (lawful_takeGreenRaise (lawful_setGroup h g _ countGreen_aspect) g) g
  · exact h

theorem lawful_countWindow (h : Lawful s) : Lawful (countWindow s) := by
  unfold countWindow
  dsimp only
  split
  · exact lawful_moment (lawful_pulse (lawful_setMains h _)) _
  · exact lawful_moment (lawful_setMains h _) _

theorem lawful_windowStart (h : Lawful s) (t : Nat) (gapBegin counted : Bool) : Lawful (windowStart s t gapBegin counted) := by
  have closed : Lawful (setMains (closeRound s) fun m => { m with lastWindow := some t }) :=
    (aside_setMains (aside_closeRound .refl) _).lawful h
  unfold windowStart
  dsimp only
  refine (aside_beginRound .refl).lawful (lawful_countWindow (lawful_foldl _ (fun _ g ht => lawful_greenGroup ht g) _ ?_))
  have clocked := lawful_windowClock ((aside_setBus (.refl) fun b : Bus =>
    { b with seq := nextWin b.seq, lastInGap := b.windowInGap || gapBegin
             windowInGap := (setMains (closeRound s) fun m => { m with lastWindow := some t }).mains.gap }).lawful closed)
  split
  · exact (aside_countAfterGap .refl).lawful clocked
  · exact clocked

theorem lawful_substituteStart (h : Lawful s) : Lawful (substituteStart s) := by
  unfold substituteStart
  dsimp only
  split
  · refine lawful_windowStart ?_ _ _ _
    split
    · exact h.of_footing rfl
    · exact h
  · exact h

theorem lawful_plainEdge (h : Lawful s) (period : Nat) : Lawful (plainEdge s period) := by
  have counted : Lawful (countPeriod (setMains s fun m => { m with lastEdge := s.mains.lastEdge + period }) period) :=
    (aside_countPeriod (aside_setMains .refl _) period).lawful h
  unfold plainEdge
  dsimp only
  repeat' split
  · exact (aside_takeFreqRaise .refl).lawful counted
  · exact (aside_takeFreqClear .refl).lawful counted
  · exact lawful_windowStart counted _ _ _
  · exact counted

theorem lawful_handGapEnd (h : Lawful s) (long : Bool) : Lawful (handGapEnd s long) := by
  refine (aside_gapProving (aside_clearMisses .refl)).lawful (lawful_settle ?_)
  split <;> simp [h]

theorem lawful_takeEdge (h : Lawful s) (period : Nat) : Lawful (takeEdge s period) := by
  have begun : Lawful (between s) := h.of_footing rfl
  have ended := lawful_handGapEnd (lawful_setMains begun fun m =>
    { m with gap := false, lastEdge := (between s).mains.lastEdge + period, sinceGap := some 0
             timebase := if m.freqRaised then .substitute else .locked }) (longGap (between s) period)
  unfold takeEdge gapEndEdge
  dsimp only
  split
  · split
    · exact lawful_windowStart ended _ _ _
    · exact ended
  · exact lawful_plainEdge begun period

theorem lawful_gapBegins (h : Lawful s) : Lawful (gapBegins s) := by
  have begun : Lawful (gapProving (setMains s fun m => { m with gap := true, sinceGap := none })) := by
    exact (aside_gapProving (aside_setMains .refl _)).lawful h
  unfold gapBegins
  dsimp only
  repeat' split
  · exact h
  · exact lawful_windowStart (lawful_setMains begun _) _ _ _
  · exact begun

/-! ## The intake of a frame (R116) -/

theorem lawful_passGreen (h : Lawful s) (u : Fin 12) (v : Nat) (tc : Fin 8 × Fin 96) (lit : Bool) :
    Lawful (passGreen s u v tc lit) := by
  unfold passGreen
  repeat' split
  · exact lawful_setGroup h _ _ fun _ => rfl
  all_goals exact h

theorem lawful_litCircuit (u : Fin 12) (f : SenseFrame) (xs : Vector Sample 8) (h : Lawful s) (tc : Fin 8 × Fin 96) :
    Lawful (litCircuit u f xs s tc) := by
  unfold litCircuit
  dsimp only
  repeat' split
  · exact (aside_takeCrossClear (aside_takeCrossRaise (aside_setCable .refl _ _) _) _).lawful (lawful_passGreen h _ _ _ _)
  · exact h.of_footing rfl
  · exact h

theorem lawful_superviseFrame (h : Lawful s) (u : Fin 12) (v : Nat) (f : SenseFrame) (xs : Vector Sample 8) :
    Lawful (superviseFrame s u v f xs) :=
  (aside_recomputeRed (aside_judgeLeak .refl u f)).lawful (lawful_foldl _ (fun _ tc ht => lawful_litCircuit u f xs ht tc) _
    ((aside_foldl _ (aside_ovcCircuit xs) _ (aside_resolveTests .refl u v _)).lawful h))

theorem lawful_intake (h : Lawful s) (u : Fin 12) (f : SenseFrame) : Lawful (intake s u f) := by
  unfold intake
  dsimp only
  split
  · exact (aside_resolveTests .refl u _ _).lawful h
  · exact (aside_forward (aside_takeInputs (aside_takeFlags .refl u f) u f) u f).lawful
      (lawful_superviseFrame ((aside_proveFrame .refl u f _).lawful h) u _ f _)

theorem lawful_takeValid (h : Lawful s) (u : Fin 12) (f : SenseFrame) : Lawful (takeValid s u f) := by
  have begun := lawful_moment h (frameMoment s u f)
  unfold takeValid
  dsimp only
  refine lawful_intake ?_ u f
  split
  · exact lawful_setUnit begun u _
  · exact begun

theorem lawful_senseArrives (h : Lawful s) (f : SenseFrame) : Lawful (senseArrives s f) := by
  unfold senseArrives
  split
  case h_1 u _ =>
    refine (aside_exchangeOver .refl).lawful ?_
    split
    · exact lawful_takeValid h u f
    · exact (aside_takeMiss .refl u).lawful h
  case h_2 => exact h

end Sys2Proof.Machine

namespace Sys2Proof.Machine

open Sys2Proof

variable {s t : State}

/-! ## Requests (R34 to R181) -/

@[simp] theorem lawful_setPort (h : Lawful s) (f : Port → Port) (hf : (f s.port).configOpen = s.port.configOpen) : Lawful (setPort s f) :=
  h.of_footing (by simp [footing, hf])

@[simp] theorem lawful_setColl (h : Lawful s) (f : Collector → Collector) : Lawful (setColl s f) := h.of_footing rfl
@[simp] theorem lawful_setLearn (h : Lawful s) (c : Fin 96) (f : LearnRec → LearnRec) : Lawful (setLearn s c f) := h.of_footing rfl
@[simp] theorem lawful_setProv (h : Lawful s) (c : Fin 96) (f : ProvRec → ProvRec) : Lawful (setProv s c f) := h.of_footing rfl
@[simp] theorem lawful_finish (h : Lawful s) : Lawful (finish s) := (aside_finish .refl).lawful h
@[simp] theorem lawful_refreshInvalid (h : Lawful s) : Lawful (refreshInvalid s) := (aside_refreshInvalid .refl).lawful h

/-- A write of the tables that leaves the groups and the matrix. -/
theorem lawful_setTables (h : Lawful s) (f : Tables → Tables) (hg : (f s.tables).group = s.tables.group)
    (hm : (f s.tables).matrix = s.tables.matrix) : Lawful (setTables s f) :=
  h.of_aspects hg hm (fun _ => rfl) rfl rfl rfl

/-- A state with every group DARK, no plan running and no departure waiting is lawful in every mode, where the matrix and the configuration are. -/
theorem Lawful.of_dark (dark : ∀ g : Fin 32, s.groups[g].aspect = .dark) (idle : s.eng.running = none) (none : s.jm.departure = none)
    (symmetric : s.port.configOpen = false → ∀ i j : Fin 32, conflicts s i j = true → conflicts s j i = true)
    (configuring : s.port.configOpen = true → s.jm.mode = .dark ∧ s.jm.started = false ∧
      (s.jm.reason = .reset ∨ s.jm.reason = .restart ∨ s.jm.reason = .config)) : Lawful s where
  apart i j _ := by
    rw [going_iff, going_iff, dark i, dark j]
    simp
  symmetric := symmetric
  darkness _ := ⟨dark, idle, none⟩
  unusedDark g _ := dark g
  configuring := configuring

/-- With configuration open every group is DARK, so the tables may hold anything (R75, R177). -/
theorem lawful_setTables_open (h : Lawful s) (ho : s.port.configOpen = true) (f : Tables → Tables) : Lawful (setTables s f) := by
  obtain ⟨dark, idle, none⟩ := h.darkness (h.configuring ho).1
  exact .of_dark dark idle none (fun hc => by rw [setTables_port, ho] at hc; cases hc) h.configuring

theorem lawful_received (h : Lawful s) : Lawful (received s) := by
  have heard : Lawful (setPort (between s) fun p => { p with receiver := .hunting }) := h.of_footing rfl
  unfold received
  exact lawful_settle (lawful_heardRequest heard)

theorem lawful_taken (h : Lawful s) (kind tag : Byte) : Lawful (taken kind tag s) := by
  have begun := lawful_received h
  unfold taken
  generalize received s = u at begun ⊢
  exact lawful_setPort begun _ rfl

/-- A request keeps the laws where its own rule does. -/
theorem lawful_serve (h : Lawful s) (kind tag : Byte) (body : State → Answer) (hb : ∀ u, Lawful u → Lawful (body u).state) :
    Lawful (serve kind tag body s) := by
  have begun := lawful_received h
  unfold serve
  dsimp only
  split
  · exact lawful_finish ((aside_answerBusy .refl kind tag).lawful begun)
  · refine lawful_finish ?_
    have served := lawful_settle (hb _ (lawful_taken h kind tag))
    unfold answer
    dsimp only
    change Lawful (setPort (settle (body (taken kind tag s)).state) _)
    generalize settle _ = u at served ⊢
    exact lawful_setPort served _ rfl

/-- A request refused changes nothing, so the checks may be taken as passed. -/
theorem lawful_checked (h : Lawful s) (checks : List (Bool × Result)) (a : Answer) (ha : firstRefusal checks = none → Lawful a.state) :
    Lawful (checked checks s a).state := by
  unfold checked
  split
  case h_1 => exact h
  case h_2 hn => exact ha hn

theorem lawful_done (h : Lawful s) : Lawful (done s).state := h

theorem lawful_refuse (h : Lawful s) (r : Result) : Lawful (refuse s r).state := h

/-- A check that has been passed does not hold. -/
theorem eq_false_of_firstRefusal {checks : List (Bool × Result)} (h : firstRefusal checks = none) {b : Bool} {r : Result}
    (hb : (b, r) ∈ checks) : b = false := by
  induction checks with
  | nil => cases hb
  | cons c rest ih =>
    obtain ⟨bad, x⟩ := c
    cases bad
    · rcases List.mem_cons.1 hb with e | hb
      · exact congrArg Prod.fst e
      · exact ih h hb
    · cases h

/-- A table write that has been allowed. -/
theorem allowed_of_writeChecks {a : TableArgs} {entries range : Nat} {allowed badField badTable : Bool}
    (h : firstRefusal (writeChecks a entries range allowed badField badTable) = none) : allowed = true := by
  simpa using eq_false_of_firstRefusal h (b := !allowed) (r := .inUse) (by simp [writeChecks])

/-- A write of a configuration table, which is taken with configuration open alone (R175). -/
theorem lawful_configTable (h : Lawful s) (a : TableArgs) (entries range : Nat) (badField badTable : Bool) (f : Tables → Tables) (r : Result) :
    Lawful (checked (writeChecks a entries range s.port.configOpen badField badTable) s ⟨setTables s f, r, .none⟩).state :=
  lawful_checked h _ _ fun hn => lawful_setTables_open h (allowed_of_writeChecks hn) f

theorem lawful_writePattern (h : Lawful s) (a : TableArgs) (es : List PatternEntry) : Lawful (writePattern a es s).state :=
  lawful_checked h _ _ fun _ => h.of_aspects rfl rfl (fun _ => rfl) rfl rfl rfl

theorem lawful_takeStartUp (h : Lawful s) (e : StartUp) : Lawful (takeStartUp s e) := by
  have written : Lawful (setTables s fun t => { t with startUp := e }) := lawful_setTables h _ rfl rfl
  unfold takeStartUp
  dsimp only
  refine lawful_formResults (lawful_refreshInvalid ?_) false
  split
  · exact written.of_footing rfl
  · exact Lawful.of_footing (s := setMains _ newNominal) (lawful_setMains written _) rfl

theorem lawful_writeStartUp (h : Lawful s) (a : TableArgs) (es : List StartUp) : Lawful (writeStartUp a es s).state := by
  refine lawful_checked h _ _ fun _ => ?_
  dsimp only
  split
  · exact lawful_takeStartUp h _
  · exact h

theorem lawful_setPlan (h : Lawful s) (p : Fin 8) (f : Plan → Plan) : Lawful (setPlan s p f) := lawful_setTables h _ rfl rfl

theorem lawful_writePlan (h : Lawful s) (p : Nat) (a : TableArgs) (es : List (List Byte)) : Lawful (writePlan p a es s).state := by
  unfold writePlan
  dsimp only
  split
  · exact lawful_checked h _ _ fun _ => lawful_setPlan h _ _
  · exact h

/-- A write of the schedule leaves the tables of the groups and the matrix. -/
theorem writeSchedEntry_group (x : Tables) (w : Nat × SchedRaw) :
    ((writeSchedEntry x w).group, (writeSchedEntry x w).matrix) = (x.group, x.matrix) := by
  unfold writeSchedEntry
  repeat' split
  all_goals rfl

theorem lawful_writeSched (h : Lawful s) (a : TableArgs) (es : List SchedRaw) : Lawful (writeSched a es s).state := by
  have frame := foldl_inv (fun x : Tables => (x.group, x.matrix)) writeSchedEntry writeSchedEntry_group ((addressed a).zip es) s.tables
  obtain ⟨hg, hm⟩ := Prod.mk.inj frame
  exact lawful_checked h _ _ fun _ => lawful_evaluate (h.of_aspects hg hm (fun _ => rfl) rfl rfl rfl)

theorem lawful_writeReaction (h : Lawful s) (a : TableArgs) (es : List Nat) : Lawful (writeReaction a es s).state :=
  lawful_checked h _ _ fun _ => h.of_aspects rfl rfl (fun _ => rfl) rfl rfl rfl

theorem lawful_writeProving (h : Lawful s) (a : TableArgs) (es : List ProvingParams) : Lawful (writeProving a es s).state := by
  refine lawful_checked h _ _ fun _ => ?_
  dsimp only
  split
  · exact lawful_setTables h _ rfl rfl
  · exact h

theorem lawful_writeCable (h : Lawful s) (a : TableArgs) (es : List CableParams) : Lawful (writeCable a es s).state := by
  refine lawful_checked h _ _ fun _ => ?_
  dsimp only
  split
  · exact lawful_setTables h _ rfl rfl
  · exact h

theorem lawful_referenceWritten (h : Lawful s) (c : Fin 96) : Lawful (referenceWritten s c) := by
  unfold referenceWritten
  dsimp only
  split <;> simp [h]

theorem lawful_writeReference (h : Lawful s) (a : TableArgs) (es : List RefEntry) : Lawful (writeReference a es s).state :=
  lawful_checked h _ _ fun _ => lawful_foldl _ (fun _ c ht => lawful_referenceWritten ht c) _ (lawful_setTables h _ rfl rfl)

theorem lawful_writeLive (h : Lawful s) (id : Nat) (a : TableArgs) (entries : Nat) : Lawful (writeLive id a entries s).state := by
  unfold writeLive
  split <;> exact h

theorem lawful_takeRead (h : Lawful s) (id : Nat) (a : TableArgs) : Lawful (takeRead id a s).state := by
  unfold takeRead
  split
  · exact lawful_checked h _ _ fun _ => h
  · exact h

/-! ## Configuration, restart and START (R77, R177, R179) -/

theorem footing_clearIf (s : State) (b : Bool) (k : Kind) (n : Nat) : footing (if b = true then takeClear s k n else s) = footing s := by
  split
  · exact footing_takeClear ..
  · rfl

theorem footing_clearUnitFaults (s : State) (u : Fin 12) : footing (clearUnitFaults s u) = footing s := by
  simp only [clearUnitFaults, footing_clearIf]

theorem footing_clearCircuitFaults (s : State) (c : Fin 96) : footing (clearCircuitFaults s c) = footing s := by
  simp only [clearCircuitFaults, footing_clearIf]
  split
  · exact footing_takeClear ..
  · rfl

theorem footing_clearRedFault (s : State) (g : Fin 32) : footing (clearRedFault s g) = footing s := by
  unfold clearRedFault
  split
  · exact footing_takeClear ..
  · rfl

/-- Clearing every condition leaves the footing. -/
theorem footing_clearConditions (s : State) : footing (clearConditions s) = footing s := by
  unfold clearConditions
  rw [foldl_inv footing clearStuck fun _ _ => footing_clearIf .., foldl_inv footing clearLeakFault fun _ _ => footing_clearIf ..,
    foldl_inv footing clearRedFault footing_clearRedFault, foldl_inv footing clearCircuitFaults footing_clearCircuitFaults,
    foldl_inv footing clearUnitFaults footing_clearUnitFaults]

theorem footing_clearInputs (s : State) : footing (formInhibit (clearInputs s)) = footing s := rfl

theorem jm_of_footing (h : footing t = footing s) : t.jm = s.jm := congrArg Footing.jm h

/-- CONFIG_OPEN is taken in DARK, and leaves the mode with started no and reason CONFIG (R177). -/
theorem lawful_takeConfigOpen (h : Lawful s) (hm : s.jm.mode = .dark) : Lawful (takeConfigOpen s) := by
  have same : footing (formInhibit (clearInputs (clearConditions s))) = footing s :=
    (footing_clearInputs _).trans (footing_clearConditions s)
  unfold takeConfigOpen
  dsimp only
  generalize formInhibit (clearInputs (clearConditions s)) = u at same ⊢
  have mode : u.jm.mode = .dark := by rw [jm_of_footing same, hm]
  obtain ⟨dark, idle, none⟩ := (h.of_footing same).darkness mode
  exact .of_dark dark idle none (fun hc => by cases hc) fun _ => ⟨mode, rfl, .inr (.inr rfl)⟩

theorem lawful_configOpenReq (h : Lawful s) : Lawful (configOpenReq s).state :=
  lawful_checked h _ _ fun hn => lawful_takeConfigOpen h (by simpa using eq_false_of_firstRefusal hn (List.mem_singleton_self _))

theorem lawful_raiseMainsAgain (h : Lawful s) : Lawful (raiseMainsAgain s) := by
  unfold raiseMainsAgain
  dsimp only
  repeat' split
  all_goals exact Aside.lawful (by simp [Aside.refl]) h

/-- ENGINE_RESTART leads every group to DARK, with the mode DARK, the engine in IDLE and no departure (R93, R179). -/
theorem lawful_takeEngineRestart (h : Lawful s) : Lawful (takeEngineRestart s) := by
  have frame := handAll_frame (engineIdle (setMode s (restartMode (!s.inPulse)))) .dark
  have dark (g : Fin 32) : (handAll (engineIdle (setMode s (restartMode (!s.inPulse)))) .dark).groups[g].aspect = .dark := by
    obtain ⟨used, unused⟩ := handAll_groups (engineIdle (setMode s (restartMode (!s.inPulse)))) .dark g
    by_cases hl : live s g = true
    · exact (used hl).2.1
    · rw [unused (by simp only [Bool.not_eq_true] at hl; exact hl)]
      exact h.unusedDark g (by simpa only [Bool.not_eq_true] using hl)
  unfold takeEngineRestart
  dsimp only
  refine lawful_raiseMainsAgain ?_
  generalize handAll _ .dark = u at frame dark ⊢
  refine .of_dark (fun g => ?_) ?_ ?_ (fun hc => ?_) fun _ => ?_
  · rw [getElem_tab]
    exact dark g
  · rw [frame]; rfl
  · rw [frame]; rfl
  · rw [frame] at hc ⊢
    exact h.symmetric hc
  · rw [frame]; exact ⟨rfl, rfl, .inr (.inl rfl)⟩

/-- The structural checks find the matrix symmetric over the groups in use (R13). -/
theorem symmetric_of_structuralErrors (h : structuralErrors s = []) (i j : Fin 32) (hc : conflicts s i j = true) :
    conflicts s j i = true := by
  simp only [structuralErrors, List.append_eq_nil_iff] at h
  obtain ⟨⟨⟨⟨⟨-, found⟩, -⟩, -⟩, -⟩, -⟩ := h
  have none : (livePairs s).find? (asymmetric s) = none := by
    cases e : (livePairs s).find? (asymmetric s) with
    | none => rfl
    | some p => rw [e] at found; cases found
  obtain ⟨ne, hi, hj, hig⟩ := (conflicts_eq_true s).1 hc
  have sym := List.find?_eq_none.1 none (i, j) ((mem_livePairs s).2 ⟨hi, hj⟩)
  simp only [asymmetric, hig, bne_iff_ne, ne_eq, not_not] at sym
  exact (conflicts_eq_true s).2 ⟨ne.symm, hj, hi, sym.symm⟩

theorem lawful_dropGreen (h : Lawful s) (g : Fin 32) : Lawful (dropGreen s g) := by
  unfold dropGreen
  split
  · exact lawful_setGroup (h.of_footing (footing_takeClear ..)) g _ fun _ => rfl
  · exact h

end Sys2Proof.Machine

namespace Sys2Proof.Machine

open Sys2Proof

variable {s t : State}

/-! ## START (R77) -/

@[simp] theorem formResults_configOpen (always : Bool) : (formResults always s).port.configOpen = s.port.configOpen :=
  configOpen_eq_of_kept (kept_formResults s always)

theorem closed_formResults (h : Closed s) (always : Bool) : Closed (formResults always s) :=
  ⟨lawful_formResults h.lawful always, (formResults_configOpen always).trans h.closed⟩

theorem closed_dropGreen (h : Closed s) (g : Fin 32) : Closed (dropGreen s g) := by
  refine ⟨lawful_dropGreen h.lawful g, ?_⟩
  unfold dropGreen
  split
  · rw [setGroup_port, takeClear_frame]; exact h.closed
  · exact h.closed

/-- START is accepted in DARK with the matrix symmetric; it closes configuration and enters START_FLASH (R77). -/
theorem lawful_acceptStart (h : Lawful s) (hm : s.jm.mode = .dark)
    (symmetric : ∀ i j : Fin 32, conflicts s i j = true → conflicts s j i = true) : Lawful (acceptStart s) := by
  obtain ⟨dark, idle, none⟩ := h.darkness hm
  have begun (acting : GroupSet) (map : Option CircuitMap) :
      Closed { setPort s fun p => { p with configOpen := false } with acting := acting, map := map } :=
    ⟨.of_dark dark idle none (fun _ => symmetric) (fun hc => by cases hc), rfl⟩
  unfold acceptStart
  dsimp only
  refine (closed_enterMode (closed_formResults ?_ true) _ _).lawful
  have dropped : Closed ((idx 32).foldl dropGreen
      { setPort s fun p => { p with configOpen := false } with
        acting := liveSet s
        map := some (buildMap { setPort s fun p => { p with configOpen := false } with acting := liveSet s }) }) := by
    generalize idx 32 = l
    have := begun (liveSet s) (some (buildMap { setPort s fun p => { p with configOpen := false } with acting := liveSet s }))
    generalize ({ setPort s fun p => { p with configOpen := false } with
      acting := liveSet s
      map := some (buildMap { setPort s fun p => { p with configOpen := false } with acting := liveSet s }) } : State) = u at this ⊢
    induction l generalizing u with
    | nil => exact this
    | cons g l ih => exact ih _ (closed_dropGreen this g)
  generalize List.foldl dropGreen _ _ = u at dropped ⊢
  have started : Closed (setMode u fun j => { j with started := true }) := dropped.setMode _ rfl (.inl rfl)
  generalize setMode u _ = v at started ⊢
  exact started.of_footing rfl

theorem lawful_startReq (h : Lawful s) : Lawful (startReq s).state := by
  refine lawful_checked h _ _ fun hn => ?_
  have unfit := eq_false_of_firstRefusal hn (List.mem_cons_self ..)
  have mode : s.jm.mode = .dark := by
    simp only [startUnfit, Bool.not_eq_false', Bool.and_eq_true, decide_eq_true_eq] at unfit
    exact unfit.1
  have validated : Lawful (refreshInvalid (validateAll s)) := lawful_refreshInvalid (lawful_setTables h _ rfl rfl)
  have same : footing (refreshInvalid (validateAll s)) = footing s := (footing_refreshInvalid _).trans rfl
  unfold startValidated
  dsimp only
  generalize refreshInvalid (validateAll s) = u at validated same ⊢
  split
  case isFalse => exact validated
  case isTrue he =>
    have conflicts_eq : conflicts u = conflicts s :=
      conflicts_of_group (congrArg Footing.group same) (congrArg Footing.matrix same)
    refine lawful_acceptStart validated (by rw [jm_of_footing same, mode]) fun i j => ?_
    rw [conflicts_eq]
    exact symmetric_of_structuralErrors (List.isEmpty_iff.1 he) i j

/-! ## Plans, holds, faults and the clock -/

theorem lawful_planBecameValid (h : Lawful s) (p : Fin 8) : Lawful (planBecameValid s p) := by
  have refreshed := lawful_refreshInvalid h
  unfold planBecameValid
  dsimp only
  generalize refreshInvalid s = u at refreshed ⊢
  generalize hv : (if (u.eng.running.isSome && decide (u.eng.governing = p)) = true then dealGoverning u p else u) = v
  have dealt : Lawful v := by
    subst hv
    split
    · exact (aside_dealGoverning .refl _).lawful refreshed
    · exact refreshed
  split
  · exact lawful_noPlanExit dealt
  · exact dealt

theorem lawful_validateOne (h : Lawful s) (p : Fin 8) : Lawful (validateOne s p).state := by
  have loaded : Lawful (setPlan s p (validated s)) := lawful_setPlan h p _
  unfold validateOne
  dsimp only
  repeat' split
  · exact h
  · exact lawful_planBecameValid loaded p
  · exact loaded

theorem lawful_validatePlanReq (h : Lawful s) (p : Nat) : Lawful (validatePlanReq p s).state := by
  unfold validatePlanReq
  repeat' split
  · exact h
  · exact lawful_checked h _ _ fun _ => lawful_validateOne h _
  · exact h

theorem lawful_selectPlanReq (h : Lawful s) (p : Nat) : Lawful (selectPlanReq p s).state := by
  unfold selectPlanReq
  split
  · exact lawful_handPlan (lawful_sched h _) false
  · exact h

theorem lawful_releasePlanReq (h : Lawful s) : Lawful (releasePlanReq s).state := lawful_handPlan (lawful_sched h _) false

theorem lawful_programIdentityReq (h : Lawful s) (bytes : List Byte) : Lawful (programIdentityReq bytes s).state := by
  refine lawful_checked h _ _ fun _ => ?_
  split
  · dsimp only
    exact lawful_setPort h _ rfl
  · exact h

theorem lawful_setHold (h : Lawful s) (x : Option HoldMode) : Lawful (setHold s x) := (aside_setHold .refl x).lawful h

theorem lawful_holdReq (h : Lawful s) (mode : Nat) : Lawful (holdReq mode s).state := by
  unfold holdReq
  split
  · exact lawful_checked h _ _ fun _ => lawful_setHold h _
  · exact h

theorem lawful_requestStep (h : Lawful s) (r : StepReq) : Lawful (requestStep s r) := h.of_footing (footing_setEng _ _ rfl)

theorem lawful_stepTo (h : Lawful s) (r : StepReq) : Lawful (stepTo s r).state := by
  unfold stepTo
  split
  · split <;> exact lawful_checked h _ _ fun _ => lawful_requestStep h _
  · exact h

theorem lawful_stepRequest (h : Lawful s) (x : StepTarget) : Lawful (stepRequest x s).state := by
  unfold stepRequest
  repeat' split
  · exact lawful_stepTo h _
  · exact lawful_stepTo h _
  · exact h

theorem lawful_demandReq (h : Lawful s) (stages : List Nat) : Lawful (demandReq stages s).state :=
  lawful_checked h _ _ fun _ => h.of_footing rfl

theorem lawful_setDimReq (h : Lawful s) (code : Nat) : Lawful (setDimReq code s).state := by
  unfold setDimReq
  split
  · exact h.of_footing rfl
  · exact h

theorem lawful_trimReq (h : Lawful s) (x : Int) (source : Nat) : Lawful (trimReq x source s).state := by
  unfold trimReq
  split
  · dsimp only
    exact lawful_setClock h _
  · exact h

theorem lawful_takeSetTime (h : Lawful s) (weekday ms : Nat) : Lawful (takeSetTime s weekday ms) :=
  lawful_evaluate ((aside_reportStep .refl _).lawful (lawful_setClock h _))

theorem lawful_learnReq (h : Lawful s) (cs : CircuitList) (tap nMin nMax : Nat) : Lawful (learnReq cs tap nMin nMax s).state := by
  refine lawful_checked h _ _ fun _ => ?_
  split
  · exact lawful_foldl _ (fun _ c ht => lawful_setLearn ht c _) _ h
  · exact h

theorem lawful_learnCancelReq (h : Lawful s) (cs : CircuitList) : Lawful (learnCancelReq cs s).state :=
  lawful_checked h _ _ fun _ => lawful_foldl _ (fun u c ht => by unfold cancelLearning; split <;> simp [ht]) _ h

theorem lawful_ackSlot (h : Lawful s) (i : Fin 64) : Lawful (ackSlot s i) := (aside_ackSlot .refl i).lawful h

theorem lawful_ackAll (h : Lawful s) (l : List (Fin 64)) : Lawful (done (l.foldl ackSlot s)).state :=
  lawful_foldl _ (fun _ i ht => lawful_ackSlot ht i) l h

theorem lawful_ackOne (h : Lawful s) (k : Kind) (n : Nat) : Lawful (ackOne s k n) := by
  unfold ackOne
  split
  · exact lawful_ackSlot h _
  · exact h

theorem lawful_ackFaultReq (h : Lawful s) (a : AckArg) : Lawful (ackFaultReq a s).state := by
  unfold ackFaultReq
  repeat' split
  · exact h
  · exact lawful_ackAll h _
  · exact lawful_checked h _ _ fun _ => lawful_ackOne h _ _
  · exact h

theorem lawful_clearLatchReq (h : Lawful s) (c : Nat) : Lawful (clearLatchReq c s).state := by
  unfold clearLatchReq
  split
  · exact lawful_checked h _ _ fun _ =>
      (aside_releaseVerdict (aside_clear (aside_setCable .refl _ _) _ _) _).lawful h
  · exact h

theorem lawful_passReq (h : Lawful s) (tag : Byte) (unit : Nat) (kind : Byte) (payload : List Byte) :
    Lawful (passReq tag unit kind payload s).state := by
  unfold passReq
  repeat' split
  · exact h
  · refine lawful_checked h _ _ fun _ => ?_
    dsimp only [done]
    exact lawful_setBus h _
  · exact h

/-! ## Modes and direct drive (R34, R35, R80 to R86) -/

theorem closed_takeStop (h : Closed s) (m : Mode) (d : Dest) (orderly : Bool) : Closed (takeStop s m d orderly) := by
  unfold takeStop
  cases hm : s.jm.mode <;> dsimp only
  case plan | directDrive => split <;> simp [h, hm]
  all_goals simp [h]

theorem closed_of_startedCheck (h : Lawful s) (hs : (!s.jm.started) = false) : Closed s :=
  ⟨h, h.closed_of_started (by simpa using hs)⟩

theorem lawful_flashReq (h : Lawful s) (option : Nat) : Lawful (flashReq option s).state :=
  lawful_checked h _ _ fun hn =>
    (closed_takeStop (closed_of_startedCheck h (eq_false_of_firstRefusal hn (r := .badState) (by simp))) _ _ _).lawful

theorem lawful_darkReq (h : Lawful s) (option : Nat) : Lawful (darkReq option s).state :=
  lawful_checked h _ _ fun hn =>
    (closed_takeStop (closed_of_startedCheck h (eq_false_of_firstRefusal hn (r := .badState) (by simp))) _ _ _).lawful

theorem lawful_resumeReq (h : Lawful s) : Lawful (resumeReq s).state :=
  lawful_checked h _ _ fun hn => by
    have stopped : stoppedFor s .controller = true := by
      simpa using eq_false_of_firstRefusal hn (b := !stoppedFor s .controller) (r := .badState) (by simp)
    exact (closed_takeExit (h.closed_of_stoppedFor stopped (by decide) (by decide) (by decide)) _).lawful

theorem lawful_directEnterReq (h : Lawful s) : Lawful (directEnterReq s).state :=
  lawful_checked h _ _ fun hn => by
    have plan := eq_false_of_firstRefusal hn (List.mem_cons_self ..)
    simp only [Bool.or_eq_false_iff, decide_eq_false_iff_not, ne_eq, not_not] at plan
    exact (closed_enterMode (h.toClosed (by rw [plan.1]; decide)) _ _).lawful

@[simp] theorem eased_handEntries (h : Eased s t) (es : List (Fin 32 × Target)) : Eased s (handEntries t es) :=
  eased_foldl (fun (u : State) (e : Fin 32 × Target) => handTarget u e.1 e.2) (fun u e => eased_handTarget (.refl u) e.1 e.2) es h

theorem lawful_directTargetReq (h : Lawful s) (es : List (Nat × Nat)) : Lawful (directTargetReq es s).state :=
  lawful_checked h _ _ fun hn => by
    have mode : s.jm.mode = .directDrive := by
      simpa using eq_false_of_firstRefusal hn (b := decide (s.jm.mode ≠ .directDrive)) (r := .badState) (by simp)
    unfold takeTargets
    split
    · exact h
    · exact h.of_eased (eased_handEntries (.refl s) _) (by rw [mode]; decide)

theorem lawful_directExitReq (h : Lawful s) : Lawful (directExitReq s).state :=
  lawful_checked h _ _ fun hn => by
    have mode : s.jm.mode = .directDrive := by simpa using eq_false_of_firstRefusal hn (List.mem_cons_self ..)
    have lit : s.jm.mode ≠ .dark := by rw [mode]; decide
    show Lawful (if _ then _ else _)
    split
    · exact h
    · exact (closed_setDeparture (h.toClosed lit) _ _ lit).lawful

end Sys2Proof.Machine

namespace Sys2Proof.Machine

open Sys2Proof

variable {s t : State}

/-! ## Every command keeps the laws (R29, R30, R75) -/

/-- At power-on every group is DARK, with configuration open (R16, R20, R93). -/
theorem lawful_reset : Lawful State.reset :=
  .of_dark (fun g => by simp only [State.reset, Vector.getElem_replicate, Fin.getElem_fin]; rfl) rfl rfl (fun h => by cases h)
    fun _ => ⟨rfl, rfl, .inl rfl⟩

theorem lawful_por (s : State) : Lawful (por s) := by
  unfold por
  exact (aside_kick .refl).lawful (lawful_reset.of_footing rfl)

theorem lawful_atPulse (h : Lawful s) (due : Bool) {f : State → State} (hf : ∀ {u : State}, Lawful u → Lawful (f u)) :
    Lawful (atPulse due f s) := by
  have worked := lawful_finish (hf (lawful_inPulse h true))
  unfold atPulse
  split
  · exact lawful_inPulse worked _
  · exact lawful_finish h

theorem lawful_atWindow (h : Lawful s) {f : State → State} (hf : Lawful (f s)) : Lawful (atWindow f s) := by
  unfold atWindow
  split
  · exact lawful_finish hf
  · exact lawful_finish h

theorem lawful_atFrame (h : Lawful s) (stands : Bool) {f : State → State} (hf : Aside s (f s)) : Lawful (atFrame stands f s) := by
  unfold atFrame
  split
  · exact lawful_finish (hf.lawful h)
  · exact lawful_finish h

theorem lawful_takePatternStep (h : Lawful s) (r : RunName) : Lawful (takePatternStep s r) := by
  unfold takePatternStep
  repeat' split
  all_goals exact h.of_footing rfl

theorem lawful_takeMinimumEnd (h : Lawful s) : Lawful (takeMinimumEnd s) := by
  refine h.of_engine (fun hr => by unfold takeMinimumEnd; rw [hr]) ?_
  unfold takeMinimumEnd
  repeat' split
  all_goals simp [Eased.refl]

theorem lawful_endRunning (h : Lawful s) : Lawful (endRunning s) :=
  h.of_engine (fun hr => by unfold endRunning; rw [hr]) (by unfold endRunning; split <;> simp [Eased.refl])

theorem lawful_takeGapOut (h : Lawful s) : Lawful (takeGapOut s) := by
  unfold takeGapOut
  split
  · exact lawful_endRunning h
  · exact h

theorem lawful_takeMaxOut (h : Lawful s) : Lawful (takeMaxOut s) := by
  unfold takeMaxOut
  split
  · exact lawful_endRunning h
  · exact h

theorem lawful_takeForceOff (h : Lawful s) : Lawful (takeForceOff s) := by
  refine h.of_engine (fun hr => ?_) ?_
  · have read : readCounter s = s := by unfold readCounter; rw [hr]
    unfold takeForceOff
    dsimp only
    rw [read, hr]
  · have read := eased_readCounter (.refl s)
    unfold takeForceOff
    dsimp only
    repeat' split
    all_goals simp [read]

theorem lawful_fiuLost (h : Lawful s) (u : Fin 12) : Lawful (if lostByMiss s u = true then senseMissed s u else s) := by
  split
  · exact (aside_senseMissed .refl u).lawful h
  · exact h

theorem lawful_byteArrives (h : Lawful s) (b : Byte) : Lawful (byteArrives s b) := by
  unfold byteArrives
  split
  · exact lawful_setPort h _ rfl
  · exact h

theorem lawful_busyRequest (h : Lawful s) (kind tag : Byte) :
    Lawful (if s.port.inService.isSome = true then finish (answerBusy (received s) kind tag) else s) := by
  split
  · exact lawful_finish ((aside_answerBusy .refl kind tag).lawful (lawful_received h))
  · exact h

/-- What a command answers, where it answers a next state. -/
theorem forall_next {P : State → Prop} (h : P t) (u : State) (hu : (.next t : Host.Outcome State Fault Refusal) = .next u) : P u :=
  Host.Outcome.next.inj hu ▸ h

/-- A finish after work aside keeps the laws. -/
theorem Aside.finished (h : Aside s t) (hs : Lawful s) : Lawful (finish t) := lawful_finish (h.lawful hs)

/-- Every command keeps the laws, from the requests to the events. -/
theorem lawful_exec (h : Lawful s) (c : Instr) : ∀ t, exec c s = .next t → Lawful t := by
  cases c with
  | powerOnReset => exact forall_next (lawful_por s)
  | configOpen => exact forall_next (lawful_serve h _ _ _ fun _ hu => lawful_configOpenReq hu)
  | tableWriteFiu => exact forall_next (lawful_serve h _ _ _ fun _ hu => lawful_configTable hu _ _ _ _ _ _ _)
  | tableWriteGroup => exact forall_next (lawful_serve h _ _ _ fun _ hu => lawful_configTable hu _ _ _ _ _ _ _)
  | tableWriteCircuit => exact forall_next (lawful_serve h _ _ _ fun _ hu => lawful_configTable hu _ _ _ _ _ _ _)
  | tableWriteConflictMatrix => exact forall_next (lawful_serve h _ _ _ fun _ hu => lawful_configTable hu _ _ _ _ _ _ _)
  | tableWriteStage => exact forall_next (lawful_serve h _ _ _ fun _ hu => lawful_configTable hu _ _ _ _ _ _ _)
  | tableWriteInputMap => exact forall_next (lawful_serve h _ _ _ fun _ hu => lawful_configTable hu _ _ _ _ _ _ _)
  | tableWritePattern => exact forall_next (lawful_serve h _ _ _ fun _ hu => lawful_writePattern hu _ _)
  | tableWriteStartUpRecord => exact forall_next (lawful_serve h _ _ _ fun _ hu => lawful_writeStartUp hu _ _)
  | tableWritePlan => exact forall_next (lawful_serve h _ _ _ fun _ hu => lawful_writePlan hu _ _ _)
  | tableWriteSchedule => exact forall_next (lawful_serve h _ _ _ fun _ hu => lawful_writeSched hu _ _)
  | tableWriteReaction => exact forall_next (lawful_serve h _ _ _ fun _ hu => lawful_writeReaction hu _ _)
  | tableWriteProvingParameters => exact forall_next (lawful_serve h _ _ _ fun _ hu => lawful_writeProving hu _ _)
  | tableWriteCableParameters => exact forall_next (lawful_serve h _ _ _ fun _ hu => lawful_writeCable hu _ _)
  | tableWriteReference => exact forall_next (lawful_serve h _ _ _ fun _ hu => lawful_writeReference hu _ _)
  | tableWriteLive => exact forall_next (lawful_serve h _ _ _ fun _ hu => lawful_writeLive hu _ _ _)
  | tableRead => exact forall_next (lawful_serve h _ _ _ fun _ hu => lawful_takeRead hu _ _)
  | validatePlan => exact forall_next (lawful_serve h _ _ _ fun _ hu => lawful_validatePlanReq hu _)
  | start => exact forall_next (lawful_serve h _ _ _ fun _ hu => lawful_startReq hu)
  | programIdentity => exact forall_next (lawful_serve h _ _ _ fun _ hu => lawful_programIdentityReq hu _)
  | readIdentity => exact forall_next (lawful_serve h _ _ _ fun _ hu => hu)
  | selectPlan => exact forall_next (lawful_serve h _ _ _ fun _ hu => lawful_selectPlanReq hu _)
  | releasePlan => exact forall_next (lawful_serve h _ _ _ fun _ hu => lawful_releasePlanReq hu)
  | hold => exact forall_next (lawful_serve h _ _ _ fun _ hu => lawful_holdReq hu _)
  | releaseHold => exact forall_next (lawful_serve h _ _ _ fun _ hu => lawful_setHold hu none)
  | step => exact forall_next (lawful_serve h _ _ _ fun _ hu => lawful_stepRequest hu _)
  | demand => exact forall_next (lawful_serve h _ _ _ fun _ hu => lawful_demandReq hu _)
  | setDim => exact forall_next (lawful_serve h _ _ _ fun _ hu => lawful_setDimReq hu _)
  | releaseDim => exact forall_next (lawful_serve h _ _ _ fun _ hu => hu.of_footing rfl)
  | flash => exact forall_next (lawful_serve h _ _ _ fun _ hu => lawful_flashReq hu _)
  | dark => exact forall_next (lawful_serve h _ _ _ fun _ hu => lawful_darkReq hu _)
  | resume => exact forall_next (lawful_serve h _ _ _ fun _ hu => lawful_resumeReq hu)
  | directEnter => exact forall_next (lawful_serve h _ _ _ fun _ hu => lawful_directEnterReq hu)
  | directTarget => exact forall_next (lawful_serve h _ _ _ fun _ hu => lawful_directTargetReq hu _)
  | directExit => exact forall_next (lawful_serve h _ _ _ fun _ hu => lawful_directExitReq hu)
  | syncPatterns => exact forall_next (lawful_serve h _ _ _ fun _ hu => hu.of_footing rfl)
  | learn => exact forall_next (lawful_serve h _ _ _ fun _ hu => lawful_learnReq hu _ _ _ _)
  | learnCancel => exact forall_next (lawful_serve h _ _ _ fun _ hu => lawful_learnCancelReq hu _)
  | ackFault => exact forall_next (lawful_serve h _ _ _ fun _ hu => lawful_ackFaultReq hu _)
  | clearLatch => exact forall_next (lawful_serve h _ _ _ fun _ hu => lawful_clearLatchReq hu _)
  | readStatus => exact forall_next (lawful_serve h _ _ _ fun _ hu => hu)
  | forwardSet => exact forall_next (lawful_serve h _ _ _ fun _ hu => lawful_checked hu _ _ fun _ => hu.of_footing rfl)
  | pass => exact forall_next (lawful_serve h _ _ _ fun _ hu => lawful_passReq hu _ _ _ _)
  | setTime => exact forall_next (lawful_serve h _ _ _ fun _ hu => lawful_checked hu _ _ fun _ => lawful_takeSetTime hu _ _)
  | trim => exact forall_next (lawful_serve h _ _ _ fun _ hu => lawful_trimReq hu _ _)
  | engineRestart => exact forall_next (lawful_serve h _ _ _ fun _ hu => lawful_takeEngineRestart hu)
  | malformedRequest => exact forall_next (lawful_serve h _ _ _ fun _ hu => hu)
  | busyRequest => exact forall_next (lawful_busyRequest h _ _)
  | corruptFrame => exact forall_next (lawful_finish (lawful_setPort h _ rfl))
  | framePauseTimeout => exact forall_next (lawful_finish (lawful_setPort h _ rfl))
  | frameSent => exact forall_next ((aside_endFrame .refl).finished h)
  | mainsEdge => exact forall_next (lawful_finish (lawful_takeEdge h _))
  | mainsFrequencyRaise => exact forall_next ((aside_takeFreqRaise .refl).finished h)
  | mainsFrequencyClear => exact forall_next ((aside_takeFreqClear .refl).finished h)
  | mainsGapBegin => exact forall_next (lawful_finish (lawful_gapBegins h))
  | mainsInterruptionRaise => exact forall_next ((aside_takeInterruption .refl).finished h)
  | mainsInterruptionClear => exact forall_next ((aside_takeInterruptionClear .refl).finished h)
  | substituteWindowStart => exact forall_next (lawful_finish (lawful_substituteStart h))
  | senseReceived => exact forall_next (lawful_finish (lawful_senseArrives h _))
  | senseMiss => exact forall_next ((aside_senseMissed .refl _).finished h)
  | fiuLost => exact forall_next (lawful_finish (lawful_fiuLost h _))
  | rollCallRound => exact forall_next ((aside_goRound (aside_takeRollRound .refl)).finished h)
  | identReceived => exact forall_next ((aside_identArrives .refl _).finished h)
  | identTimeout => exact forall_next ((aside_identTimedOut .refl _).finished h)
  | passReplyReceived => exact forall_next ((aside_passArrives .refl _).finished h)
  | unexpectedGreenRaise => exact forall_next (lawful_atWindow h (lawful_takeGreenRaise h _))
  | unexpectedGreenClear => exact forall_next (lawful_atWindow h (lawful_takeGreenClear h _))
  | decisecondPulse => exact forall_next (lawful_finish (lawful_pulse h))
  | clearanceStart => exact forall_next (lawful_atPulse h _ fun hu => lawful_takeClearanceStart hu _)
  | amberEnd => exact forall_next (lawful_atPulse h _ fun hu => lawful_takeAmberEnd hu _)
  | clearanceEnd => exact forall_next (lawful_atPulse h _ fun hu => lawful_takeClearanceEnd hu _)
  | redAmberEnd => exact forall_next (lawful_atPulse h _ fun hu => lawful_takeRedAmberEnd hu _)
  | patternStep => exact forall_next (lawful_atPulse h _ fun hu => lawful_takePatternStep hu _)
  | startFlashEnd => exact forall_next (lawful_atPulse h _ lawful_takeStartFlashEnd)
  | startRedEnd => exact forall_next (lawful_finish (lawful_takeStartRedEnd h))
  | startProvingTimeout => exact forall_next (lawful_atPulse h _ lawful_takeProvingTimeout)
  | controllerSilent => exact forall_next (lawful_atPulse h _ lawful_takeSilent)
  | minimumGreenEnd => exact forall_next (lawful_atPulse h _ lawful_takeMinimumEnd)
  | gapOut => exact forall_next (lawful_atPulse h _ lawful_takeGapOut)
  | maxOut => exact forall_next (lawful_atPulse h _ lawful_takeMaxOut)
  | forceOff => exact forall_next (lawful_atPulse h _ lawful_takeForceOff)
  | minuteBoundary => exact forall_next (lawful_finish (lawful_evaluate (lawful_between h)))
  | midnightRollover => exact forall_next ((aside_takeMidnight .refl).finished h)
  | inputChange => exact forall_next (lawful_atFrame h _ (aside_takeInputChange .refl _))
  | detectorStuck => exact forall_next (lawful_atPulse h _ fun hu => (aside_takeStuck .refl _).lawful hu)
  | verdictConfirm => exact forall_next (lawful_atFrame h _ (aside_recomputeRed (aside_takeConfirm .refl _)))
  | learnConverge => exact forall_next (lawful_atFrame h _ (aside_takeConverge .refl _))
  | learnUnstable => exact forall_next (lawful_atFrame h _ (aside_takeUnstable .refl _))
  | cableFaultConfirm => exact forall_next (lawful_atFrame h _ (aside_recomputeRed (aside_takeCableFault .refl _)))
  | crossFeedRaise => exact forall_next (lawful_atFrame h _ (aside_takeCrossRaise .refl _))
  | crossFeedClear => exact forall_next (lawful_atFrame h _ (aside_takeCrossClear .refl _))
  | retryRelease => exact forall_next (lawful_atPulse h _ fun hu => (aside_takeRelease .refl _).lawful hu)
  | tripCountClear => exact forall_next (lawful_atPulse h _ fun hu => (aside_takeTripClear .refl _).lawful hu)
  | earthLeakageRaise => exact forall_next (lawful_atFrame h _ (aside_takeLeakRaise .refl _))
  | earthLeakageClear => exact forall_next (lawful_atFrame h _ (aside_takeLeakClear .refl _))
  | fiuOvertempRaise => exact forall_next (lawful_atFrame h _ (aside_takeHotRaise .refl _))
  | fiuOvertempClear => exact forall_next (lawful_atFrame h _ (aside_takeHotClear .refl _))
  | frameBegins => exact forall_next (lawful_finish (lawful_byteArrives h _))
  | crystalMillisecond => exact forall_next (lawful_finish (lawful_takeCrystalMs h))

/-- Settles O57: a step runs the command at the front of the queue, and every command keeps the laws. -/
theorem lawfulKept : Obligations.LawfulKept := by
  intro s t h hstep
  unfold step at hstep
  split at hstep
  case h_1 c rest _ => exact lawful_exec (h.of_footing rfl : Lawful { s with pending := rest }) c t hstep
  case h_2 => exact forall_next h t hstep

/-! ## The reset state (R16, R159, R167) -/

/-- The fault table is empty at power-on (R168). -/
theorem reset_slots (i : Fin 64) : State.reset.coll.slots[i] = none := by
  simp only [State.reset, collPor, Vector.getElem_replicate, Fin.getElem_fin]

theorem oneRecordEach_reset : OneRecordEach State.reset := fun i _ a _ ha => by rw [reset_slots] at ha; cases ha

theorem withinCapacity_reset : WithinCapacity State.reset := by
  refine ⟨fun u => ?_, by decide, by decide, fun c => ?_⟩
  · simp [State.reset, busPor, unitPor]
  · simp [State.reset, provingUnitPor, learnPor]

theorem fresh_reset : Fresh State.reset := ⟨by decide +kernel, by decide +kernel⟩

theorem obeyed_reset : Obeyed State.reset where
  handed := by decide +kernel
  dark := fun _ => rfl
  flash := fun _ => .inr rfl
  startRed := by decide

/-- Settles O56: the reset state is one of DARK groups, with an empty fault table and empty queues. -/
theorem resetLawful : Obligations.ResetLawful :=
  ⟨lawful_reset, oneRecordEach_reset, withinCapacity_reset, fresh_reset, obeyed_reset⟩

end Sys2Proof.Machine

namespace Sys2Proof.Machine

open Sys2Proof

variable {s t : State} {g : Fin 32}

/-! ## Timed ends (R21, R27, R28) -/

theorem clearanceStartDue_iff : clearanceStartDue s g = true ↔ live s g = true ∧ s.groups[g].aspect = .green ∧
    s.groups[g].target = .stop ∧ s.tables.group[g].safetyMin ≤ s.groups[g].inAspect := by
  simp only [clearanceStartDue, Bool.and_eq_true, decide_eq_true_eq, and_assoc]

theorem amberEndDue_iff : amberEndDue s g = true ↔ live s g = true ∧ s.groups[g].aspect = .amber ∧
    s.tables.group[g].amber ≤ s.groups[g].inAspect := by
  simp only [amberEndDue, Bool.and_eq_true, decide_eq_true_eq, and_assoc]

theorem clearanceEndDue_iff : clearanceEndDue s g = true ↔ live s g = true ∧ s.groups[g].aspect = .greenFlash ∧
    s.tables.group[g].clearance ≤ s.groups[g].inAspect := by
  simp only [clearanceEndDue, Bool.and_eq_true, decide_eq_true_eq, and_assoc]

theorem redAmberEndDue_iff : redAmberEndDue s g = true ↔ live s g = true ∧ s.groups[g].aspect = .redAmber ∧
    s.tables.group[g].redAmber ≤ s.groups[g].inAspect := by
  simp only [redAmberEndDue, Bool.and_eq_true, decide_eq_true_eq, and_assoc]

/-- The record of a group that enters another aspect as work of a pulse (R21). -/
def entered (r : GroupRec) (a : Aspect) : GroupRec :=
  { r with
    aspect := a, inAspect := 0, inAspectFresh := false
    sinceGreen := if r.aspect = .green ∨ a = .green then 0 else r.sinceGreen
    sinceGreenFresh := if r.aspect = .green ∨ a = .green then false else r.sinceGreenFresh }

/-- A change of aspect as work of a pulse marks nothing fresh; the clearance run starts with GREEN_FLASH and ends with it (R21, R92). -/
theorem setAspect_of_pulse {a : Aspect} (ha : s.groups[g].aspect ≠ a) :
    setAspect { s with inPulse := true } g a = { s with
      groups := put s.groups g (entered s.groups[g] a)
      clearRuns :=
        if a = .greenFlash then
          put s.clearRuns g (some { pattern := s.tables.group[g].pattern, step := 0, time := 0, fresh := false })
        else if s.groups[g].aspect = .greenFlash then put s.clearRuns g none
        else s.clearRuns
      inPulse := true } := by
  unfold setAspect
  rw [if_neg ha]
  by_cases hg : s.groups[g].aspect = .green
  · simp only [entered, hg, true_or, if_true, Bool.not_true, newRun]
  · by_cases hgo : a = .green
    · simp only [entered, hgo, or_true, if_true, if_neg hg, Bool.not_true, newRun]
    · simp only [entered, hg, hgo, or_self, if_false, Bool.not_true, newRun]

/-- A moment of a pulse taken while it is due and the pulse stands. -/
theorem next_atPulse_due {due : Bool} {f : State → State} {u : State} (hp : pulseStands s = true) (hd : due = true)
    (hf : f { s with inPulse := true } = u) :
    (.next (atPulse due f s) : Host.Outcome State Fault Refusal) = .next { finish u with inPulse := s.inPulse } := by
  rw [atPulse_due s f hp hd, hf]

/-- A moment of a pulse that changes nothing while it is not due or no pulse stands. -/
theorem next_atPulse_idle {due : Bool} {f : State → State} (h : pulseStands s = false ∨ due = false) :
    (.next (atPulse due f s) : Host.Outcome State Fault Refusal) = .next (finish s) := by
  rw [atPulse_idle s f h]

theorem bump_eq (cap n : Nat) : bump cap n = if n < cap then n + 1 else cap := by
  unfold bump; split <;> omega

/-- What a pulse does to a group's timers (R21). -/
theorem advanceGroup_timers (r : GroupRec) :
    (r.inAspectFresh = false → (advanceGroup r).inAspect = if r.inAspect < 65535 then r.inAspect + 1 else 65535) ∧
    (r.inAspectFresh = true → (advanceGroup r).inAspect = r.inAspect) ∧ (advanceGroup r).inAspectFresh = false ∧
    (advanceGroup r).sinceGreenFresh = false ∧
    (r.aspect = .green → (advanceGroup r).sinceGreen = 0) ∧
    (r.aspect ≠ .green → r.sinceGreenFresh = false →
      (advanceGroup r).sinceGreen = if r.sinceGreen < 65535 then r.sinceGreen + 1 else 65535) ∧
    (r.aspect ≠ .green → r.sinceGreenFresh = true → (advanceGroup r).sinceGreen = r.sinceGreen) ∧
    (advanceGroup r).aspect = r.aspect ∧ (advanceGroup r).target = r.target ∧
    (advanceGroup r).inhibited = r.inhibited ∧ marksOf (advanceGroup r) = marksOf r := by
  unfold advanceGroup
  refine ⟨fun hf => ?_, fun hf => ?_, rfl, rfl, fun ha => ?_, fun ha hf => ?_, fun ha hf => ?_, rfl, rfl, rfl, rfl⟩
  · simp only [hf, bump_eq, Bool.false_eq_true, if_false]
  · simp only [hf, if_true]
  · simp only [ha, if_true]
  · simp only [ha, hf, bump_eq, Bool.false_eq_true, if_false]
  · simp only [ha, hf, if_true, if_false]

/-- A pulse on a held GREEN that is due (R27). -/
theorem takeClearanceStart_of_pulse (hd : clearanceStartDue s g = true) :
    takeClearanceStart { s with inPulse := true } g = { s with
      groups := put s.groups g { s.groups[g] with
        aspect := clearanceAspect s g, inAspect := 0, inAspectFresh := false, sinceGreen := 0, sinceGreenFresh := false }
      clearRuns := if groupType s g = .vehicle then s.clearRuns
        else put s.clearRuns g (some { pattern := s.tables.group[g].pattern, step := 0, time := 0, fresh := false })
      inPulse := true } := by
  have green := (clearanceStartDue_iff.1 hd).2.1
  have ne : s.groups[g].aspect ≠ clearanceAspect s g := by
    rw [green]; unfold clearanceAspect; split <;> decide
  refine (if_pos hd).trans ((setAspect_of_pulse ne).trans ?_)
  by_cases hv : groupType s g = .vehicle
  · simp only [entered, clearanceAspect, green, hv, true_or, if_true, if_false, reduceCtorEq]
  · simp only [entered, clearanceAspect, green, hv, true_or, if_true, if_false]

/-- The end of a clearance or of an AMBER that is due leads to RED (R27). -/
theorem setAspect_red_of_pulse (hr : s.groups[g].aspect ≠ .red) (hg : s.groups[g].aspect ≠ .green) :
    setAspect { s with inPulse := true } g .red = { s with
      groups := put s.groups g { s.groups[g] with aspect := .red, inAspect := 0, inAspectFresh := false }
      clearRuns := if s.groups[g].aspect = .greenFlash then put s.clearRuns g none else s.clearRuns
      inPulse := true } := by
  rw [setAspect_of_pulse hr]
  simp only [entered, hg, reduceCtorEq, or_self, if_false]

theorem takeAmberEnd_of_pulse (hd : amberEndDue s g = true) :
    takeAmberEnd { s with inPulse := true } g = { s with
      groups := put s.groups g { s.groups[g] with aspect := .red, inAspect := 0, inAspectFresh := false }
      inPulse := true } := by
  have amber := (amberEndDue_iff.1 hd).2.1
  refine (if_pos hd).trans ((setAspect_red_of_pulse (by rw [amber]; decide) (by rw [amber]; decide)).trans ?_)
  simp only [amber, reduceCtorEq, if_false]

theorem takeClearanceEnd_of_pulse (hd : clearanceEndDue s g = true) :
    takeClearanceEnd { s with inPulse := true } g = { s with
      groups := put s.groups g { s.groups[g] with aspect := .red, inAspect := 0, inAspectFresh := false }
      clearRuns := put s.clearRuns g none
      inPulse := true } := by
  have flash := (clearanceEndDue_iff.1 hd).2.1
  refine (if_pos hd).trans ((setAspect_red_of_pulse (by rw [flash]; decide) (by rw [flash]; decide)).trans ?_)
  simp only [flash, if_true]

theorem takeRedAmberEnd_of_pulse (hd : redAmberEndDue s g = true) :
    takeRedAmberEnd { s with inPulse := true } g = { s with
      groups := put s.groups g
        (if s.groups[g].inhibited = true then
          { s.groups[g] with aspect := .red, inAspect := 0, inAspectFresh := false }
        else { s.groups[g] with
          aspect := .green, inAspect := 0, inAspectFresh := false, sinceGreen := 0, sinceGreenFresh := false })
      inPulse := true } := by
  have redAmber := (redAmberEndDue_iff.1 hd).2.1
  refine (if_pos hd).trans ?_
  dsimp only
  by_cases hi : s.groups[g].inhibited = true
  · rw [if_pos hi, if_pos hi]
    rw [setAspect_red_of_pulse (by rw [redAmber]; decide) (by rw [redAmber]; decide)]
    simp only [redAmber, reduceCtorEq, if_false]
  · rw [if_neg hi, if_neg hi]
    rw [setAspect_of_pulse (by rw [redAmber]; decide)]
    simp only [entered, redAmber, reduceCtorEq, or_true, if_true, if_false]

/-- Settles O40: each end is one change of aspect as work of the pulse that stands. -/
theorem timedEnds : Obligations.TimedEnds := by
  refine ⟨fun s g => ⟨fun hl hp => ⟨fun ha ht hm => ?green, fun ha hm => ?amber, fun ha hm => ?flash, fun ha hm => ?redAmber⟩,
    fun h => ?noStart, fun h => ?noAmber, fun h => ?noFlash, fun h => ?noRedAmber⟩, advanceGroup_timers⟩
  case green =>
    have hd := clearanceStartDue_iff.2 ⟨hl, ha, ht, hm⟩
    refine ⟨_, next_atPulse_due hp hd (takeClearanceStart_of_pulse hd), ?_, ?_, rfl⟩
    · rw [getElem_put_self]
    · rw [getElem_put_self]; rfl
  case amber =>
    have hd := amberEndDue_iff.2 ⟨hl, ha, hm⟩
    exact next_atPulse_due hp hd (takeAmberEnd_of_pulse hd)
  case flash =>
    have hd := clearanceEndDue_iff.2 ⟨hl, ha, hm⟩
    exact next_atPulse_due hp hd (takeClearanceEnd_of_pulse hd)
  case redAmber =>
    have hd := redAmberEndDue_iff.2 ⟨hl, ha, hm⟩
    exact next_atPulse_due hp hd (takeRedAmberEnd_of_pulse hd)
  case noStart =>
    refine next_atPulse_idle (h.imp_right fun h => ?_)
    rw [← Bool.not_eq_true, clearanceStartDue_iff]
    grind
  case noAmber =>
    refine next_atPulse_idle (h.imp_right fun h => ?_)
    rw [← Bool.not_eq_true, amberEndDue_iff]
    grind
  case noFlash =>
    refine next_atPulse_idle (h.imp_right fun h => ?_)
    rw [← Bool.not_eq_true, clearanceEndDue_iff]
    grind
  case noRedAmber =>
    refine next_atPulse_idle (h.imp_right fun h => ?_)
    rw [← Bool.not_eq_true, redAmberEndDue_iff]
    grind

end Sys2Proof.Machine

namespace Sys2Proof.Machine

open Sys2Proof

variable {s t : State} {g : Fin 32}

/-! ## A target handed, written out (R23 to R26) -/

/-- The aspect a target leads a group to (R24 to R26). -/
def targetAspect (s : State) (g : Fin 32) (x : Target) : Aspect :=
  match x with
  | .go | .stop => if s.groups[g].aspect = .dark ∨ s.groups[g].aspect = .flashAmber then .red else s.groups[g].aspect
  | .flash => if groupType s g = .vehicle then .flashAmber else .dark
  | .dark => .dark

/-- No target leads a group to GREEN or GREEN_FLASH that is not there. -/
theorem targetAspect_changed (x : Target) (h : targetAspect s g x ≠ s.groups[g].aspect) :
    targetAspect s g x ≠ .green ∧ targetAspect s g x ≠ .greenFlash := by
  revert h
  cases x with
  | go | stop => simp only [targetAspect]; split <;> simp
  | flash => simp only [targetAspect]; split <;> simp
  | dark => simp [targetAspect]

/-- A group in use that enters the aspect it has keeps its timers. -/
theorem setAspect_same {a : Aspect} (h : s.groups[g].aspect = a) : setAspect s g a = s := by
  unfold setAspect
  rw [if_pos h]

/-- A target handed to a group in use is its target, and leads it to an aspect. -/
theorem handTarget_eq (x : Target) (hl : live s g = true) :
    handTarget s g x = setAspect (setGroup s g fun r => { r with target := x }) g (targetAspect s g x) := by
  have aspect : (setGroup s g fun r => { r with target := x }).groups[g].aspect = s.groups[g].aspect := by
    rw [setGroup_groups, getElem_upd_self]
  unfold handTarget targetAspect flashAspect
  rw [if_pos hl]
  cases x <;> dsimp only
  case go | stop =>
    split
    · rename_i ha; rw [if_pos (.inr ha)]
    · rename_i ha; rw [if_pos (.inl ha)]
    all_goals rename_i ha; rw [if_neg (by rw [ha]; decide), setAspect_same aspect]

theorem put_upd {α : Type} {n : Nat} (v : Vector α n) (i : Fin n) (f : α → α) (x : α) : put (upd v i f) i x = put v i x := by
  ext j hj
  simp only [put, upd, Vector.getElem_set]
  split <;> rfl

/-- In the aspect already, the target alone changes. -/
theorem handTarget_same (x : Target) (hl : live s g = true) (ha : targetAspect s g x = s.groups[g].aspect) :
    handTarget s g x = { s with groups := put s.groups g { s.groups[g] with target := x } } := by
  rw [handTarget_eq x hl, setAspect_same (by rw [setGroup_groups, getElem_upd_self, ha])]
  rfl

/-- A change of aspect for a target restarts the time in aspect, and at the end of a GREEN the time since it. -/
theorem handTarget_changed (x : Target) (hl : live s g = true) (ha : targetAspect s g x ≠ s.groups[g].aspect) :
    handTarget s g x = { s with
      groups := put s.groups g { s.groups[g] with
        target := x, aspect := targetAspect s g x, inAspect := 0, inAspectFresh := !s.inPulse
        sinceGreen := if s.groups[g].aspect = .green then 0 else s.groups[g].sinceGreen
        sinceGreenFresh := if s.groups[g].aspect = .green then !s.inPulse else s.groups[g].sinceGreenFresh }
      clearRuns := if s.groups[g].aspect = .greenFlash then put s.clearRuns g none else s.clearRuns } := by
  obtain ⟨green, flash⟩ := targetAspect_changed x ha
  rw [handTarget_eq x hl]
  unfold setAspect
  simp only [setGroup_groups, getElem_upd_self, Ne.symm ha, green, flash, if_false, or_false, put_upd]
  rfl

/-! ## The conflict check (R34) -/

theorem ofCode_eq_go {code : Nat} : Target.ofCode code = some .go ↔ code = 0 := by
  unfold Target.ofCode; split <;> simp_all

/-- An entry that DIRECT_TARGET accepts: a target for a group in use. -/
structure Names (s : State) (e : Nat × Nat) (g : Fin 32) (x : Target) : Prop where
  group : e.1 = num g
  target : Target.ofCode e.2 = some x
  used : live s g = true

theorem exists_names {e : Nat × Nat} (hb : badTarget s e = false) : ∃ g x, Names s e g x := by
  simp only [badTarget, Bool.or_eq_false_iff, Option.isNone_eq_false_iff, Option.isSome_iff_exists] at hb
  obtain ⟨⟨x, hx⟩, hg⟩ := hb
  cases e1 : ofNum 32 e.1 with
  | none => rw [e1] at hg; cases hg
  | some g =>
    rw [e1] at hg
    exact ⟨g, x, ofNum_eq_some.1 e1, hx, by simpa using hg⟩

theorem targetEntries_cons {e : Nat × Nat} {es : List (Nat × Nat)} {x : Target} (h : Names s e g x) :
    targetEntries (e :: es) = (g, x) :: targetEntries es := by
  simp only [targetEntries, List.filterMap_cons, ofNum_eq_some.2 h.group, h.target]

theorem targetEntries_append (a b : List (Nat × Nat)) : targetEntries (a ++ b) = targetEntries a ++ targetEntries b :=
  List.filterMap_append ..

theorem pendingAfter_append (s : State) (b : List (Nat × Nat)) (e : Nat × Nat) (i : Fin 32) :
    pendingAfter s (b ++ [e]) i = if e.1 = num i then decide (e.2 = 0) else pendingAfter s b i := by
  unfold pendingAfter
  by_cases h : e.1 = num i
  · simp [List.filter_append, h]
  · simp [List.filter_append, h]

/-- The set of the check holds the groups with GO pending after the entries judged. -/
def Carries (s : State) (pend : GroupSet) (b : List (Nat × Nat)) : Prop := ∀ i : Fin 32, mem pend i = pendingAfter s b i

theorem carries_nil (s : State) : Carries s (pendingSet s) [] := by
  intro i
  rw [pendingSet, mem_gather (fun g : Fin 32 => goPending s.groups[g]) (le_refl 32) (idx 32)]
  simp [pendingAfter, goPending, mem, idx, Bool.or_assoc]

theorem Carries.ins {pend : GroupSet} {b : List (Nat × Nat)} {e : Nat × Nat} (h : Carries s pend b) (hn : Names s e g .go) :
    Carries s (ins pend g) (b ++ [e]) := by
  intro i
  rw [mem_ins pend g.val i.val g.isLt, h i, pendingAfter_append, hn.group, ofCode_eq_go.1 hn.target]
  by_cases hi : g = i
  · simp [hi]
  · simp [num, Fin.val_inj, hi]

theorem Carries.del {pend : GroupSet} {b : List (Nat × Nat)} {e : Nat × Nat} {x : Target} (h : Carries s pend b) (hn : Names s e g x)
    (hx : x ≠ .go) : Carries s (del pend g) (b ++ [e]) := by
  intro i
  have code : e.2 ≠ 0 := fun h0 => hx (Option.some.inj (hn.target.symm.trans (ofCode_eq_go.2 h0)))
  rw [mem_del pend g.val i.val, h i, pendingAfter_append, hn.group]
  by_cases hi : g = i
  · simp [hi, code]
  · simp [num, Fin.val_inj, hi]

/-- What the check finds at a GO after the entries judged. -/
theorem refused_iff {pend : GroupSet} {b : List (Nat × Nat)} (h : Carries s pend b) (g : Fin 32) :
    ((idx 32).any fun i => conflicts s i g && (going s.groups[i] || mem pend i)) = true ↔ GoRefused s b g := by
  simp only [List.any_eq_true, Bool.and_eq_true, Bool.or_eq_true, going_iff, h _, or_assoc]
  exact exists_congr fun i => ⟨fun hi => hi.2, fun hi => ⟨List.mem_finRange i, hi⟩⟩

/-- With no GO in conflict the check refuses none. -/
theorem directConflict_none {es b : List (Nat × Nat)} {pend : GroupSet} (hc : Carries s pend b) (hv : ∀ e ∈ es, badTarget s e = false)
    (free : ∀ (g : Fin 32) (before after : List (Nat × Nat)), es = before ++ (num g, 0) :: after → ¬ GoRefused s (b ++ before) g) :
    directConflict s pend (targetEntries es) = none := by
  induction es generalizing b pend with
  | nil => rfl
  | cons e es ih =>
    obtain ⟨g, x, hn⟩ := exists_names (hv e (List.mem_cons_self ..))
    have later (pend' : GroupSet) (hc' : Carries s pend' (b ++ [e])) : directConflict s pend' (targetEntries es) = none :=
      ih hc' (fun e' he => hv e' (List.mem_cons_of_mem _ he)) fun g' before after he => by
        have := free g' (e :: before) after (by rw [he]; rfl)
        simpa using this
    rw [targetEntries_cons hn]
    cases x
    case go =>
      have clear := free g [] es (by rw [← hn.group, ← ofCode_eq_go.1 hn.target]; rfl)
      rw [List.append_nil, ← refused_iff hc] at clear
      simp only [directConflict, if_neg clear]
      exact later _ (hc.ins hn)
    all_goals exact later _ (hc.del hn (by decide))

/-- The first GO in conflict is the one the check refuses. -/
theorem directConflict_some {es before b : List (Nat × Nat)} {pend : GroupSet} (hc : Carries s pend b)
    (hv : ∀ e ∈ before ++ (num g, 0) :: es, badTarget s e = false) (refused : GoRefused s (b ++ before) g)
    (free : ∀ (h : Fin 32) (b' c : List (Nat × Nat)), before = b' ++ (num h, 0) :: c → ¬ GoRefused s (b ++ b') h) :
    directConflict s pend (targetEntries (before ++ (num g, 0) :: es)) = some g := by
  induction before generalizing b pend with
  | nil =>
    obtain ⟨g', x, hn⟩ := exists_names (hv (num g, 0) (List.mem_cons_self ..))
    obtain rfl : g = g' := by simpa [num, Fin.val_inj] using hn.group
    obtain rfl : Target.go = x := Option.some.inj hn.target
    rw [List.append_nil, ← refused_iff hc] at refused
    rw [List.nil_append, targetEntries_cons hn]
    simp only [directConflict, if_pos refused]
  | cons e before ih =>
    obtain ⟨h, x, hn⟩ := exists_names (hv e (List.mem_cons_self ..))
    have later (pend' : GroupSet) (hc' : Carries s pend' (b ++ [e])) :
        directConflict s pend' (targetEntries (before ++ (num g, 0) :: es)) = some g :=
      ih hc' (fun e' he => hv e' (List.mem_cons_of_mem _ he)) (by simpa using refused) fun h' b' c he => by
        have := free h' (e :: b') c (by rw [he]; rfl)
        simpa using this
    rw [List.cons_append, targetEntries_cons hn]
    cases x
    case go =>
      have clear := free h [] before (by rw [← hn.group, ← ofCode_eq_go.1 hn.target]; rfl)
      rw [List.append_nil, ← refused_iff hc] at clear
      simp only [directConflict, if_neg clear]
      exact later _ (hc.ins hn)
    all_goals exact later _ (hc.del hn (by decide))

/-! ## The entries handed (R35) -/

theorem handEntries_append (s : State) (a b : List (Fin 32 × Target)) : handEntries s (a ++ b) = handEntries (handEntries s a) b :=
  List.foldl_append ..

/-- Handing entries touches the group records and the clearance runs alone. -/
theorem handEntries_frame (s : State) (es : List (Fin 32 × Target)) :
    handEntries s es = { s with groups := (handEntries s es).groups, clearRuns := (handEntries s es).clearRuns } := by
  induction es generalizing s with
  | nil => rfl
  | cons e es ih =>
    rw [show handEntries s (e :: es) = handEntries (handTarget s e.1 e.2) es from rfl, ih, handTarget_frame]

/-- A group that no entry names keeps its record and its clearance run. -/
theorem handEntries_unnamed {es : List (Fin 32 × Target)} (h : ∀ e ∈ es, e.1 ≠ g) :
    (handEntries s es).groups[g] = s.groups[g] ∧ (handEntries s es).clearRuns[g] = s.clearRuns[g] := by
  induction es generalizing s with
  | nil => exact ⟨rfl, rfl⟩
  | cons e es ih =>
    obtain ⟨hg, hr⟩ := ih (s := handTarget s e.1 e.2) fun e' he => h e' (List.mem_cons_of_mem _ he)
    obtain ⟨hg', hr'⟩ := handTarget_of_ne s e.1 g e.2 (h e (List.mem_cons_self ..))
    exact ⟨hg.trans hg', hr.trans hr'⟩

theorem targetEntries_unnamed {es : List (Nat × Nat)} (h : ∀ e ∈ es, e.1 ≠ num g) : ∀ e ∈ targetEntries es, e.1 ≠ g := by
  rintro e he rfl
  obtain ⟨e', he', hs⟩ := List.mem_filterMap.1 he
  split at hs
  · rename_i _ g' _ hg _
    obtain rfl := Option.some.inj hs
    exact h e' he' (ofNum_eq_some.1 hg)
  · cases hs

/-- The entries handed one after another, by any function that hands an entry's target. -/
theorem handEntries_eq_foldl {es : List (Nat × Nat)} (hv : ∀ e ∈ es, ∃ g x, Names t e g x) (hand : State → Nat × Nat → State)
    (hh : ∀ (x : State) (g : Fin 32) (code : Nat) (y : Target), Target.ofCode code = some y → hand x (num g, code) = handTarget x g y) :
    handEntries s (targetEntries es) = es.foldl hand s := by
  induction es generalizing s with
  | nil => rfl
  | cons e es ih =>
    obtain ⟨g, x, hn⟩ := hv e (List.mem_cons_self ..)
    obtain ⟨n, code⟩ := e
    obtain rfl : n = num g := hn.group
    rw [targetEntries_cons hn, List.foldl_cons, hh _ _ _ _ hn.target, ← ih fun e he => hv e (List.mem_cons_of_mem _ he)]
    rfl

/-- A group holds the last target the list names for it. -/
theorem handEntries_last {before after : List (Nat × Nat)} {code : Nat} {x : Target} (hn : Names s (num g, code) g x)
    (ha : ∀ e ∈ after, e.1 ≠ num g) :
    (handEntries s (targetEntries (before ++ (num g, code) :: after))).groups[g].target = x := by
  rw [targetEntries_append, handEntries_append, targetEntries_cons hn]
  have used : live (handEntries s (targetEntries before)) g = true := by
    have tables : (handEntries s (targetEntries before)).tables = s.tables := by rw [handEntries_frame]
    rw [live_congr tables, hn.used]
  change (handEntries (handTarget _ g x) (targetEntries after)).groups[g].target = x
  rw [(handEntries_unnamed (targetEntries_unnamed ha)).1]
  exact (handTarget_self _ g x used).1

/-! ## DIRECT_TARGET (R34, R35) -/

/-- A request of DIRECT_TARGET that a check refuses, at the state in which it is taken. -/
theorem exec_directTarget {tag : Byte} {es : List (Nat × Nat)} {u : State} {r : Result} {d : ReplyData} (hs : s.port.inService = none)
    (hb : directTargetReq es (taken 0x14 tag s) = ⟨u, r, d⟩) :
    exec (.directTarget tag es) s = .next (answered 0x14 tag u r d) := by
  change Host.Outcome.next (serve 0x14 tag (directTargetReq es) s) = _
  rw [serve_of hs hb]

theorem within_eq_true {lo hi n : Nat} : within lo hi n = true ↔ lo ≤ n ∧ n ≤ hi := by
  simp only [within, Bool.and_eq_true, decide_eq_true_eq]

/-- Settles O21: the conflict check carries the set of groups with GO pending from entry to entry, and the entries are handed in list order. -/
theorem targetsHanded : Obligations.TargetsHanded := by
  refine ⟨fun s tag es hs => ⟨fun hlen => ?malformed, fun h1 h2 hm => ?badState, fun h1 h2 hm => ⟨fun hi => ?badIndex,
    fun hi hbad => ?badValue, fun hi hgood => ?judged⟩⟩, fun s g x r a hr ha => ?handed⟩
  case handed =>
    subst hr
    obtain rfl : a = targetAspect s g x := ha.trans (by cases x <;> rfl)
    exact ⟨handTarget_unused s g x, handTarget_same x, handTarget_changed x⟩
  case malformed =>
    have : within 1 32 es.length = false := by rw [← Bool.not_eq_true, within_eq_true]; exact hlen
    exact exec_directTarget hs (checked_refuse (by simp only [this]; rfl))
  all_goals have len : within 1 32 es.length = true := within_eq_true.2 ⟨h1, h2⟩
  case badState =>
    have mode : decide ((taken 0x14 tag s).jm.mode ≠ .directDrive) = true := by simpa using hm
    exact exec_directTarget hs (checked_refuse (by simp only [len, mode]; rfl))
  all_goals have mode : decide ((taken 0x14 tag s).jm.mode ≠ .directDrive) = false := by simpa using hm
  case badIndex =>
    have index : (es.any fun e => !within 1 32 e.1) = true := by
      obtain ⟨e, he, h⟩ := hi
      refine List.any_eq_true.2 ⟨e, he, ?_⟩
      rw [Bool.not_eq_true', ← Bool.not_eq_true, within_eq_true]
      omega
    exact exec_directTarget hs (checked_refuse (by simp only [len, mode, index]; rfl))
  all_goals
    have index : (es.any fun e => !within 1 32 e.1) = false :=
      List.any_eq_false.2 fun e he => by simp [within_eq_true.2 (hi e he)]
  case badValue =>
    obtain ⟨e, he, h⟩ := hbad
    have bad : es.any (badTarget s) = true := List.any_eq_true.2 ⟨e, he, h⟩
    exact exec_directTarget hs (checked_refuse (by simp only [len, mode, index, taken_badTarget, bad]; rfl))
  case judged =>
    have good : es.any (badTarget s) = false := List.any_eq_false.2 fun e he => by simp [hgood e he]
    have valid : ∀ e ∈ es, badTarget (taken 0x14 tag s) e = false := by rw [taken_badTarget]; exact hgood
    have pass : directTargetReq es (taken 0x14 tag s) = takeTargets (taken 0x14 tag s) (targetEntries es) :=
      checked_pass (by simp only [len, mode, index, taken_badTarget, good]; rfl)
    refine ⟨fun g before after he refused free => ?_, fun free => ?_⟩
    · subst he
      have found := directConflict_some (carries_nil _) valid refused free
      exact exec_directTarget hs (pass.trans (by simp only [takeTargets, found]))
    · have none := directConflict_none (carries_nil _) valid free
      refine ⟨handEntries (taken 0x14 tag s) (targetEntries es), exec_directTarget hs (pass.trans (by simp only [takeTargets, none, done])),
        handEntries_frame _ _, fun hand hh => handEntries_eq_foldl (fun e he => exists_names (valid e he)) hand hh,
        fun g x before after code he hx ha => ?_, fun g hg => handEntries_unnamed (targetEntries_unnamed hg)⟩
      subst he
      obtain ⟨g', x', hn⟩ := exists_names (valid (num g, code) (by simp))
      obtain rfl : g = g' := by simpa [num, Fin.val_inj] using hn.group
      obtain rfl : x = x' := Option.some.inj (hx.symm.trans hn.target)
      exact handEntries_last hn ha

end Sys2Proof.Machine

namespace Sys2Proof.Machine

open Sys2Proof

variable {s t : State}

/-! ## Folds over the groups -/

/-- A fold in which each step works on one index, by what it finds there and in what it leaves alone: each index of the list is found as it was at
the start. -/
theorem foldl_local {σ α β γ : Type} [DecidableEq α] (f : σ → α → σ) (v : σ → α → β) (c : σ → γ)
    (away : ∀ (s : σ) (a b : α), a ≠ b → v (f s a) b = v s b) (fixed : ∀ (s : σ) (a : α), c (f s a) = c s)
    (here : ∀ (s t : σ) (a : α), c s = c t → v s a = v t a → v (f s a) a = v (f t a) a) (l : List α) (hn : l.Nodup) (s : σ) (a : α) :
    v (l.foldl f s) a = if a ∈ l then v (f s a) a else v s a := by
  induction l generalizing s with
  | nil => simp
  | cons b l ih =>
    obtain ⟨hb, hl⟩ := List.nodup_cons.1 hn
    rw [List.foldl_cons, ih hl (f s b)]
    by_cases e : b = a
    · subst e
      rw [if_neg hb, if_pos (List.mem_cons_self ..)]
    · have mem_iff : a ∈ b :: l ↔ a ∈ l := by simp [Ne.symm e]
      rw [here (f s b) s a (fixed s b) (away s b a e), away s b a e]
      simp only [mem_iff]

/-- What a target does to a group is read from its record, its clearance run, the tables and the pulse. -/
theorem handTarget_local {g : Fin 32} (x : Target) (ht : s.tables = t.tables) (hp : s.inPulse = t.inPulse) (hg : s.groups[g] = t.groups[g])
    (hr : s.clearRuns[g] = t.clearRuns[g]) : (handTarget s g x).groups[g] = (handTarget t g x).groups[g] ∧
      (handTarget s g x).clearRuns[g] = (handTarget t g x).clearRuns[g] := by
  have used : live s g = live t g := by rw [live_congr ht]
  by_cases hl : live t g = true
  · have aspect : targetAspect s g x = targetAspect t g x := by
      unfold targetAspect; rw [hg, groupType_congr ht]
    by_cases ha : targetAspect t g x = t.groups[g].aspect
    · rw [handTarget_same x (used.trans hl) (by rw [aspect, ha, hg]), handTarget_same x hl ha]
      simp only [getElem_put_self, hg, hr, and_self]
    · rw [handTarget_changed x (used.trans hl) (by rw [aspect, hg]; exact ha), handTarget_changed x hl ha]
      by_cases hf : t.groups[g].aspect = .greenFlash
      · simp only [getElem_put_self, aspect, hg, hp, hf, if_true, and_self]
      · simp only [getElem_put_self, aspect, hg, hp, hf, if_false, hr, and_self]
  · rw [Bool.not_eq_true] at hl
    rw [handTarget_unused s g x (used.trans hl), handTarget_unused t g x hl]
    exact ⟨hg, hr⟩

/-! ## Releases (R29, R30) -/

/-- The conditions of R29 for the release of a group. -/
def Due (s : State) (j : Fin 32) : Prop :=
  live s j = true ∧ s.groups[j].target = .go ∧ s.groups[j].aspect = .red ∧
    s.tables.group[j].minRed ≤ s.groups[j].inAspect ∧ s.groups[j].inhibited = false ∧
    ∀ i : Fin 32, conflicts s i j = true →
      s.groups[i].aspect ≠ .green ∧ s.groups[i].aspect ≠ .redAmber ∧
      ∀ n : Nat, ig s i j = some n →
        n ≤ s.groups[i].sinceGreen + if groupType s j = .vehicle then s.tables.group[j].redAmber else 0

theorem clearOf_iff {i j : Fin 32} : clearOf s i j = true ↔ (conflicts s i j = true →
    s.groups[i].aspect ≠ .green ∧ s.groups[i].aspect ≠ .redAmber ∧
      ∀ n : Nat, ig s i j = some n → n ≤ s.groups[i].sinceGreen + redAmberTime s j) := by
  have stands : (going s.groups[i] = false) ↔ s.groups[i].aspect ≠ .green ∧ s.groups[i].aspect ≠ .redAmber := by
    rw [← Bool.not_eq_true, going_iff, not_or]
  unfold clearOf
  rw [← and_assoc, ← stands]
  cases conflicts s i j
  · simp
  · cases going s.groups[i]
    · cases ig s i j <;> simp
    · simp

theorem releasable_iff {j : Fin 32} : releasable s j = true ↔ Due s j := by
  simp only [releasable, Due, Bool.and_eq_true, decide_eq_true_eq, Bool.not_eq_true', List.all_eq_true, clearOf_iff, List.mem_finRange,
    true_imp_iff, and_assoc, redAmberTime]

/-- A release leads to RED_AMBER, or to GREEN where no red-amber time counts, and leaves the other groups. -/
theorem judgeRelease_due {j : Fin 32} (h : Due s j) :
    (judgeRelease s j).groups[j].aspect =
      (if groupType s j = .vehicle ∧ s.tables.group[j].redAmber ≠ 0 then .redAmber else .green) ∧
    (judgeRelease s j).groups[j].inAspect = 0 ∧
    ∀ i : Fin 32, i ≠ j → (judgeRelease s j).groups[i] = s.groups[i] := by
  have red := h.2.2.1
  unfold judgeRelease
  rw [if_pos (releasable_iff.2 h)]
  have lead : (if redAmberTime s j = 0 then Aspect.green else Aspect.redAmber) =
      if groupType s j = .vehicle ∧ s.tables.group[j].redAmber ≠ 0 then .redAmber else .green := by
    unfold redAmberTime
    by_cases hv : groupType s j = .vehicle
    · simp [hv]
    · simp [hv]
  rw [lead, setAspect_aspect]
  refine ⟨rfl, ?_, fun i hi => setAspect_of_ne _ _ _ _ (Ne.symm hi)⟩
  unfold setAspect
  rw [if_neg (by rw [red]; split <;> decide)]
  simp only [getElem_put_self]

theorem judgeRelease_idle {j : Fin 32} (h : ¬ Due s j) : judgeRelease s j = s := by
  unfold judgeRelease
  rw [if_neg (fun hr => h (releasable_iff.1 hr))]

/-! ## The interstage begun (R56) -/

/-- A target handed leaves every inhibit mark. -/
theorem handTarget_inhibited (s : State) (g j : Fin 32) (x : Target) : (handTarget s g x).groups[j].inhibited = s.groups[j].inhibited := by
  by_cases e : g = j
  · subst e
    by_cases hl : live s g = true
    · exact (handTarget_self s g x hl).2.2
    · rw [handTarget_unused s g x (by simpa only [Bool.not_eq_true] using hl)]
  · rw [(handTarget_of_ne s g j x e).1]

/-- The group is one that the interstage adds to the served set (R56). -/
def gains (was : GroupSet) (now : List (Fin 32)) (s : State) (g : Fin 32) : Bool :=
  !mem was g && now.contains g && !s.groups[g].inhibited

/-- The group is one that the interstage leaves out of the served set (R56). -/
def loses (was : GroupSet) (now : List (Fin 32)) (g : Fin 32) : Bool := mem was g && !now.contains g

/-- What the interstage does with one group to its sets of gaining and of losing groups. -/
theorem changeGroup_sets (was : GroupSet) (now : List (Fin 32)) (s : State) (g j : Fin 32) :
    mem (changeGroup was now s g).eng.gaining j = (mem s.eng.gaining j || (decide (g = j) && gains was now s g)) ∧
    mem (changeGroup was now s g).eng.losing j = (mem s.eng.losing j || (decide (g = j) && loses was now g)) ∧
    (changeGroup was now s g).groups[j].inhibited = s.groups[j].inhibited := by
  rcases changeGroup_cases s was now g with ⟨hw, hn, e⟩ | ⟨hw, hn, hi, e⟩ | ⟨hl, hg, e⟩ <;> rw [e]
  · refine ⟨?_, ?_, handTarget_inhibited s g j .stop⟩
    · rw [setEng_eng, handTarget_frame]
      simp [gains, hw]
    · rw [setEng_eng, mem_ins _ _ _ g.isLt, handTarget_frame]
      simp only [loses, hw, hn, Fin.val_inj]
      simp
  · refine ⟨?_, ?_, handTarget_inhibited s g j .go⟩
    · rw [setEng_eng, mem_ins _ _ _ g.isLt, handTarget_frame]
      simp only [gains, hw, hn, hi, Fin.val_inj]
      simp
    · rw [setEng_eng, handTarget_frame]
      simp [loses, hw]
  · have no_gain : gains was now s g = false := by
      by_contra hc
      simp only [gains, Bool.not_eq_false, Bool.and_eq_true, Bool.not_eq_true'] at hc
      exact hg ⟨hc.1.1, hc.1.2, hc.2⟩
    have no_loss : loses was now g = false := by
      by_contra hc
      simp only [loses, Bool.not_eq_false, Bool.and_eq_true, Bool.not_eq_true'] at hc
      exact hl hc
    simp [no_gain, no_loss]

theorem changeGroups_sets (was : GroupSet) (now : List (Fin 32)) (l : List (Fin 32)) (s : State) (j : Fin 32) :
    mem (l.foldl (changeGroup was now) s).eng.gaining j = (mem s.eng.gaining j || (decide (j ∈ l) && gains was now s j)) ∧
    mem (l.foldl (changeGroup was now) s).eng.losing j = (mem s.eng.losing j || (decide (j ∈ l) && loses was now j)) := by
  induction l generalizing s with
  | nil => simp
  | cons g l ih =>
    obtain ⟨hg, hl, hi⟩ := changeGroup_sets was now s g j
    obtain ⟨ihg, ihl⟩ := ih (changeGroup was now s g)
    have same : gains was now (changeGroup was now s g) j = gains was now s j := by unfold gains; rw [hi]
    rw [List.foldl_cons, ihg, ihl, hg, hl, same]
    by_cases e : g = j
    · subst e
      cases gains was now s g <;> cases loses was now g <;> simp
    · have : ¬ j = g := fun h => e h.symm
      simp [e, this]

/-- Work that touches the group records, the clearance runs and the engine's sets of groups alone. -/
theorem changeGroup_frame (was : GroupSet) (now : List (Fin 32)) (s : State) (g : Fin 32) (u : State) (h : u = changeGroup was now s g) :
    u = { s with
      groups := u.groups, clearRuns := u.clearRuns
      eng := { s.eng with served := u.eng.served, gaining := u.eng.gaining, losing := u.eng.losing } } := by
  subst h
  rcases changeGroup_cases s was now g with ⟨_, _, e⟩ | ⟨_, _, _, e⟩ | ⟨_, _, e⟩ <;> rw [e]
  · rw [handTarget_frame]; rfl
  · rw [handTarget_frame]; rfl

theorem changeGroups_frame (was : GroupSet) (now : List (Fin 32)) (l : List (Fin 32)) (s u : State) (h : u = l.foldl (changeGroup was now) s) :
    u = { s with
      groups := u.groups, clearRuns := u.clearRuns
      eng := { s.eng with served := u.eng.served, gaining := u.eng.gaining, losing := u.eng.losing } } := by
  induction l generalizing s with
  | nil => subst h; rfl
  | cons g l ih =>
    have first := changeGroup_frame was now s g _ rfl
    have rest := ih (changeGroup was now s g) h
    rw [first] at rest
    exact rest

/-- The beginning of an interstage leaves the rest of the engine and of the state (R56). -/
theorem beginInterstage_frame (s u : State) (p : Fin 8) (b : Fin 16) (h : u = beginInterstage s p b) :
    u = { s with
      groups := u.groups, clearRuns := u.clearRuns
      eng := { s.eng with
        sub := .interstage, cur := b, gained := false, stageOn := false
        served := u.eng.served, gaining := u.eng.gaining, losing := u.eng.losing } } :=
  changeGroups_frame _ _ _ (setEng s _) u h

/-- The groups an interstage adds are gaining, those it leaves out are losing (R56). -/
theorem beginInterstage_sets (s : State) (p : Fin 8) (b : Fin 16) (g : Fin 32) (hl : live s g = true) :
    (mem (beginInterstage s p b).eng.gaining g = true ↔ mem s.eng.served g = false ∧
      mem (greenSet s (stepOf s p b).stage) g = true ∧ s.groups[g].inhibited = false) ∧
    (mem (beginInterstage s p b).eng.losing g = true ↔ mem s.eng.served g = true ∧
      mem (greenSet s (stepOf s p b).stage) g = false) := by
  have now : (stageGroups s (stepOf s p b).stage).contains g = mem (greenSet s (stepOf s p b).stage) g := by
    rw [Bool.eq_iff_iff, List.contains_iff_mem]
    simp [stageGroups, hl]
  unfold beginInterstage
  obtain ⟨hg, hlo⟩ := changeGroups_sets s.eng.served (stageGroups s (stepOf s p b).stage) (idx 32)
    (setEng s fun e => { e with sub := .interstage, cur := b, gaining := 0, losing := 0, gained := false, stageOn := false }) g
  dsimp only
  rw [hg, hlo]
  simp only [gains, loses, now, setEng_eng, setEng_groups, mem_zero, Bool.false_or, idx, List.mem_finRange, decide_true, Bool.true_and,
    Bool.and_eq_true, Bool.not_eq_true', and_assoc]
  exact ⟨trivial, trivial⟩

/-! ## The interstage's progress (R57, R58) -/

/-- The gaining group has joined the inhibit set before entering GREEN, and is given up (R57). -/
def Dropped (s : State) (g : Fin 32) : Prop :=
  mem s.eng.gaining g = true ∧ s.groups[g].aspect ≠ .green ∧ s.groups[g].inhibited = true

theorem gainGroup_green {g : Fin 32} (h : mem s.eng.gaining g = true) (ha : s.groups[g].aspect = .green) :
    gainGroup s g = setEng s fun e => { e with gaining := del e.gaining g, gained := true } := by
  unfold gainGroup
  rw [if_pos h, if_pos ha]

theorem gainGroup_dropped {g : Fin 32} (h : Dropped s g) :
    gainGroup s g = setEng (handTarget s g .stop) fun e => { e with gaining := del e.gaining g, served := del e.served g } := by
  obtain ⟨hm, ha, hi⟩ := h
  unfold gainGroup
  rw [if_pos hm, if_neg ha, if_pos hi]

theorem gainGroup_kept {g : Fin 32} (hg : ¬ (mem s.eng.gaining g = true ∧ s.groups[g].aspect = .green)) (hd : ¬ Dropped s g) :
    gainGroup s g = s := by
  unfold gainGroup
  split
  case isTrue hm =>
    rw [if_neg fun ha => hg ⟨hm, ha⟩]
    split
    case isTrue hi => exact absurd ⟨hm, fun ha => hg ⟨hm, ha⟩, hi⟩ hd
    case isFalse => rfl
  case isFalse => rfl

/-- What the interstage's progress is read from in one group. -/
def gainView (s : State) (g : Fin 32) : GroupRec × Option Run × Bool × Bool :=
  (s.groups[g], s.clearRuns[g], mem s.eng.served g, mem s.eng.gaining g)

theorem gainGroup_cases (s : State) (g : Fin 32) : (mem s.eng.gaining g = true ∧ s.groups[g].aspect = .green) ∨ Dropped s g ∨
    ¬ (mem s.eng.gaining g = true ∧ s.groups[g].aspect = .green) ∧ ¬ Dropped s g := by
  by_cases h1 : mem s.eng.gaining g = true ∧ s.groups[g].aspect = .green
  · exact .inl h1
  · by_cases h2 : Dropped s g
    · exact .inr (.inl h2)
    · exact .inr (.inr ⟨h1, h2⟩)

/-- What the progress does in the group itself. -/
theorem gainView_here (s : State) (g : Fin 32) :
    ((mem s.eng.gaining g = true ∧ s.groups[g].aspect = .green) →
      gainView (gainGroup s g) g = (s.groups[g], s.clearRuns[g], mem s.eng.served g, false)) ∧
    (Dropped s g → gainView (gainGroup s g) g = ((handTarget s g .stop).groups[g], (handTarget s g .stop).clearRuns[g], false, false)) ∧
    (¬ (mem s.eng.gaining g = true ∧ s.groups[g].aspect = .green) → ¬ Dropped s g → gainView (gainGroup s g) g = gainView s g) := by
  refine ⟨fun ⟨hm, ha⟩ => ?_, fun hd => ?_, fun hg hd => by rw [gainGroup_kept hg hd]⟩
  · rw [gainGroup_green hm ha]
    simp [gainView, mem_del]
  · rw [gainGroup_dropped hd]
    simp [gainView, mem_del]

theorem gainView_away (s : State) (g j : Fin 32) (h : g ≠ j) : gainView (gainGroup s g) j = gainView s j := by
  have ne : g.val ≠ j.val := fun e => h (Fin.ext e)
  rcases gainGroup_cases s g with ⟨hm, ha⟩ | hd | ⟨hg, hd⟩
  · rw [gainGroup_green hm ha]
    simp [gainView, mem_del, ne]
  · obtain ⟨groups, runs⟩ := handTarget_of_ne s g j .stop h
    rw [gainGroup_dropped hd]
    simp only [gainView, setEng_groups, setEng_clearRuns, setEng_eng, mem_del, groups, runs, ne, ne_eq, not_false_eq_true, decide_true,
      Bool.and_true, Prod.mk.injEq, true_and]
    rw [handTarget_frame]
    exact ⟨rfl, rfl⟩
  · rw [gainGroup_kept hg hd]

theorem gainGroup_frame (s u : State) (g : Fin 32) (h : u = gainGroup s g) :
    u = { s with
      groups := u.groups, clearRuns := u.clearRuns
      eng := { s.eng with gaining := u.eng.gaining, served := u.eng.served, gained := u.eng.gained } } := by
  subst h
  rcases gainGroup_cases s g with ⟨hm, ha⟩ | hd | ⟨hg, hd⟩
  · rw [gainGroup_green hm ha]; rfl
  · rw [gainGroup_dropped hd, handTarget_frame]; rfl
  · rw [gainGroup_kept hg hd]

theorem gainGroups_frame (l : List (Fin 32)) (s u : State) (h : u = l.foldl gainGroup s) :
    u = { s with
      groups := u.groups, clearRuns := u.clearRuns
      eng := { s.eng with gaining := u.eng.gaining, served := u.eng.served, gained := u.eng.gained } } := by
  induction l generalizing s with
  | nil => subst h; rfl
  | cons g l ih =>
    have first := gainGroup_frame s _ g rfl
    have rest := ih (gainGroup s g) h
    rw [first] at rest
    exact rest

theorem gainView_congr (s t : State) (g : Fin 32) (hc : (s.tables, s.inPulse) = (t.tables, t.inPulse)) (hv : gainView s g = gainView t g) :
    gainView (gainGroup s g) g = gainView (gainGroup t g) g := by
  obtain ⟨tables, pulse⟩ := Prod.mk.inj hc
  have view := hv
  simp only [gainView, Prod.mk.injEq] at view
  obtain ⟨groups, runs, served, gaining⟩ := view
  obtain ⟨sg, sd, sk⟩ := gainView_here s g
  obtain ⟨tg, td, tk⟩ := gainView_here t g
  have green_iff : (mem s.eng.gaining g = true ∧ s.groups[g].aspect = .green) ↔ (mem t.eng.gaining g = true ∧ t.groups[g].aspect = .green) := by
    rw [groups, gaining]
  have dropped_iff : Dropped s g ↔ Dropped t g := by unfold Dropped; rw [groups, gaining]
  rcases gainGroup_cases s g with h | h | ⟨h1, h2⟩
  · rw [sg h, tg (green_iff.1 h), groups, runs, served]
  · obtain ⟨hg, hr⟩ := handTarget_local .stop tables pulse groups runs
    rw [sd h, td (dropped_iff.1 h), hg, hr]
  · rw [sk h1 h2, tk (fun h => h1 (green_iff.2 h)) (fun h => h2 (dropped_iff.2 h)), hv]

/-- What the progress of an interstage leaves of each group. -/
theorem gainView_progress (s : State) (g : Fin 32) : gainView ((idx 32).foldl gainGroup s) g = gainView (gainGroup s g) g := by
  have fixed (s : State) (g : Fin 32) : ((gainGroup s g).tables, (gainGroup s g).inPulse) = (s.tables, s.inPulse) := by
    rw [gainGroup_frame s _ g rfl]
  rw [foldl_local gainGroup gainView (fun s => (s.tables, s.inPulse)) gainView_away fixed gainView_congr (idx 32) (List.nodup_finRange 32),
    if_pos (List.mem_finRange g)]

/-- A group gains where a gaining one is GREEN (R57). -/
theorem gained_progress (l : List (Fin 32)) (hn : l.Nodup) (s : State) : (l.foldl gainGroup s).eng.gained = true ↔
    s.eng.gained = true ∨ ∃ g ∈ l, mem s.eng.gaining g = true ∧ s.groups[g].aspect = .green := by
  induction l generalizing s with
  | nil => simp
  | cons g l ih =>
    obtain ⟨hg, hl⟩ := List.nodup_cons.1 hn
    have one : (gainGroup s g).eng.gained = true ↔ s.eng.gained = true ∨ mem s.eng.gaining g = true ∧ s.groups[g].aspect = .green := by
      rcases gainGroup_cases s g with ⟨hm, ha⟩ | hd | ⟨hgr, hd⟩
      · rw [gainGroup_green hm ha]
        exact ⟨fun _ => .inr ⟨hm, ha⟩, fun _ => rfl⟩
      · have same : (gainGroup s g).eng.gained = s.eng.gained := by rw [gainGroup_dropped hd, handTarget_frame]; rfl
        rw [same]
        exact ⟨.inl, fun h => h.resolve_right fun h => hd.2.1 h.2⟩
      · rw [gainGroup_kept hgr hd]
        exact ⟨.inl, fun h => h.resolve_right hgr⟩
    have later (j : Fin 32) (hj : j ∈ l) : (mem (gainGroup s g).eng.gaining j = true ∧ (gainGroup s g).groups[j].aspect = .green) ↔
        (mem s.eng.gaining j = true ∧ s.groups[j].aspect = .green) := by
      have view := gainView_away s g j (fun e => hg (e ▸ hj))
      simp only [gainView, Prod.mk.injEq] at view
      rw [view.1, view.2.2.2]
    rw [List.foldl_cons, ih hl, one, List.exists_mem_cons_iff, or_assoc]
    refine or_congr_right (or_congr_right (exists_congr fun j => and_congr_right fun hj => later j hj))

/-- What the progress of an interstage does to the groups and to the gaining and served sets (R57). -/
theorem progress_group (s : State) (g : Fin 32) (v : State) (hv : v = (idx 32).foldl gainGroup s) :
    (mem v.eng.gaining g = true ↔ mem s.eng.gaining g = true ∧ s.groups[g].aspect ≠ .green ∧ s.groups[g].inhibited = false) ∧
    (mem v.eng.served g = true ↔ mem s.eng.served g = true ∧ ¬ Dropped s g) ∧
    (Dropped s g → v.groups[g] = (handTarget s g .stop).groups[g] ∧ v.clearRuns[g] = (handTarget s g .stop).clearRuns[g]) ∧
    (¬ Dropped s g → v.groups[g] = s.groups[g] ∧ v.clearRuns[g] = s.clearRuns[g]) := by
  have view := gainView_progress s g
  rw [← hv] at view
  obtain ⟨green, dropped, kept⟩ := gainView_here s g
  rcases gainGroup_cases s g with h | h | ⟨h1, h2⟩
  · have no_drop : ¬ Dropped s g := fun hd => hd.2.1 h.2
    rw [green h] at view
    simp only [gainView, Prod.mk.injEq] at view
    obtain ⟨groups, runs, served, gaining⟩ := view
    refine ⟨?_, ?_, fun hd => absurd hd no_drop, fun _ => ⟨groups, runs⟩⟩
    · rw [gaining]; simp only [Bool.false_eq_true, false_iff]; exact fun hn => hn.2.1 h.2
    · rw [served]; exact ⟨fun hs => ⟨hs, no_drop⟩, fun hs => hs.1⟩
  · rw [dropped h] at view
    simp only [gainView, Prod.mk.injEq] at view
    obtain ⟨groups, runs, served, gaining⟩ := view
    refine ⟨?_, ?_, fun _ => ⟨groups, runs⟩, fun hn => absurd h hn⟩
    · rw [gaining]; simp only [Bool.false_eq_true, false_iff]; exact fun hn => by rw [h.2.2] at hn; exact absurd hn.2.2 (by decide)
    · rw [served]; simp only [Bool.false_eq_true, false_iff]; exact fun hs => hs.2 h
  · rw [kept h1 h2] at view
    simp only [gainView, Prod.mk.injEq] at view
    obtain ⟨groups, runs, served, gaining⟩ := view
    refine ⟨?_, ?_, fun hd => absurd hd h2, fun _ => ⟨groups, runs⟩⟩
    · rw [gaining]
      refine ⟨fun hm => ⟨hm, fun ha => h1 ⟨hm, ha⟩, ?_⟩, fun hm => hm.1⟩
      by_contra hi
      exact h2 ⟨hm, fun ha => h1 ⟨hm, ha⟩, by simpa only [Bool.not_eq_false] using hi⟩
    · rw [served]; exact ⟨fun hs => ⟨hs, h2⟩, fun hs => hs.1⟩

/-- With nothing running or no interstage there is no progress (R57). -/
theorem interstageProgress_idle (h : s.eng.running = none ∨ s.eng.sub ≠ .interstage) : interstageProgress s = s := by
  unfold interstageProgress
  split
  case h_1 p hp =>
    have hn : s.eng.sub ≠ .interstage := h.resolve_left fun hr => by rw [hr] at hp; cases hp
    rw [if_neg hn]
  case h_2 => rfl

/-- The progress of an interstage that runs (R57, R58). -/
theorem interstageProgress_eq {p : Fin 8} {v : State} (hr : s.eng.running = some p) (hi : s.eng.sub = .interstage)
    (hv : v = (idx 32).foldl gainGroup s) : interstageProgress s =
      if startDue v then (if v.eng.served = 0 ∧ !isHoldStep v p v.eng.cur then abandonStep v p else stageStart v p) else v := by
  subst hv
  unfold interstageProgress
  rw [hr]
  dsimp only
  rw [if_pos hi]

theorem startDue_iff {v : State} : startDue v = true ↔ v.eng.gaining = 0 ∧
    (v.eng.gained = true ∨ ∀ g : Fin 32, mem v.eng.losing g = true → v.groups[g].aspect = .red) := by
  simp only [startDue, losersRed, Bool.and_eq_true, decide_eq_true_eq, Bool.or_eq_true, List.all_eq_true, List.mem_finRange,
    true_imp_iff, Bool.not_eq_true', ← Bool.not_eq_true, ← imp_iff_not_or]

/-! ## The stage started or given up (R58, R59) -/

/-- The latched demand that the start of a stage leaves (R59). -/
theorem latched_stageStart (p : Fin 8) (x : StageSet)
    (h : ∀ k : Fin 16, mem x k = true ↔ mem s.latched k = true ∧ (stepOf s p s.eng.cur).stage ≠ num k) :
    x = match stageIx s p s.eng.cur with
      | some k => del s.latched k
      | none => s.latched := by
  refine BitVec.eq_of_getLsbD_eq fun i hi => ?_
  have at_i := h ⟨i, hi⟩
  change mem x i = mem _ i
  rw [Bool.eq_iff_iff, at_i]
  cases hk : stageIx s p s.eng.cur with
  | none =>
    have ne : (stepOf s p s.eng.cur).stage ≠ num (⟨i, hi⟩ : Fin 16) := fun e => by
      rw [stageIx, ofNum_eq_some.2 e] at hk; cases hk
    exact ⟨fun hm => hm.1, fun hm => ⟨hm, ne⟩⟩
  | some k =>
    rw [ofNum_eq_some.1 hk]
    dsimp only
    rw [mem_del]
    simp only [Bool.and_eq_true, decide_eq_true_eq, num, ne_eq, Nat.add_right_cancel_iff]

/-- The engine's record at the start of a stage (R59, R65, R68). -/
theorem stageStart_eq (s w : State) (p : Fin 8) (hw : w = { s with latched := w.latched })
    (h : ∀ k : Fin 16, mem w.latched k = true ↔ mem s.latched k = true ∧ (stepOf s p s.eng.cur).stage ≠ num k) :
    stageStart s p = { w with eng := { s.eng with
      minElapsed := 0
      ext := (stepOf s p s.eng.cur).unitExt
      maxElapsed := if s.tables.plan[p].cycle = 0 ∧ anotherWanted w p = true then some 0 else none
      sub := .min
      stageOn := true
      passed := if isHoldStep s p s.eng.cur = true ∧ (s.eng.dwell = true ∨ s.eng.resync = true) then 0 else s.eng.passed
      resync := s.eng.resync && !isHoldStep s p s.eng.cur
      dwell := s.eng.dwell || (isHoldStep s p s.eng.cur && s.eng.resync)
      cycleReached := s.eng.cycleReached || (decide (s.eng.hold = some .cycle) &&
        if s.tables.plan[p].cycle = 0 then s.eng.returned else isHoldStep s p s.eng.cur)
      returned := false
      stepReq := none
      gaining := 0
      losing := 0 } } := by
  have latched := latched_stageStart p w.latched h
  have started : stageStart s p = setEng w fun e =>
      { e with
        minElapsed := 0
        ext := (stepOf s p s.eng.cur).unitExt
        maxElapsed := if !coordinated w p && anotherWanted w p then some 0 else none
        sub := .min
        stageOn := true
        passed := if isHoldStep w p s.eng.cur && (s.eng.dwell || s.eng.resync) then 0 else e.passed
        resync := if isHoldStep w p s.eng.cur && (s.eng.dwell || s.eng.resync) then false else e.resync
        dwell := if isHoldStep w p s.eng.cur && (s.eng.dwell || s.eng.resync) then true else e.dwell
        cycleReached := e.cycleReached || (decide (e.hold = some .cycle) &&
          if coordinated w p then isHoldStep w p s.eng.cur else s.eng.returned)
        returned := false
        stepReq := none
        gaining := 0
        losing := 0 } := by
    unfold stageStart
    dsimp only
    cases hk : stageIx s p s.eng.cur with
    | none =>
      rw [hk] at latched
      obtain rfl : w = s := by rw [hw, latched]
      rfl
    | some x =>
      rw [hk] at latched
      obtain rfl : w = { s with latched := del s.latched x } := by rw [hw, latched]
      rfl
  have cycle : coordinated w p = decide (0 < s.tables.plan[p].cycle) := by rw [hw]; rfl
  have hold : isHoldStep w p s.eng.cur = isHoldStep s p s.eng.cur := by rw [hw]; rfl
  have eng : w.eng = s.eng := by rw [hw]
  rw [started]
  unfold setEng
  rw [cycle, hold, eng]
  by_cases hz : s.tables.plan[p].cycle = 0
  · have isolated : decide (0 < s.tables.plan[p].cycle) = false := by simp only [hz]; rfl
    have no_hold : isHoldStep s p s.eng.cur = false := by simp only [isHoldStep, coordinated, isolated, Bool.false_and]
    simp only [no_hold, hz]
    simp
  · have runs : decide (0 < s.tables.plan[p].cycle) = true := by simpa using Nat.pos_of_ne_zero hz
    simp only [runs, hz]
    cases isHoldStep s p s.eng.cur <;> cases s.eng.dwell <;> cases s.eng.resync <;> simp

/-- A step given up rests, and with no orderly stop the next wanted step is sought (R58). -/
theorem abandonStep_spec (s l : State) (p : Fin 8)
    (hl : l = { s with eng := { s.eng with stepReq := none, sub := .rest, stageOn := false, gaining := 0, losing := 0 } }) :
    (s.eng.orderly = true → abandonStep s p = l) ∧
    (s.eng.orderly = false → s.eng.cur.val < nSteps s p → SoughtFrom l p (abandonStep s p)) := by
  have rests : l = setEng s fun e => { e with stepReq := none, sub := .rest, stageOn := false, gaining := 0, losing := 0 } := hl
  unfold abandonStep
  dsimp only
  rw [← rests]
  refine ⟨fun ho => if_pos ho, fun ho hc => ?_⟩
  have steps : nSteps l p = nSteps s p := by rw [hl]; rfl
  have cur : l.eng.cur = s.eng.cur := by rw [hl]
  rw [if_neg (by rw [ho]; decide)]
  exact sought l p (by rw [steps, cur]; exact hc) _ rfl _ rfl

/-- Settles O41: releases by the conditions of R29, and the interstage group by group. -/
theorem releaseRules : Obligations.ReleaseRules := by
  refine ⟨fun _ => rfl, fun s j => ⟨fun h => judgeRelease_due h, fun h => judgeRelease_idle h⟩,
    fun s u p b hu => ⟨hu ▸ (beginInterstage_spec s p b).1, beginInterstage_frame s u p b hu, fun g hl => hu ▸ beginInterstage_sets s p b g hl⟩,
    fun s p => ⟨interstageProgress_idle, fun hr hi => ?_⟩, stageStart_eq, abandonStep_spec⟩
  have frame := gainGroups_frame (idx 32) s _ rfl
  have group (g : Fin 32) := progress_group s g _ rfl
  have gained := gained_progress (idx 32) (List.nodup_finRange 32) s
  have progress := interstageProgress_eq hr hi rfl
  generalize (idx 32).foldl gainGroup s = v at frame group gained progress
  have losing : v.eng.losing = s.eng.losing := by rw [frame]
  have hold : isHoldStep v p v.eng.cur = isHoldStep s p s.eng.cur := by rw [frame]; rfl
  rw [hold] at progress
  refine ⟨v, frame, group, gained.trans (by simp only [List.mem_finRange, true_and]), fun h => ?_, fun hg h => ?_⟩
  · rw [progress, if_neg]
    rw [startDue_iff, losing]
    rintro ⟨hz, hs⟩
    rcases h with h | ⟨hn, g, hm, ha⟩
    · exact h hz
    · rcases hs with hs | hs
      · rw [hn] at hs; cases hs
      · exact ha (hs g hm)
  · rw [progress, if_pos (startDue_iff.2 ⟨hg, by rw [losing]; exact h⟩)]
    simp only [Bool.not_eq_true']

end Sys2Proof.Machine

namespace Sys2Proof.Machine

open Sys2Proof

variable {s t : State} {g : Fin 32}

/-! ## Observed green at a window start (R36 to R38) -/

theorem monitored_eq (s : State) (g : Fin 32) : monitored s g = if s.port.configOpen = true then mem s.acting g else live s g := by
  unfold monitored; split <;> rfl

theorem greenRaiseDue_iff : greenRaiseDue s g = true ↔
    monitored s g = true ∧ s.tables.cable.greenConfirm ≤ s.groups[g].greenRun ∧ s.groups[g].raised = false := by
  simp only [greenRaiseDue, Bool.and_eq_true, decide_eq_true_eq, Bool.not_eq_true', and_assoc]

theorem greenClearDue_iff : greenClearDue s g = true ↔
    monitored s g = true ∧ s.groups[g].raised = true ∧ 25 ≤ s.groups[g].quiet := by
  simp only [greenClearDue, Bool.and_eq_true, decide_eq_true_eq, and_assoc]

/-- UNEXPECTED_GREEN_RAISE of a group that acts and is due, while a window start stands (R37). -/
theorem exec_greenRaise_due (h : greenRaiseDue s g = true) (hw : windowStands s = true) :
    exec (.unexpectedGreenRaise g) s = .next (finish (raise
      { s with groups := put s.groups g { s.groups[g] with raised := true } } .unexpectedGreen (num g) .absent)) := by
  change Host.Outcome.next (atWindow (fun s => takeGreenRaise s g) s) = _
  rw [atWindow_stands s _ hw, takeGreenRaise, if_pos h]
  rfl

/-- UNEXPECTED_GREEN_CLEAR of a group that acts and is due, while a window start stands (R38). -/
theorem exec_greenClear_due (h : greenClearDue s g = true) (hw : windowStands s = true) :
    exec (.unexpectedGreenClear g) s = .next (finish (clear
      { s with groups := put s.groups g { s.groups[g] with raised := false, quiet := 0 } } .unexpectedGreen (num g))) := by
  change Host.Outcome.next (atWindow (fun s => takeGreenClear s g) s) = _
  rw [atWindow_stands s _ hw, takeGreenClear, if_pos h]
  rfl

theorem exec_greenRaise_idle (h : windowStands s = false ∨ ¬ greenRaiseDue s g = true) :
    exec (.unexpectedGreenRaise g) s = .next (finish s) := by
  change Host.Outcome.next (atWindow (fun s => takeGreenRaise s g) s) = _
  cases hw : windowStands s
  · rw [atWindow_idle s _ hw]
  · rw [atWindow_stands s _ hw, takeGreenRaise, if_neg (h.resolve_left (by simp [hw]))]

theorem exec_greenClear_idle (h : windowStands s = false ∨ ¬ greenClearDue s g = true) :
    exec (.unexpectedGreenClear g) s = .next (finish s) := by
  change Host.Outcome.next (atWindow (fun s => takeGreenClear s g) s) = _
  cases hw : windowStands s
  · rw [atWindow_idle s _ hw]
  · rw [atWindow_stands s _ hw, takeGreenClear, if_neg (h.resolve_left (by simp [hw]))]

/-! ### The marks of one group -/

/-- The marks with the seen mark taken up (R37, R38). -/
def countMarks (m : Marks) : Marks :=
  if m.seen then ⟨bump 255 m.greenRun, 0, false, m.raised⟩
  else ⟨0, if m.raised then min 25 (m.quiet + 1) else m.quiet, false, m.raised⟩

/-- The marks with UNEXPECTED_GREEN raised at the confirm count (R37). -/
def raiseMarks (confirm : Nat) (m : Marks) : Marks := { m with raised := m.raised || decide (confirm ≤ m.greenRun) }

/-- The marks with UNEXPECTED_GREEN cleared at quiet 25 (R38). -/
def clearMarks (m : Marks) : Marks := if m.raised && decide (25 ≤ m.quiet) then { m with raised := false, quiet := 0 } else m

/-- The marks of a group that acts, after a window start (R37, R38). -/
def windowMarks (confirm : Nat) (m : Marks) : Marks := clearMarks (raiseMarks confirm (countMarks m))

theorem marksOf_countGreen (r : GroupRec) : marksOf (countGreen r) = countMarks (marksOf r) := by
  cases hs : r.seen <;> simp [countGreen, countMarks, marksOf, hs]

theorem marks_takeGreenRaise (hm : monitored s g = true) :
    marksOf (takeGreenRaise s g).groups[g] = raiseMarks s.tables.cable.greenConfirm (marksOf s.groups[g]) := by
  unfold takeGreenRaise
  split
  next h =>
    have ⟨_, confirmed, _⟩ := greenRaiseDue_iff.1 h
    rw [marks_of_kept (kept_raise _ _ _ _), setGroup, getElem_upd_self]
    simp only [raiseMarks, marksOf, confirmed, decide_true, Bool.or_true]
  next h =>
    have idle : (s.groups[g].raised || decide (s.tables.cable.greenConfirm ≤ s.groups[g].greenRun)) = s.groups[g].raised := by
      rw [greenRaiseDue_iff] at h
      cases hr : s.groups[g].raised
      · rw [Bool.false_or, decide_eq_false_iff_not]
        exact fun confirmed => h ⟨hm, confirmed, hr⟩
      · rfl
    change marksOf s.groups[g] = { marksOf s.groups[g] with
      raised := s.groups[g].raised || decide (s.tables.cable.greenConfirm ≤ s.groups[g].greenRun) }
    rw [idle]
    rfl

theorem marks_takeGreenClear (hm : monitored s g = true) :
    marksOf (takeGreenClear s g).groups[g] = clearMarks (marksOf s.groups[g]) := by
  unfold takeGreenClear
  split
  next h =>
    have ⟨_, raised, quiet⟩ := greenClearDue_iff.1 h
    rw [marks_of_kept (kept_clear _ _ _), setGroup, getElem_upd_self]
    simp only [clearMarks, marksOf, raised, quiet, decide_true, Bool.and_self, if_true]
  next h =>
    rw [greenClearDue_iff] at h
    refine (if_neg fun due => h ⟨hm, ?_⟩).symm
    rw [Bool.and_eq_true, decide_eq_true_eq] at due
    exact due

/-- What the observed-green rules read beside the marks: the groups whose types act, the configuration and the tables. -/
def greenFixed (s : State) : GroupSet × Bool × Vector GroupEntry 32 × CableParams :=
  (s.acting, s.port.configOpen, s.tables.group, s.tables.cable)

theorem greenFixed_of_kept (h : kept t = kept s) : greenFixed t = greenFixed s := congrArg Prod.snd (greenView_of_kept h)

theorem monitored_congr (h : greenFixed t = greenFixed s) (g : Fin 32) : monitored t g = monitored s g := by
  simp only [greenFixed, Prod.mk.injEq] at h
  obtain ⟨acting, configOpen, group, -⟩ := h
  simp only [monitored, live, groupType, acting, configOpen, group]

theorem greenConfirm_congr (h : greenFixed t = greenFixed s) : t.tables.cable.greenConfirm = s.tables.cable.greenConfirm :=
  congrArg (fun x => x.2.2.2.greenConfirm) h

theorem greenFixed_takeGreenRaise (s : State) (g : Fin 32) : greenFixed (takeGreenRaise s g) = greenFixed s := by
  unfold takeGreenRaise
  split
  · rw [greenFixed_of_kept (kept_raise _ _ _ _)]; rfl
  · rfl

theorem greenFixed_takeGreenClear (s : State) (g : Fin 32) : greenFixed (takeGreenClear s g) = greenFixed s := by
  unfold takeGreenClear
  split
  · rw [greenFixed_of_kept (kept_clear _ _ _)]; rfl
  · rfl

theorem greenFixed_greenGroup (s : State) (g : Fin 32) : greenFixed (greenGroup s g) = greenFixed s := by
  unfold greenGroup
  split
  · rw [greenFixed_takeGreenClear, greenFixed_takeGreenRaise]; rfl
  · rfl

theorem marks_setGroup_of_ne (f : GroupRec → GroupRec) {i : Fin 32} (h : g ≠ i) :
    marksOf (setGroup s g f).groups[i] = marksOf s.groups[i] :=
  congrArg marksOf (getElem_upd_of_ne s.groups g i f h)

theorem marks_greenGroup_of_ne (s : State) {g i : Fin 32} (h : g ≠ i) : marksOf (greenGroup s g).groups[i] = marksOf s.groups[i] := by
  have raise_away (t : State) : marksOf (takeGreenRaise t g).groups[i] = marksOf t.groups[i] := by
    unfold takeGreenRaise
    split
    · rw [marks_of_kept (kept_raise _ _ _ _), marks_setGroup_of_ne _ h]
    · rfl
  have clear_away (t : State) : marksOf (takeGreenClear t g).groups[i] = marksOf t.groups[i] := by
    unfold takeGreenClear
    split
    · rw [marks_of_kept (kept_clear _ _ _), marks_setGroup_of_ne _ h]
    · rfl
  unfold greenGroup
  split
  · rw [clear_away, raise_away, marks_setGroup_of_ne _ h]
  · rfl

/-- The observed-green work of one group on its marks (R37, R38). -/
theorem marks_greenGroup (s : State) (g : Fin 32) : marksOf (greenGroup s g).groups[g] =
    if monitored s g = true then windowMarks s.tables.cable.greenConfirm (marksOf s.groups[g]) else marksOf s.groups[g] := by
  unfold greenGroup
  split
  next hm =>
    have counted : monitored (setGroup s g countGreen) g = true := hm
    rw [marks_takeGreenClear ((monitored_congr (greenFixed_takeGreenRaise _ g) g).trans counted), marks_takeGreenRaise counted,
      setGroup, getElem_upd_self, marksOf_countGreen]
    rfl
  next => rfl

/-- The observed-green work of a window start on every group (R37, R38). -/
theorem marks_greenGroups (s : State) (g : Fin 32) : marksOf ((idx 32).foldl greenGroup s).groups[g] =
    if monitored s g = true then windowMarks s.tables.cable.greenConfirm (marksOf s.groups[g]) else marksOf s.groups[g] := by
  rw [← marks_greenGroup, foldl_local greenGroup (fun s g => marksOf s.groups[g]) greenFixed
    (fun s _ _ h => marks_greenGroup_of_ne s h) greenFixed_greenGroup ?_ (idx 32) (List.nodup_finRange 32), if_pos (List.mem_finRange g)]
  intro s t a hf hv
  rw [marks_greenGroup, marks_greenGroup, monitored_congr hf, greenConfirm_congr hf, hv]

theorem greenFixed_greenGroups (s : State) : greenFixed ((idx 32).foldl greenGroup s) = greenFixed s :=
  foldl_inv greenFixed greenGroup greenFixed_greenGroup (idx 32) s

/-! ### The marks of every group at a window start -/

theorem greenView_windowClock (s : State) : greenView (windowClock s) = greenView s := by
  obtain ⟨c, r, m, x, h⟩ := kept_windowClock s
  exact greenView_of_kept (s := { s with clock := c, sched := r, jm := { s.jm with schedMode := m }, moment := x }) h

theorem greenView_pulse (s : State) : greenView (pulse s) = greenView s := by
  obtain ⟨i, p, c, m, h, -, -⟩ := kept_pulse s
  exact greenView_of_kept (s := { s with inputs := i, prov := p, cable := c, inPulse := false, moment := m }) h

theorem greenView_countWindow (s : State) : greenView (countWindow s) = greenView s := by
  unfold countWindow
  dsimp only
  split
  · have h := greenView_pulse (setMains s fun m => { m with windowCount := 0 })
    generalize pulse _ = p at h ⊢
    exact h
  · rfl

theorem greenFixed_of_view (h : greenView t = greenView s) : greenFixed t = greenFixed s := congrArg Prod.snd h

theorem marks_of_view (h : greenView t = greenView s) (g : Fin 32) : marksOf t.groups[g] = marksOf s.groups[g] := by
  have := congrArg (fun v => v.1[g]) h
  simpa only [greenView, getElem_tab] using this

/-- What a window start does to a group's marks, and what else of the observed-green rules' ground it leaves (R37, R38). -/
def Judged (s t : State) : Prop :=
  greenFixed t = greenFixed s ∧ ∀ g : Fin 32, marksOf t.groups[g] =
    if monitored s g = true then windowMarks s.tables.cable.greenConfirm (marksOf s.groups[g]) else marksOf s.groups[g]

theorem judged_windowStart (s : State) (t : Nat) (gapBegin counted : Bool) : Judged s (windowStart s t gapBegin counted) := by
  unfold windowStart
  dsimp only
  generalize hc : (if counted then countAfterGap _ else _) = u
  have before : greenView u = greenView s := by
    have clocked := (greenView_windowClock _).trans ((aside_setBus (aside_setMains (aside_closeRound (Aside.refl (s := s)))
      fun m => { m with lastWindow := some t }) fun b => { b with
        seq := nextWin b.seq, lastInGap := b.windowInGap || gapBegin
        windowInGap := (setMains (closeRound s) fun m => { m with lastWindow := some t }).mains.gap }).greenView)
    rw [← hc]
    split
    · exact (aside_countAfterGap .refl).greenView.trans clocked
    · exact clocked
  have after (v : State) : greenView (beginRound (countWindow v)) = greenView v :=
    (aside_beginRound .refl).greenView.trans (greenView_countWindow v)
  refine ⟨?_, fun g => ?_⟩
  · rw [greenFixed_of_view (after _), greenFixed_greenGroups, greenFixed_of_view before]
  · rw [marks_of_view (after _), marks_greenGroups, monitored_congr (greenFixed_of_view before),
      greenConfirm_congr (greenFixed_of_view before), marks_of_view before]

/-! ### Edges, gaps and substitute windows -/

/-- Work on the mains either starts no window and leaves the marks, or starts one and judges every group (R37, R95). -/
def MaybeJudged (s t : State) : Prop :=
  (t.bus.seq = s.bus.seq ∧ greenView t = greenView s) ∨ (t.bus.seq = nextWin s.bus.seq ∧ Judged s t)

theorem Judged.of_view {u : State} (h : Judged t u) (hv : greenView t = greenView s) : Judged s u := by
  refine ⟨h.1.trans (greenFixed_of_view hv), fun g => ?_⟩
  rw [h.2 g, monitored_congr (greenFixed_of_view hv), greenConfirm_congr (greenFixed_of_view hv), marks_of_view hv]

theorem MaybeJudged.of_view {u : State} (h : MaybeJudged t u) (hq : t.bus.seq = s.bus.seq) (hv : greenView t = greenView s) :
    MaybeJudged s u := by
  rcases h with ⟨seq, view⟩ | ⟨seq, judged⟩
  · exact .inl ⟨seq.trans hq, view.trans hv⟩
  · exact .inr ⟨by rw [seq, hq], judged.of_view hv⟩

theorem MaybeJudged.finish (h : MaybeJudged s t) : MaybeJudged s (finish t) := by
  rcases h with ⟨seq, view⟩ | ⟨seq, fixed, marks⟩
  · exact .inl ⟨(finish_bus_seq t).trans seq, (aside_finish .refl).greenView.trans view⟩
  · refine .inr ⟨(finish_bus_seq t).trans seq, (greenFixed_of_kept (kept_finish t)).trans fixed, fun g => ?_⟩
    rw [marks_of_kept (kept_finish t), marks g]

theorem maybeJudged_windowStart (s : State) (t : Nat) (gapBegin counted : Bool) :
    MaybeJudged s (windowStart s t gapBegin counted) :=
  .inr ⟨(windowStart_pace s t gapBegin counted).2.1, judged_windowStart s t gapBegin counted⟩

theorem maybeJudged_refl (s : State) : MaybeJudged s s := .inl ⟨rfl, rfl⟩

theorem maybeJudged_substituteStart (s : State) : MaybeJudged s (substituteStart s) := by
  unfold substituteStart
  dsimp only
  split
  · refine (maybeJudged_windowStart _ _ _ _).of_view ?_ ?_ <;> split <;> rfl
  · exact maybeJudged_refl s

theorem maybeJudged_gapBegins (s : State) : MaybeJudged s (gapBegins s) := by
  unfold gapBegins
  dsimp only
  repeat' split
  · exact maybeJudged_refl s
  · exact (maybeJudged_windowStart _ _ _ _).of_view rfl rfl
  · exact .inl ⟨rfl, rfl⟩

theorem maybeJudged_plainEdge (s : State) (period : Nat) : MaybeJudged s (plainEdge s period) := by
  have counted : greenView (countPeriod (setMains s fun m => { m with lastEdge := s.mains.lastEdge + period }) period) = greenView s :=
    (aside_countPeriod (aside_setMains .refl _) period).greenView
  have seq : (countPeriod (setMains s fun m => { m with lastEdge := s.mains.lastEdge + period }) period).bus.seq = s.bus.seq := by
    unfold countPeriod; split <;> rfl
  unfold plainEdge
  dsimp only
  generalize countPeriod _ period = u at counted seq ⊢
  refine MaybeJudged.of_view ?_ seq counted
  repeat' split
  · refine .inl ⟨?_, (aside_takeFreqRaise .refl).greenView⟩
    unfold takeFreqRaise
    split <;> simp
  · refine .inl ⟨?_, (aside_takeFreqClear .refl).greenView⟩
    unfold takeFreqClear
    split <;> simp
  · exact maybeJudged_windowStart ..
  · exact maybeJudged_refl u

theorem kept_handGapEnd (s : State) (long : Bool) : kept (settle (if long then mainsRestart s else s)) = kept s := by
  rw [kept_settle]
  split
  · exact kept_of_held (held_mainsRestart s)
  · rfl

theorem view_handGapEnd (s : State) (long : Bool) :
    (handGapEnd s long).bus.seq = s.bus.seq ∧ greenView (handGapEnd s long) = greenView s := by
  have hk := kept_handGapEnd s long
  unfold handGapEnd
  generalize settle _ = u at hk ⊢
  have seq : u.bus.seq = s.bus.seq := bus_seq_of_kept hk
  exact ⟨seq, (aside_gapProving (aside_clearMisses .refl)).greenView.trans (greenView_of_kept hk)⟩

theorem maybeJudged_takeEdge (s : State) (period : Nat) : MaybeJudged s (takeEdge s period) := by
  unfold takeEdge
  split
  · unfold gapEndEdge
    dsimp only
    generalize hu : setMains (between s) _ = u
    obtain ⟨seq, view⟩ := view_handGapEnd u (longGap (between s) period)
    have begun : u.bus.seq = s.bus.seq ∧ greenView u = greenView s := by subst hu; exact ⟨rfl, rfl⟩
    refine MaybeJudged.of_view (t := handGapEnd u (longGap (between s) period)) ?_ (seq.trans begun.1) (view.trans begun.2)
    split
    · exact maybeJudged_windowStart ..
    · exact maybeJudged_refl _
  · exact (maybeJudged_plainEdge (between s) period).of_view rfl rfl

/-- Every command that can start a window starts none and leaves the marks, or starts one and judges every group. -/
theorem maybeJudged_exec {c : Instr} (hc : (∃ p : Nat, c = .mainsEdge p) ∨ c = .mainsGapBegin ∨ c = .substituteWindowStart)
    (h : exec c s = .next t) : MaybeJudged s t := by
  rcases hc with ⟨p, rfl⟩ | rfl | rfl
  · obtain rfl : finish (takeEdge s p) = t := Host.Outcome.next.inj h
    exact (maybeJudged_takeEdge s p).finish
  · obtain rfl : finish (gapBegins s) = t := Host.Outcome.next.inj h
    exact (maybeJudged_gapBegins s).finish
  · obtain rfl : finish (substituteStart s) = t := Host.Outcome.next.inj h
    exact (maybeJudged_substituteStart s).finish

theorem nextWin_ne (v : Nat) : nextWin v ≠ v := by unfold nextWin; omega

/-- The marks of a group after the counts and the judging of a window start, field by field (R37, R38). -/
theorem windowMarks_fields {r r' : GroupRec} {confirm n q : Nat} (h : marksOf r' = windowMarks confirm (marksOf r))
    (hn : n = if r.seen = true then min 255 (r.greenRun + 1) else 0)
    (hq : q = if r.seen = true then 0 else if r.raised = true then min 25 (r.quiet + 1) else r.quiet) :
    r'.greenRun = n ∧ r'.seen = false ∧
    (if (r.raised = true ∨ confirm ≤ n) ∧ 25 ≤ q then r'.raised = false ∧ r'.quiet = 0
     else r'.quiet = q ∧ (r'.raised = true ↔ r.raised = true ∨ confirm ≤ n)) := by
  have counted : countMarks (marksOf r) = ⟨n, q, false, r.raised⟩ := by
    subst hn hq
    cases hs : r.seen <;> simp [countMarks, marksOf, hs, bump]
  have raised : raiseMarks confirm (countMarks (marksOf r)) = ⟨n, q, false, r.raised || decide (confirm ≤ n)⟩ := by
    rw [counted]; rfl
  rw [windowMarks, raised, clearMarks] at h
  simp only [Bool.and_eq_true, Bool.or_eq_true, decide_eq_true_eq] at h
  split at h <;> simp_all [marksOf]

theorem countGreen_seen {r : GroupRec} (h : r.seen = true) :
    countGreen r = { r with greenRun := min 255 (r.greenRun + 1), quiet := 0, seen := false } := by
  rw [countGreen, if_pos h]; rfl

theorem countGreen_unseen {r : GroupRec} (h : r.seen = false) :
    countGreen r = { r with greenRun := 0, quiet := if r.raised = true then min 25 (r.quiet + 1) else r.quiet } := by
  rw [countGreen, if_neg (by simp [h])]

/-- Settles O39: the counts are marks of one group each, so the fold of a window start takes every group as it found it. -/
theorem observedGreen : Obligations.ObservedGreen := by
  unfold Obligations.ObservedGreen
  simp only [← monitored_eq]
  refine ⟨fun s g hm hw => ⟨fun confirmed hr => ?_, fun quiet hr => ?_⟩, fun s g => ⟨fun h => ?_, fun h => ?_⟩,
    fun s t c hc h => ⟨?_, fun g n q acts ha hn hq => ⟨fun same => ?_, fun new judge => ?_⟩⟩,
    fun r => ⟨countGreen_seen, countGreen_unseen⟩⟩
  · exact exec_greenRaise_due (greenRaiseDue_iff.2 ⟨hm, confirmed, hr⟩) hw
  · exact exec_greenClear_due (greenClearDue_iff.2 ⟨hm, hr, quiet⟩) hw
  · refine exec_greenRaise_idle (h.imp_right fun h => ?_)
    rw [greenRaiseDue_iff]
    grind
  · refine exec_greenClear_idle (h.imp_right fun h => ?_)
    rw [greenClearDue_iff]
    grind
  · rcases maybeJudged_exec hc h with ⟨-, view⟩ | ⟨-, fixed, -⟩
    · exact congrArg Prod.fst (greenFixed_of_view view)
    · exact congrArg Prod.fst fixed
  · rcases maybeJudged_exec hc h with ⟨-, view⟩ | ⟨seq, -, marks⟩
    · exact marks_of_view view g
    · have idle : ¬ monitored s g = true := fun hm =>
        same.elim (fun e => nextWin_ne s.bus.seq (seq.symm.trans e)) fun na => na (ha.2 hm)
      rw [marks g, if_neg idle]
  · rcases maybeJudged_exec hc h with ⟨seq, -⟩ | ⟨-, -, marks⟩
    · exact absurd seq new
    · have judged := marks g
      rw [if_pos (ha.1 judge)] at judged
      exact windowMarks_fields judged hn hq

end Sys2Proof.Machine

namespace Sys2Proof.Machine

open Sys2Proof

variable {s t : State}

/-! ## Folds in which one element counts -/

theorem foldl_away {σ α β : Type} (f : σ → α → σ) (v : σ → β) (l : List α) (away : ∀ (s : σ), ∀ a ∈ l, v (f s a) = v s) (s : σ) :
    v (l.foldl f s) = v s := by
  induction l generalizing s with
  | nil => rfl
  | cons a l ih =>
    rw [List.foldl_cons, ih (fun s b hb => away s b (List.mem_cons_of_mem _ hb)), away s a (List.mem_cons_self ..)]

/-- A fold in which the elements but one leave what is looked at, and that one finds the ground as it was at the start. -/
theorem foldl_once {σ α β γ : Type} (f : σ → α → σ) (v : σ → β) (c : σ → γ) (G : β → β) (fixed : ∀ (s : σ) (a : α), c (f s a) = c s)
    (a : α) (l : List α) (hn : l.Nodup) (ha : a ∈ l) (away : ∀ (s : σ), ∀ b ∈ l, b ≠ a → v (f s b) = v s) (s : σ)
    (here : ∀ t : σ, c t = c s → v (f t a) = G (v t)) : v (l.foldl f s) = G (v s) := by
  induction l generalizing s with
  | nil => exact absurd ha List.not_mem_nil
  | cons b l ih =>
    obtain ⟨hb, hl⟩ := List.nodup_cons.1 hn
    rw [List.foldl_cons]
    by_cases e : b = a
    · subst e
      rw [foldl_away f v l (fun s x hx => away s x (List.mem_cons_of_mem _ hx) (fun e => hb (e ▸ hx))), here s rfl]
    · have ha' : a ∈ l := (List.mem_cons.1 ha).resolve_left (Ne.symm e)
      rw [ih hl ha' (fun s x hx => away s x (List.mem_cons_of_mem _ hx)) (f s b) (fun t ht => here t (ht.trans (fixed s b))),
        away s b (List.mem_cons_self ..) e]

/-! ## The circuits of a unit (R15) -/

theorem mem_circuitsOf {u : Fin 12} {tc : Fin 8 × Fin 96} : tc ∈ circuitsOf s u ↔ circuitAt s u tc.1 = some tc.2 := by
  unfold circuitsOf
  rw [List.mem_filterMap]
  constructor
  · rintro ⟨k, -, h⟩
    obtain ⟨c, hc, rfl⟩ := Option.map_eq_some_iff.1 h
    exact hc
  · intro h
    exact ⟨tc.1, List.mem_finRange _, by rw [h]; rfl⟩

theorem nodup_circuitsOf (s : State) (u : Fin 12) : (circuitsOf s u).Nodup := by
  refine List.Nodup.filterMap ?_ (List.nodup_finRange 8)
  intro k k' tc h h'
  obtain ⟨c, -, e⟩ := Option.map_eq_some_iff.1 h
  obtain ⟨c', -, e'⟩ := Option.map_eq_some_iff.1 h'
  exact (congrArg Prod.fst e).trans (congrArg Prod.fst e').symm

/-! ## What cable supervision reads and leaves (R157) -/

/-- The kept part but for the records of the circuits, the marks and red status. -/
def Kept.ground (k : Kept) : Kept :=
  { k with
    marks := Vector.replicate 32 ⟨0, 0, false, false⟩
    prov := { k.prov with circuits := Vector.replicate 96 ⟨.unknown, none, 0, 0, none, none⟩, red := Vector.replicate 32 .unknown }
    cable := { k.cable with circuits := Vector.replicate 96 cableRecPor } }

/-- What the work of cable supervision on circuits reads and leaves: the state but for the records of circuits and groups, red status, the collector,
the engine, the mode machine and the port's answers. -/
def ground (s : State) : Kept × List Report := ((kept s).ground, s.bus.queue)

theorem ground_of_held (h : held t = held s) : ground t = ground s := by
  simp only [held, Prod.mk.injEq] at h
  obtain ⟨hk, hq, -, -⟩ := h
  simp only [ground, hk, hq]

theorem ground_tables (h : ground t = ground s) : t.tables = s.tables := congrArg (fun x => x.1.tables) h
theorem ground_map (h : ground t = ground s) : t.map = s.map := congrArg (fun x => x.1.map) h
theorem ground_clock (h : ground t = ground s) : t.clock = s.clock := congrArg (fun x => x.1.clock) h
theorem ground_inputs (h : ground t = ground s) : t.inputs = s.inputs := congrArg (fun x => x.1.inputs) h
theorem ground_inPulse (h : ground t = ground s) : t.inPulse = s.inPulse := congrArg (fun x => x.1.inPulse) h
theorem ground_leak (h : ground t = ground s) : t.cable.leak = s.cable.leak := congrArg (fun x => x.1.cable.leak) h
theorem ground_queue (h : ground t = ground s) : t.bus.queue = s.bus.queue := congrArg Prod.snd h
theorem ground_bus (h : ground t = ground s) : t.bus = s.bus := congrArg (fun x => { x.1.bus with queue := x.2 }) h

theorem ground_prov (h : ground t = ground s) : t.prov = { s.prov with circuits := t.prov.circuits, red := t.prov.red } :=
  congrArg (fun x => { x.1.prov with circuits := t.prov.circuits, red := t.prov.red }) h

theorem ground_raise (s : State) (k : Kind) (n : Nat) (d : Detail) : ground (raise s k n d) = ground s := ground_of_held (held_raise s k n d)
theorem ground_clear (s : State) (k : Kind) (n : Nat) : ground (clear s k n) = ground s := ground_of_held (held_clear s k n)

theorem circuitAt_congr (h : ground t = ground s) : circuitAt t = circuitAt s := by
  funext u k; simp only [circuitAt, ground_map h]

theorem circuitsOf_congr (h : ground t = ground s) (u : Fin 12) : circuitsOf t u = circuitsOf s u := by
  simp only [circuitsOf, circuitAt_congr h]

theorem loggedOn_congr (h : ground t = ground s) : loggedOn t = loggedOn s := by
  funext u w k; simp only [loggedOn, logOf, ground_bus h]

theorem loggedCalled_congr (h : ground t = ground s) : loggedCalled t = loggedCalled s := by
  funext u w k; simp only [loggedCalled, logOf, ground_bus h]

theorem litJudged_congr (h : ground t = ground s) : litJudged t = litJudged s := by
  funext u w k x
  simp only [litJudged, loggedOnBefore, loggedTest, logOf, loggedOn_congr h, ground_bus h]

theorem observedLit_congr (h : ground t = ground s) : observedLit t = observedLit s := by
  funext vsup x
  have threshold : litThreshold t vsup = litThreshold s vsup := by unfold litThreshold; rw [ground_tables h]
  simp only [observedLit, threshold, ground_tables h]

theorem onCircuits_congr (h : ground t = ground s) : onCircuits t = onCircuits s := by
  funext u w
  simp only [onCircuits, circuitsOf_congr h, loggedOn_congr h]

/-! ## Test results (R148, R149) -/

/-- A record with the cable fault of its candidate held once the run has confirmed it (R149). -/
def confirmedRec (confirm : Nat) (m : Mismatch) (r : CableRec) : CableRec :=
  if confirm ≤ r.mrun then { r with openRaised := decide (m = .isOpen), shortRaised := decide (m = .short) } else r

/-- A record with a test result taken (R148, R149). -/
def testedRec (s : State) (c : Fin 96) (residual : Nat) (r : CableRec) : CableRec :=
  let r1 := { r with sinceTest := 0, lastTest := some (residual, testClass s residual) }
  match judgeTest (loadClassOf s c) (testClass s residual) with
  | .agree => { r1 with cand := none, mrun := 0, openRaised := false, shortRaised := false }
  | .doubtful => { r1 with cand := none, mrun := 0 }
  | .mismatch m => confirmedRec s.tables.cable.testConfirm m (countMismatch r1 m)

/-- A record with its test in flight for window `v` resolved (R148). -/
def resolvedRec (s : State) (c : Fin 96) (v : Nat) (x : Sample) (r : CableRec) : CableRec :=
  if r.inFlight = some v then
    if x.tested then testedRec s c x.residual { r with inFlight := none } else { r with inFlight := none }
  else r

/-- Circuit `c`'s record is rewritten by `f`, and nothing else of the kept part changes. -/
def Rewrites (s : State) (c : Fin 96) (f : CableRec → CableRec) (t : State) : Prop :=
  kept t = (kept s).withCable (s.cable.withCircuit c f)

theorem Rewrites.trans {u : State} {c : Fin 96} {f g : CableRec → CableRec} (h : Rewrites s c f t) (h' : Rewrites t c g u) :
    Rewrites s c (g ∘ f) u := by
  unfold Rewrites at h h' ⊢
  rw [h', h, cable_eq_of_kept h]
  exact congrArg (kept s).withCable (cableWith_cableWith ..)

/-- Two rewrites agree where they agree on the record that stands. -/
theorem Rewrites.congr {c : Fin 96} {f g : CableRec → CableRec} (h : Rewrites s c f t) (e : f s.cable.circuits[c] = g s.cable.circuits[c]) :
    Rewrites s c g t := by
  unfold Rewrites Cable.withCircuit upd at h ⊢
  rw [h, e]

theorem Rewrites.cable {c : Fin 96} {f : CableRec → CableRec} (h : Rewrites s c f t) : t.cable = s.cable.withCircuit c f :=
  cable_eq_of_kept h

theorem Rewrites.self {c : Fin 96} {f : CableRec → CableRec} (h : Rewrites s c f t) : t.cable.circuits[c] = f s.cable.circuits[c] := by
  rw [h.cable]; exact getElem_upd_self ..

theorem rewrites_refl (s : State) (c : Fin 96) : Rewrites s c id s := by
  unfold Rewrites Cable.withCircuit
  rw [upd_id _ _ _ rfl]
  rfl

theorem rewrites_setCable (s : State) (c : Fin 96) (f : CableRec → CableRec) : Rewrites s c f (setCable s c f) := rfl

/-- The confirmed fault of the candidate that stands (R149). -/
theorem rewrites_takeCableFault {c : Fin 96} {m : Mismatch} (h : s.cable.circuits[c].cand = some m) :
    Rewrites s c (confirmedRec s.tables.cable.testConfirm m) (takeCableFault s c) := by
  have due : cableFaultDue s c = if s.tables.cable.testConfirm ≤ s.cable.circuits[c].mrun then some m else none := by
    simp only [cableFaultDue, h]
  by_cases hc : s.tables.cable.testConfirm ≤ s.cable.circuits[c].mrun
  · have marked : Rewrites s c (fun r => { r with openRaised := decide (m = .isOpen), shortRaised := decide (m = .short) })
        (takeCableFault s c) := by
      unfold Rewrites
      rw [kept_takeCableFault, due, if_pos hc]
    exact marked.congr (by rw [confirmedRec, if_pos hc])
  · have idle : takeCableFault s c = s := by unfold takeCableFault; rw [due, if_neg hc]
    rw [idle]
    exact (rewrites_refl s c).congr (by rw [confirmedRec, if_neg hc]; rfl)

theorem countMismatch_cand (r : CableRec) (m : Mismatch) : (countMismatch r m).cand = some m := by
  unfold countMismatch
  split
  next h => exact h
  next => rfl

theorem rewrites_takeTestResult (s : State) (c : Fin 96) (residual : Nat) :
    Rewrites s c (testedRec s c residual) (takeTestResult s c residual) := by
  have recorded := rewrites_setCable s c fun r => { r with sinceTest := 0, lastTest := some (residual, testClass s residual) }
  unfold takeTestResult
  dsimp only
  generalize setCable s c _ = s1 at recorded
  cases hj : judgeTest (loadClassOf s c) (testClass s residual) with
  | agree =>
    have cleared := rewrites_setCable s1 c fun r => { r with cand := none, mrun := 0 }
    dsimp only
    exact (((recorded.trans cleared).trans (kept_clearOpen _ c)).trans (kept_clearShort _ c)).congr (by simp only [testedRec, hj]; rfl)
  | doubtful =>
    have cleared := rewrites_setCable s1 c fun r => { r with cand := none, mrun := 0 }
    dsimp only
    exact (recorded.trans cleared).congr (by simp only [testedRec, hj]; rfl)
  | mismatch m =>
    have counted := rewrites_setCable s1 c fun r => countMismatch r m
    dsimp only
    have cand : (setCable s1 c fun r => countMismatch r m).cable.circuits[c].cand = some m := by
      rw [counted.self]; exact countMismatch_cand _ m
    have tables : (setCable s1 c fun r => countMismatch r m).tables = s.tables := tables_eq_of_kept recorded
    exact ((recorded.trans counted).trans (rewrites_takeCableFault cand)).congr (by
      simp only [testedRec, hj, tables]; rfl)

theorem rewrites_resolveTest (s : State) (v : Nat) (xs : Vector Sample 8) (tc : Fin 8 × Fin 96) :
    Rewrites s tc.2 (resolvedRec s tc.2 v xs[tc.1]) (resolveTest v (some xs) s tc) := by
  unfold resolveTest
  by_cases hv : s.cable.circuits[tc.2].inFlight = some v
  · rw [if_pos hv]
    have landed := rewrites_setCable s tc.2 fun r => { r with inFlight := none }
    dsimp only
    cases hx : xs[tc.1].tested with
    | true =>
      rw [if_pos rfl]
      exact (landed.trans (rewrites_takeTestResult _ tc.2 _)).congr (by simp only [resolvedRec, hv, hx, if_true]; rfl)
    | false =>
      exact landed.congr (by simp only [resolvedRec, hv, hx, if_true, Bool.false_eq_true, if_false])
  · rw [if_neg hv]
    exact (rewrites_refl s tc.2).congr (by rw [resolvedRec, if_neg hv]; rfl)

theorem ground_setCable (s : State) (c : Fin 96) (f : CableRec → CableRec) : ground (setCable s c f) = ground s := rfl

theorem ground_takeTestResult (s : State) (c : Fin 96) (residual : Nat) : ground (takeTestResult s c residual) = ground s := by
  have clear_open (t : State) : ground (clearOpen t c) = ground t := by unfold clearOpen; split <;> simp [ground_clear, ground_setCable]
  have clear_short (t : State) : ground (clearShort t c) = ground t := by unfold clearShort; split <;> simp [ground_clear, ground_setCable]
  have raise_open (t : State) (k : TestClass) : ground (raiseOpen t c k) = ground t := by
    unfold raiseOpen; split <;> simp [ground_raise, ground_setCable]
  have raise_short (t : State) (k : TestClass) : ground (raiseShort t c k) = ground t := by
    unfold raiseShort; split <;> simp [ground_raise, ground_setCable]
  unfold takeTestResult takeCableFault
  dsimp only
  repeat' split
  all_goals simp only [clear_open, clear_short, raise_open, raise_short, ground_setCable]

theorem ground_resolveTest (v : Nat) (xs : Option (Vector Sample 8)) (s : State) (tc : Fin 8 × Fin 96) :
    ground (resolveTest v xs s tc) = ground s := by
  unfold resolveTest
  repeat' split
  all_goals simp only [ground_takeTestResult, ground_setCable]

/-! ## Overcurrent (R152) -/

/-- The OVC flag is taken: the circuit is NORMAL (R152). -/
def trips (x : Sample) (r : CableRec) : Bool := x.ovc && decide (r.retry = .normal)

/-- A record with its OVC flag taken (R152). -/
def trippedRec (s : State) (x : Sample) (r : CableRec) : CableRec :=
  if trips x r then
    if bump 11 r.trips ≤ s.tables.cable.maxRetries then
      { r with trips := bump 11 r.trips, cleanOn := 0, retry := .retryWait, retryTimer := 0, retryFresh := !s.inPulse }
    else { r with trips := bump 11 r.trips, cleanOn := 0, retry := .latched, ovcRaised := true }
  else r

/-- A proving record placed forced off when its circuit trips (R136, R152). -/
def forcedRec (x : Sample) (r : CableRec) (p : ProvRec) : ProvRec :=
  if trips x r then { p with verdict := .forced, cand := none, run := 0, fault := none } else p

theorem kept_forced {c : Fin 96} {f : CableRec → CableRec} (h : Rewrites s c f t) : kept (forceVerdict t c) = ((kept s).withCable (s.cable.withCircuit c f)).withProv
    (s.prov.withCircuit c fun p => { p with verdict := .forced, cand := none, run := 0, fault := none }) := by
  unfold forceVerdict
  rw [kept_changeVerdict, prov_eq_of_kept h, h]
  rfl

/-- Rewrites of one circuit's records as they stand change nothing. -/
theorem kept_rewrites_id (s : State) {c : Fin 96} {f : CableRec → CableRec} {g : ProvRec → ProvRec}
    (hf : f s.cable.circuits[c] = s.cable.circuits[c]) (hg : g s.prov.circuits[c] = s.prov.circuits[c]) :
    kept s = ((kept s).withCable (s.cable.withCircuit c f)).withProv (s.prov.withCircuit c g) := by
  unfold Cable.withCircuit Proving.withCircuit
  rw [upd_id _ _ _ hf, upd_id _ _ _ hg]
  rfl

theorem kept_ovcCircuit (xs : Vector Sample 8) (s : State) (tc : Fin 8 × Fin 96) :
    kept (ovcCircuit xs s tc) = ((kept s).withCable (s.cable.withCircuit tc.2 (trippedRec s xs[tc.1]))).withProv
      (s.prov.withCircuit tc.2 (forcedRec xs[tc.1] s.cable.circuits[tc.2])) := by
  cases ht : trips xs[tc.1] s.cable.circuits[tc.2] with
  | false =>
    have idle : ovcCircuit xs s tc = s := by
      unfold ovcCircuit takeOvc
      simp only [trips, Bool.and_eq_false_iff, decide_eq_false_iff_not] at ht
      split
      next ho => rw [if_neg (ht.resolve_left (by simp only [ho, Bool.true_eq_false, not_false_eq_true]))]
      next => rfl
    rw [idle]
    exact kept_rewrites_id s (by simp only [trippedRec, ht, Bool.false_eq_true, if_false])
      (by simp only [forcedRec, ht, Bool.false_eq_true, if_false])
  | true =>
    have forced : forcedRec xs[tc.1] s.cable.circuits[tc.2] =
        fun p => { p with verdict := .forced, cand := none, run := 0, fault := none } := by
      funext p; simp only [forcedRec, ht, if_true]
    have ⟨ovc, normal⟩ : xs[tc.1].ovc = true ∧ s.cable.circuits[tc.2].retry = .normal := by
      simpa only [trips, Bool.and_eq_true, decide_eq_true_eq] using ht
    have counted := rewrites_setCable s tc.2 fun r => { r with trips := bump 11 s.cable.circuits[tc.2].trips, cleanOn := 0 }
    rw [forced]
    unfold ovcCircuit takeOvc
    rw [if_pos ovc, if_pos normal]
    dsimp only
    split
    next few =>
      refine kept_forced ((counted.trans (rewrites_setCable _ tc.2 _)).congr ?_)
      simp only [trippedRec, ht, few, if_true]
      rfl
    next many =>
      have latched : Rewrites _ tc.2 _ _ := counted.trans (rewrites_setCable _ tc.2 fun r => { r with retry := .latched, ovcRaised := true })
      refine kept_forced (Rewrites.congr (f := _) ((kept_raise _ _ _ _).trans latched) ?_)
      simp only [trippedRec, ht, many, if_true, if_false]
      rfl

theorem ground_setProv (s : State) (c : Fin 96) (f : ProvRec → ProvRec) : ground (setProv s c f) = ground s := rfl

theorem ground_changeVerdict (s : State) (c : Fin 96) (v : Verdict) : ground (changeVerdict s c v) = ground s := by
  unfold changeVerdict changeLampFault
  dsimp only
  repeat' split
  all_goals simp only [ground_raise, ground_clear, ground_setProv]

theorem ground_ovcCircuit (xs : Vector Sample 8) (s : State) (tc : Fin 8 × Fin 96) : ground (ovcCircuit xs s tc) = ground s := by
  unfold ovcCircuit takeOvc forceVerdict
  dsimp only
  repeat' split
  all_goals simp only [ground_changeVerdict, ground_raise, ground_setCable]

/-! ## Observed lit (R150, R151) -/

/-- A record with CROSS_FEED raised at the confirm count (R151). -/
def crossRec (confirm : Nat) (r : CableRec) : CableRec := { r with crossRaised := r.crossRaised || decide (confirm ≤ r.litRun) }

/-- A record with CROSS_FEED cleared at quiet 25 (R151). -/
def uncrossRec (r : CableRec) : CableRec :=
  if r.crossRaised && decide (25 ≤ r.quiet) then { r with crossRaised := false, quiet := 0 } else r

/-- A record with the observed-lit work of a frame done (R150, R151). -/
def litRec (s : State) (u : Fin 12) (f : SenseFrame) (k : Fin 8) (x : Sample) (r : CableRec) : CableRec :=
  if litJudged s u f.window k x then uncrossRec (crossRec s.tables.cable.crossConfirm (countLit r (observedLit s f.vsup x)))
  else if loggedOn s u f.window k then { r with litRun := 0 }
  else r

theorem rewrites_takeCrossRaise (s : State) (c : Fin 96) : Rewrites s c (crossRec s.tables.cable.crossConfirm) (takeCrossRaise s c) := by
  unfold takeCrossRaise crossRaiseDue
  split
  next h =>
    simp only [Bool.and_eq_true, decide_eq_true_eq, Bool.not_eq_true'] at h
    obtain ⟨confirmed, -⟩ := h
    refine Rewrites.congr (f := fun r => { r with crossRaised := true }) (kept_raise _ _ _ _) ?_
    simp only [crossRec, confirmed, decide_true, Bool.or_true]
  next h =>
    refine (rewrites_refl s c).congr ?_
    have idle : (s.cable.circuits[c].crossRaised || decide (s.tables.cable.crossConfirm ≤ s.cable.circuits[c].litRun)) =
        s.cable.circuits[c].crossRaised := by
      cases hr : s.cable.circuits[c].crossRaised with
      | true => rfl
      | false => rw [hr] at h; simpa only [Bool.not_false, Bool.and_true, Bool.false_or, Bool.not_eq_true] using h
    unfold crossRec
    rw [idle]
    rfl

theorem rewrites_takeCrossClear (s : State) (c : Fin 96) : Rewrites s c uncrossRec (takeCrossClear s c) := by
  unfold takeCrossClear crossClearDue
  split
  next h => exact Rewrites.congr (f := fun r => { r with crossRaised := false, quiet := 0 }) (kept_clear _ _ _) (by rw [uncrossRec, if_pos h])
  next h => exact (rewrites_refl s c).congr (by rw [uncrossRec, if_neg h]; rfl)

/-- The frame gives an unexpected green observation of the group by the circuit (R36). -/
def seenBy (s : State) (u : Fin 12) (f : SenseFrame) (xs : Vector Sample 8) (g : Fin 32) (tc : Fin 8 × Fin 96) : Bool :=
  litJudged s u f.window tc.1 xs[tc.1] && observedLit s f.vsup xs[tc.1] && decide (roleOf s tc.2 = some .green) &&
    !loggedCalled s u f.window tc.1 && decide (groupOf s tc.2 = some g)

/-- The marks with the seen marks of a circuit's unexpected green put in (R36). -/
def seenMarks (s : State) (u : Fin 12) (f : SenseFrame) (xs : Vector Sample 8) (tc : Fin 8 × Fin 96) : Vector Marks 32 :=
  tab fun g => { marksOf s.groups[g] with seen := s.groups[g].seen || seenBy s u f xs g tc }

theorem seenMarks_none {u : Fin 12} {f : SenseFrame} {xs : Vector Sample 8} {tc : Fin 8 × Fin 96} (h : ∀ g, seenBy s u f xs g tc = false) :
    seenMarks s u f xs tc = (kept s).marks := by
  unfold seenMarks
  simp only [h, Bool.or_false]
  rfl

theorem kept_passGreen {u : Fin 12} {f : SenseFrame} {xs : Vector Sample 8} {tc : Fin 8 × Fin 96}
    (hj : litJudged s u f.window tc.1 xs[tc.1] = true) :
    kept (passGreen s u f.window tc (observedLit s f.vsup xs[tc.1])) = { kept s with marks := seenMarks s u f xs tc } := by
  unfold passGreen
  split
  next h =>
    have seen_iff (g : Fin 32) : seenBy s u f xs g tc = decide (groupOf s tc.2 = some g) := by
      rw [seenBy, hj, Bool.true_and, h, Bool.true_and]
    split
    next g hg =>
      have marks : (kept (markSeen s g)).marks = seenMarks s u f xs tc := by
        refine congrArg tab (funext fun i => ?_)
        rw [seen_iff, hg]
        by_cases e : g = i
        · subst e
          unfold markSeen setGroup
          rw [getElem_upd_self]
          simp only [marksOf, decide_true, Bool.or_true]
        · unfold markSeen
          rw [marks_setGroup_of_ne _ e]
          simp only [Option.some.injEq, e, decide_false, Bool.or_false]
          rfl
      rw [← marks]
      rfl
    next hg => rw [seenMarks_none fun g => by rw [seen_iff, hg]; rfl]
  next h =>
    rw [seenMarks_none fun g => by rw [seenBy, hj, Bool.true_and, Bool.eq_false_of_not_eq_true h]; rfl]

theorem kept_litCircuit (u : Fin 12) (f : SenseFrame) (xs : Vector Sample 8) (s : State) (tc : Fin 8 × Fin 96) :
    kept (litCircuit u f xs s tc) =
      { (kept s).withCable (s.cable.withCircuit tc.2 (litRec s u f tc.1 xs[tc.1])) with marks := seenMarks s u f xs tc } := by
  unfold litCircuit
  dsimp only
  by_cases hj : litJudged s u f.window tc.1 xs[tc.1] = true
  · rw [if_pos hj]
    have passed := kept_passGreen hj
    generalize passGreen s u f.window tc (observedLit s f.vsup xs[tc.1]) = p at passed
    have cable : p.cable = s.cable := cable_eq_of_kept passed
    have tables : p.tables = s.tables := tables_eq_of_kept passed
    have worked : Rewrites p tc.2 (litRec s u f tc.1 xs[tc.1]) (takeCrossClear (takeCrossRaise
        (setCable p tc.2 fun r => countLit r (observedLit s f.vsup xs[tc.1])) tc.2) tc.2) := by
      refine (((rewrites_setCable p tc.2 _).trans (rewrites_takeCrossRaise _ tc.2)).trans (rewrites_takeCrossClear _ tc.2)).congr ?_
      rw [litRec, if_pos hj, ← tables]
      rfl
    rw [worked, passed, cable]
    rfl
  · have unseen : seenMarks s u f xs tc = (kept s).marks := seenMarks_none fun g => by
      rw [seenBy, Bool.eq_false_of_not_eq_true hj]; rfl
    rw [if_neg hj, unseen]
    by_cases ho : loggedOn s u f.window tc.1 = true
    · rw [if_pos ho]
      exact (rewrites_setCable s tc.2 _).congr (by rw [litRec, if_neg hj, if_pos ho])
    · rw [if_neg ho]
      exact (rewrites_refl s tc.2).congr (by rw [litRec, if_neg hj, if_neg ho]; rfl)

theorem ground_litCircuit (u : Fin 12) (f : SenseFrame) (xs : Vector Sample 8) (s : State) (tc : Fin 8 × Fin 96) :
    ground (litCircuit u f xs s tc) = ground s := by
  have raised (t : State) : ground (takeCrossRaise t tc.2) = ground t := by
    unfold takeCrossRaise; split <;> simp only [ground_raise, ground_setCable]
  have cleared (t : State) : ground (takeCrossClear t tc.2) = ground t := by
    unfold takeCrossClear; split <;> simp only [ground_clear, ground_setCable]
  have passed (lit : Bool) : ground (passGreen s u f.window tc lit) = ground s := by
    unfold passGreen
    repeat' split
    all_goals rfl
  unfold litCircuit
  dsimp only
  repeat' split
  all_goals simp only [raised, cleared, passed, ground_setCable]

/-! ## Earth leakage (R155, R156) -/

/-- A leakage record with EARTH_LEAKAGE raised at the confirm count and cleared at the clear count (R155, R156). -/
def leakRec (k : CableParams) (r : LeakRec) : LeakRec :=
  { r with raised := (r.raised || decide (k.leakConfirm ≤ r.run)) && decide (r.quiet < k.leakClear) }

/-- Unit `u`'s leakage record is rewritten by `f`, and nothing else of the kept part changes. -/
def RewritesLeak (s : State) (u : Fin 12) (f : LeakRec → LeakRec) (t : State) : Prop :=
  kept t = (kept s).withCable { s.cable with leak := upd s.cable.leak u f }

theorem RewritesLeak.trans {v : State} {u : Fin 12} {f g : LeakRec → LeakRec} (h : RewritesLeak s u f t) (h' : RewritesLeak t u g v) :
    RewritesLeak s u (g ∘ f) v := by
  unfold RewritesLeak at h h' ⊢
  rw [h', h, cable_eq_of_kept h, ← upd_upd]
  rfl

theorem RewritesLeak.congr {u : Fin 12} {f g : LeakRec → LeakRec} (h : RewritesLeak s u f t) (e : f s.cable.leak[u] = g s.cable.leak[u]) :
    RewritesLeak s u g t := by
  unfold RewritesLeak upd at h ⊢
  rw [h, e]

theorem rewritesLeak_refl (s : State) (u : Fin 12) : RewritesLeak s u id s := by
  unfold RewritesLeak
  rw [upd_id _ _ _ rfl]
  rfl

theorem rewrites_takeLeakRaise (s : State) (u : Fin 12) :
    RewritesLeak s u (fun r => { r with raised := r.raised || decide (s.tables.cable.leakConfirm ≤ r.run) }) (takeLeakRaise s u) := by
  unfold takeLeakRaise leakRaiseDue
  split
  next h =>
    simp only [Bool.and_eq_true, decide_eq_true_eq, Bool.not_eq_true'] at h
    obtain ⟨confirmed, -⟩ := h
    refine RewritesLeak.congr (f := fun r => { r with raised := true }) (kept_raise _ _ _ _) ?_
    simp only [confirmed, decide_true, Bool.or_true]
  next h =>
    refine (rewritesLeak_refl s u).congr ?_
    have idle : (s.cable.leak[u].raised || decide (s.tables.cable.leakConfirm ≤ s.cable.leak[u].run)) = s.cable.leak[u].raised := by
      cases hr : s.cable.leak[u].raised with
      | true => rfl
      | false => rw [hr] at h; simpa only [Bool.not_false, Bool.and_true, Bool.false_or, Bool.not_eq_true] using h
    rw [idle]
    rfl

theorem rewrites_takeLeakClear (s : State) (u : Fin 12) :
    RewritesLeak s u (fun r => { r with raised := r.raised && decide (r.quiet < s.tables.cable.leakClear) }) (takeLeakClear s u) := by
  unfold takeLeakClear leakClearDue
  split
  next h =>
    simp only [Bool.and_eq_true, decide_eq_true_eq] at h
    obtain ⟨-, quiet⟩ := h
    refine RewritesLeak.congr (f := fun r => { r with raised := false }) (kept_clear _ _ _) ?_
    simp only [Nat.not_lt.2 quiet, decide_false, Bool.and_false]
  next h =>
    refine (rewritesLeak_refl s u).congr ?_
    have idle : (s.cable.leak[u].raised && decide (s.cable.leak[u].quiet < s.tables.cable.leakClear)) = s.cable.leak[u].raised := by
      cases hr : s.cable.leak[u].raised with
      | false => rfl
      | true =>
        rw [hr, Bool.true_and, decide_eq_true_eq, Nat.not_le] at h
        rw [Bool.true_and, decide_eq_true h]
    rw [idle]
    rfl

/-- The leakage reading of a frame writes the unit's leakage record alone (R155, R156). -/
theorem rewrites_judgeLeak (s : State) (u : Fin 12) (f : SenseFrame) :
    RewritesLeak s u (fun r => leakRec s.tables.cable (countLeak s u f.window f.leakage r)) (judgeLeak s u f) := by
  have counted : RewritesLeak s u (countLeak s u f.window f.leakage) (setLeak s u (countLeak s u f.window f.leakage)) := rfl
  have raised := counted.trans (rewrites_takeLeakRaise _ u)
  have cleared := raised.trans (rewrites_takeLeakClear _ u)
  have tables : (takeLeakRaise (setLeak s u (countLeak s u f.window f.leakage)) u).tables = s.tables := tables_eq_of_kept raised
  rw [tables] at cleared
  exact cleared

theorem judgeLeak_queue (s : State) (u : Fin 12) (f : SenseFrame) : (judgeLeak s u f).bus.queue = s.bus.queue := by
  have raised (t : State) (k : Kind) (n : Nat) (d : Detail) : (raise t k n d).bus.queue = t.bus.queue :=
    ground_queue (ground_raise t k n d)
  have cleared (t : State) (k : Kind) (n : Nat) : (clear t k n).bus.queue = t.bus.queue := ground_queue (ground_clear t k n)
  unfold judgeLeak takeLeakClear takeLeakRaise
  repeat' split
  all_goals simp only [raised, cleared, setLeak]

/-! ## Red status (R143) -/

/-- Red status is read from the tables, the map, the proving records and the cable records. -/
theorem redStatusNow_congr (ht : t.tables = s.tables) (hm : t.map = s.map) (hp : t.prov.circuits = s.prov.circuits)
    (hc : t.cable.circuits = s.cable.circuits) : redStatusNow t = redStatusNow s := by
  have judged : givesRed t = givesRed s ∧ redJudged t = redJudged s := by
    constructor <;> funext c <;> simp only [givesRed, redJudged, cableActive, forcedOff, hp, hc]
  have sets : setStatus t = setStatus s := by funext cs; simp only [setStatus, judged]
  funext g
  have statuses : setStatuses t g = setStatuses s g := by simp only [setStatuses, sets, live_congr ht, ht, hm]
  unfold redStatusNow
  have active : cableActive t = cableActive s := by funext c; simp only [cableActive, hc]
  rw [hm, hp, statuses, active, live_congr ht]

theorem recomputeRed_queue (s : State) : (recomputeRed s).bus.queue = s.bus.queue := by
  have handed (before : Vector RedStatus 32) (t : State) (g : Fin 32) : ground (handRed before t g) = ground t := by
    unfold handRed
    dsimp only
    repeat' split
    all_goals simp only [ground_raise, ground_clear]
  unfold recomputeRed
  dsimp only
  rw [settle_queue]
  exact ground_queue (foldl_inv ground _ (handed s.prov.red) (idx 32) _)

end Sys2Proof.Machine

namespace Sys2Proof.Machine

open Sys2Proof

variable {s t : State} {c : Fin 96} {u : Fin 12} {v : Nat} {f : SenseFrame} {xs : Vector Sample 8}

/-! ## What each stage of cable supervision writes of a record (R146) -/

/-- The fields of a record that a test result writes (R148, R149). -/
def testPart (r : CableRec) : Nat × Option Nat × Option (Nat × TestClass) × Option Mismatch × Nat × Bool × Bool :=
  (r.sinceTest, r.inFlight, r.lastTest, r.cand, r.mrun, r.openRaised, r.shortRaised)

/-- The fields of a record that an OVC flag writes (R152). -/
def tripPart (r : CableRec) : Retry × Nat × Bool × Nat × Nat × Bool := (r.retry, r.retryTimer, r.retryFresh, r.trips, r.cleanOn, r.ovcRaised)

/-- The fields of a record that the observed-lit work writes (R150, R151). -/
def litPart (r : CableRec) : Nat × Nat × Bool := (r.litRun, r.quiet, r.crossRaised)

theorem confirmedRec_frame (n : Nat) (m : Mismatch) (r : CableRec) :
    tripPart (confirmedRec n m r) = tripPart r ∧ litPart (confirmedRec n m r) = litPart r := by
  unfold confirmedRec; split <;> exact ⟨rfl, rfl⟩

theorem countMismatch_frame (r : CableRec) (m : Mismatch) :
    tripPart (countMismatch r m) = tripPart r ∧ litPart (countMismatch r m) = litPart r := by
  unfold countMismatch; split <;> exact ⟨rfl, rfl⟩

theorem testedRec_frame (s : State) (c : Fin 96) (residual : Nat) (r : CableRec) :
    tripPart (testedRec s c residual r) = tripPart r ∧ litPart (testedRec s c residual r) = litPart r := by
  unfold testedRec
  dsimp only
  split
  · exact ⟨rfl, rfl⟩
  · exact ⟨rfl, rfl⟩
  · simp only [confirmedRec_frame, countMismatch_frame]
    exact ⟨rfl, rfl⟩

theorem resolvedRec_frame (s : State) (c : Fin 96) (v : Nat) (x : Sample) (r : CableRec) :
    tripPart (resolvedRec s c v x r) = tripPart r ∧ litPart (resolvedRec s c v x r) = litPart r := by
  unfold resolvedRec
  repeat' split
  · exact testedRec_frame ..
  · exact ⟨rfl, rfl⟩
  · exact ⟨rfl, rfl⟩

theorem trippedRec_frame (s : State) (x : Sample) (r : CableRec) :
    testPart (trippedRec s x r) = testPart r ∧ litPart (trippedRec s x r) = litPart r := by
  unfold trippedRec
  repeat' split
  all_goals exact ⟨rfl, rfl⟩

theorem litRec_frame (s : State) (u : Fin 12) (f : SenseFrame) (k : Fin 8) (x : Sample) (r : CableRec) :
    testPart (litRec s u f k x r) = testPart r ∧ tripPart (litRec s u f k x r) = tripPart r := by
  unfold litRec uncrossRec countLit
  repeat' split
  all_goals exact ⟨rfl, rfl⟩

/-! ### Test results (R148, R149) -/

theorem loadClassOf_led (s : State) (c : Fin 96) :
    (s.tables.circuit[c].loadClass = 1 ∨ s.tables.circuit[c].loadClass = 2) ↔ loadClassOf s c ≠ .incandescent := by
  unfold loadClassOf
  match s.tables.circuit[c].loadClass with
  | 0 => decide
  | 1 => decide
  | 2 => decide
  | n + 3 => simp [LoadClass.ofCode]

theorem judgeTest_agree {l : LoadClass} {k : TestClass} (h : (k = .low ∧ ¬ l ≠ .incandescent) ∨ (k = .high ∧ l ≠ .incandescent)) :
    judgeTest l k = .agree := by
  rcases h with ⟨rfl, h⟩ | ⟨rfl, h⟩
  · rw [not_not.1 h]; rfl
  · cases l
    · exact absurd rfl h
    · rfl
    · rfl

theorem judgeTest_mismatch {l : LoadClass} {k : TestClass} {m : Mismatch}
    (h : (k = .isOpen ∧ m = .isOpen) ∨ (k = .low ∧ l ≠ .incandescent ∧ m = .short)) : judgeTest l k = .mismatch m := by
  rcases h with ⟨rfl, rfl⟩ | ⟨rfl, h, rfl⟩
  · rfl
  · cases l
    · exact absurd rfl h
    · rfl
    · rfl

/-- A judged mismatch leaves what is recorded of the result. -/
theorem confirmedRec_recorded (n : Nat) (m : Mismatch) (r : CableRec) :
    (confirmedRec n m (countMismatch r m)).sinceTest = r.sinceTest ∧ (confirmedRec n m (countMismatch r m)).inFlight = r.inFlight ∧
    (confirmedRec n m (countMismatch r m)).lastTest = r.lastTest := by
  unfold confirmedRec
  split <;> unfold countMismatch <;> split <;> exact ⟨rfl, rfl, rfl⟩

/-- A result is recorded with its class (R148). -/
theorem testedRec_recorded (s : State) (c : Fin 96) (residual : Nat) (r : CableRec) :
    (testedRec s c residual r).sinceTest = 0 ∧ (testedRec s c residual r).inFlight = r.inFlight ∧
    (testedRec s c residual r).lastTest = some (residual, testClass s residual) := by
  unfold testedRec
  dsimp only
  split
  · exact ⟨rfl, rfl, rfl⟩
  · exact ⟨rfl, rfl, rfl⟩
  · exact confirmedRec_recorded ..

/-- A test in flight for the window ends, and another goes on (R148). -/
theorem resolvedRec_inFlight (s : State) (c : Fin 96) (v : Nat) (x : Sample) (r : CableRec) :
    (r.inFlight ≠ some v → (resolvedRec s c v x r).inFlight = r.inFlight) ∧
    (r.inFlight = some v → (resolvedRec s c v x r).inFlight = none) := by
  refine ⟨fun h => by rw [resolvedRec, if_neg h], fun h => ?_⟩
  rw [resolvedRec, if_pos h]
  split
  · exact (testedRec_recorded ..).2.1
  · rfl

/-- Without a result the test fields stay (R148). -/
theorem resolvedRec_untested {x : Sample} {r : CableRec} (h : ¬ (r.inFlight = some v ∧ x.tested = true)) :
    testPart { resolvedRec s c v x r with inFlight := r.inFlight } = testPart r := by
  unfold resolvedRec
  by_cases hv : r.inFlight = some v
  · rw [if_pos hv, if_neg fun ht => h ⟨hv, ht⟩]
  · rw [if_neg hv]

theorem resolvedRec_tested {x : Sample} {r : CableRec} (hv : r.inFlight = some v) (ht : x.tested = true) :
    resolvedRec s c v x r = testedRec s c x.residual { r with inFlight := none } := by rw [resolvedRec, if_pos hv, if_pos ht]

/-- A result is recorded and judged by the class it shows and the class expected (R149). -/
theorem testedRec_fields (s : State) (c : Fin 96) (residual : Nat) (r : CableRec) {y : CableRec}
    (hy : testPart y = testPart (testedRec s c residual r)) {k : TestClass} (hk : k = testClass s residual)
    {led : Prop} (hl : led ↔ loadClassOf s c ≠ .incandescent) :
    y.sinceTest = 0 ∧ y.lastTest = some (residual, k) ∧
    ((k = .low ∧ ¬ led) ∨ (k = .high ∧ led) → y.cand = none ∧ y.mrun = 0 ∧ y.openRaised = false ∧ y.shortRaised = false) ∧
    (k = .high → ¬ led → y.cand = none ∧ y.mrun = 0 ∧ y.openRaised = r.openRaised ∧ y.shortRaised = r.shortRaised) ∧
    ∀ (m : Mismatch) (n : Nat), (k = .isOpen ∧ m = .isOpen) ∨ (k = .low ∧ led ∧ m = .short) →
      n = (if r.cand = some m then min 10 (r.mrun + 1) else 1) →
      y.cand = some m ∧ y.mrun = n ∧
      (s.tables.cable.testConfirm ≤ n → y.openRaised = decide (m = .isOpen) ∧ y.shortRaised = decide (m = .short)) ∧
      (n < s.tables.cable.testConfirm → y.openRaised = r.openRaised ∧ y.shortRaised = r.shortRaised) := by
  subst hk
  rw [hl]
  simp only [testPart, Prod.mk.injEq] at hy
  obtain ⟨since, -, last, cand, mrun, opened, short⟩ := hy
  rw [since, last, cand, mrun, opened, short]
  obtain ⟨tested, -, classed⟩ := testedRec_recorded s c residual r
  refine ⟨tested, classed, fun h => ?_, fun h hled => ?_, fun m n h hn => ?_⟩
  · simp only [testedRec, judgeTest_agree h, and_self]
  · have doubtful : judgeTest (loadClassOf s c) (testClass s residual) = .doubtful := by rw [h, not_not.1 hled]; rfl
    simp only [testedRec, doubtful, and_self]
  · have counted : countMismatch { r with sinceTest := 0, lastTest := some (residual, testClass s residual) } m =
        { r with sinceTest := 0, lastTest := some (residual, testClass s residual), cand := some m, mrun := n } := by
      subst hn
      unfold countMismatch
      by_cases hc : r.cand = some m
      · simp only [hc, if_true, bump]
      · simp only [hc, if_false]
    have confirmed : testedRec s c residual r = confirmedRec s.tables.cable.testConfirm m
        { r with sinceTest := 0, lastTest := some (residual, testClass s residual), cand := some m, mrun := n } := by
      simp only [testedRec, judgeTest_mismatch h, counted]
    rw [confirmed]
    by_cases hn : s.tables.cable.testConfirm ≤ n
    · rw [confirmedRec, if_pos hn]
      exact ⟨rfl, rfl, fun _ => ⟨rfl, rfl⟩, fun h => absurd h (Nat.not_lt.2 hn)⟩
    · rw [confirmedRec, if_neg hn]
      exact ⟨rfl, rfl, fun h => absurd h hn, fun _ => ⟨rfl, rfl⟩⟩

/-! ### Overcurrent (R152) -/

theorem trips_iff {x : Sample} {r : CableRec} : trips x r = true ↔ x.ovc = true ∧ r.retry = .normal := by
  simp only [trips, Bool.and_eq_true, decide_eq_true_eq]

/-- A circuit that trips waits for its retry, or is latched beyond the most retries (R152). -/
theorem trippedRec_fields {x : Sample} {r y : CableRec} (h : trips x r = true) (hy : tripPart y = tripPart (trippedRec s x r)) :
    y.trips = min 11 (r.trips + 1) ∧ y.cleanOn = 0 ∧
    (min 11 (r.trips + 1) ≤ s.tables.cable.maxRetries →
      y.retry = .retryWait ∧ y.retryTimer = 0 ∧ y.retryFresh = !s.inPulse ∧ y.ovcRaised = r.ovcRaised) ∧
    (s.tables.cable.maxRetries < min 11 (r.trips + 1) →
      y.retry = .latched ∧ y.retryTimer = r.retryTimer ∧ y.retryFresh = r.retryFresh ∧ y.ovcRaised = true) := by
  simp only [tripPart, Prod.mk.injEq] at hy
  obtain ⟨retry, timer, fresh, count, clean, raised⟩ := hy
  rw [retry, timer, fresh, count, clean, raised, trippedRec, if_pos h]
  unfold bump
  by_cases few : min 11 (r.trips + 1) ≤ s.tables.cable.maxRetries
  · rw [if_pos few]
    exact ⟨rfl, rfl, fun _ => ⟨rfl, rfl, rfl, rfl⟩, fun many => absurd many (Nat.not_lt.2 few)⟩
  · rw [if_neg few]
    exact ⟨rfl, rfl, fun h => absurd h few, fun _ => ⟨rfl, rfl, rfl, rfl⟩⟩

/-! ### Observed lit (R150, R151) -/

/-- A circuit not judged keeps its counts, but for the run of one commanded ON (R151). -/
theorem litRec_unjudged {k : Fin 8} {x : Sample} {r y : CableRec} (h : ¬ litJudged s u f.window k x = true)
    (hy : litPart y = litPart (litRec s u f k x r)) :
    y.quiet = r.quiet ∧ y.crossRaised = r.crossRaised ∧ (loggedOn s u f.window k = true → y.litRun = 0) ∧
      (¬ loggedOn s u f.window k = true → y.litRun = r.litRun) := by
  simp only [litPart, Prod.mk.injEq] at hy
  obtain ⟨run, quiet, raised⟩ := hy
  rw [run, quiet, raised, litRec, if_neg h]
  by_cases ho : loggedOn s u f.window k = true
  · rw [if_pos ho]; exact ⟨rfl, rfl, fun _ => rfl, fun h => absurd ho h⟩
  · rw [if_neg ho]; exact ⟨rfl, rfl, fun h => absurd h ho, fun _ => rfl⟩

/-- A judged circuit counts, and CROSS_FEED is held from the confirm count until quiet 25 (R151). -/
theorem litRec_judged {k : Fin 8} {x : Sample} {r y : CableRec} (h : litJudged s u f.window k x = true)
    (hy : litPart y = litPart (litRec s u f k x r)) {n q : Nat}
    (lit : observedLit s f.vsup x = true → n = min 20 (r.litRun + 1) ∧ q = 0)
    (unlit : ¬ observedLit s f.vsup x = true → n = 0 ∧ q = if r.crossRaised = true then min 25 (r.quiet + 1) else r.quiet) :
    y.litRun = n ∧
    (if (r.crossRaised = true ∨ s.tables.cable.crossConfirm ≤ n) ∧ 25 ≤ q then y.crossRaised = false ∧ y.quiet = 0
     else y.quiet = q ∧ (y.crossRaised = true ↔ r.crossRaised = true ∨ s.tables.cable.crossConfirm ≤ n)) := by
  have counted : countLit r (observedLit s f.vsup x) = { r with litRun := n, quiet := q } := by
    unfold countLit
    by_cases hl : observedLit s f.vsup x = true
    · obtain ⟨rfl, rfl⟩ := lit hl; rw [if_pos hl]; rfl
    · obtain ⟨rfl, rfl⟩ := unlit hl; rw [if_neg hl]; rfl
  simp only [litPart, Prod.mk.injEq] at hy
  obtain ⟨run, quiet, raised⟩ := hy
  rw [run, quiet, raised, litRec, if_pos h, counted, uncrossRec, crossRec]
  simp only [Bool.and_eq_true, Bool.or_eq_true, decide_eq_true_eq]
  split
  · exact ⟨rfl, rfl, rfl⟩
  · refine ⟨rfl, rfl, ?_⟩
    rw [Bool.or_eq_true, decide_eq_true_eq]

end Sys2Proof.Machine

namespace Sys2Proof.Machine

open Sys2Proof

variable {s t r : State} {c : Fin 96} {u : Fin 12} {v : Nat} {f : SenseFrame} {xs : Vector Sample 8}

/-! ## Cable supervision of a frame, circuit by circuit (R157) -/

theorem resolvedRec_congr (h : ground t = ground s) : resolvedRec t = resolvedRec s := by
  have tested : testedRec t = testedRec s := by
    funext c residual r
    simp only [testedRec, testClass, loadClassOf, ground_tables h]
  funext c v x r
  simp only [resolvedRec, tested]

theorem trippedRec_congr (h : ground t = ground s) : trippedRec t = trippedRec s := by
  funext x r
  simp only [trippedRec, ground_tables h, ground_inPulse h]

theorem litRec_congr (h : ground t = ground s) : litRec t = litRec s := by
  funext u f k x r
  simp only [litRec, litJudged_congr h, loggedOn_congr h, observedLit_congr h, ground_tables h]

theorem seenBy_congr (h : ground t = ground s) : seenBy t = seenBy s := by
  funext u f xs g tc
  have role : roleOf t = roleOf s := by funext c; simp only [roleOf, ground_tables h]
  have group : groupOf t = groupOf s := by funext c; simp only [groupOf, ground_tables h]
  unfold seenBy
  rw [litJudged_congr h, observedLit_congr h, loggedCalled_congr h, role, group]

/-- The records of one circuit with cable supervision and with lamp proving. -/
def recordsOf (s : State) (c : Fin 96) : CableRec × ProvRec := (s.cable.circuits[c], s.prov.circuits[c])

/-- The records of a circuit after work that rewrites those of one circuit. -/
theorem recordsOf_rewrites {d : Fin 96} {x : CableRec → CableRec} {p : ProvRec → ProvRec} (hc : t.cable = s.cable.withCircuit d x)
    (hp : t.prov = s.prov.withCircuit d p) :
    (d ≠ c → recordsOf t c = recordsOf s c) ∧ recordsOf t d = (x s.cable.circuits[d], p s.prov.circuits[d]) := by
  simp only [recordsOf, hc, hp, Prod.mk.injEq]
  exact ⟨fun h => ⟨getElem_upd_of_ne _ _ _ _ h, getElem_upd_of_ne _ _ _ _ h⟩, getElem_upd_self .., getElem_upd_self ..⟩

theorem withCircuit_id (p : Proving) (c : Fin 96) : p.withCircuit c id = p := by
  unfold Proving.withCircuit; rw [upd_id _ _ _ rfl]

theorem recordsOf_resolveTest (s : State) (tc : Fin 8 × Fin 96) :
    (tc.2 ≠ c → recordsOf (resolveTest v (some xs) s tc) c = recordsOf s c) ∧
    recordsOf (resolveTest v (some xs) s tc) tc.2 = (resolvedRec s tc.2 v xs[tc.1] s.cable.circuits[tc.2], s.prov.circuits[tc.2]) := by
  have h := rewrites_resolveTest s v xs tc
  exact recordsOf_rewrites h.cable ((prov_eq_of_kept h).trans (withCircuit_id s.prov tc.2).symm)

theorem recordsOf_ovcCircuit (s : State) (tc : Fin 8 × Fin 96) :
    (tc.2 ≠ c → recordsOf (ovcCircuit xs s tc) c = recordsOf s c) ∧
    recordsOf (ovcCircuit xs s tc) tc.2 =
      (trippedRec s xs[tc.1] s.cable.circuits[tc.2], forcedRec xs[tc.1] s.cable.circuits[tc.2] s.prov.circuits[tc.2]) := by
  have h := kept_ovcCircuit xs s tc
  exact recordsOf_rewrites (cable_eq_of_kept h) (prov_eq_of_kept h)

theorem recordsOf_litCircuit (s : State) (tc : Fin 8 × Fin 96) :
    (tc.2 ≠ c → recordsOf (litCircuit u f xs s tc) c = recordsOf s c) ∧
    recordsOf (litCircuit u f xs s tc) tc.2 = (litRec s u f tc.1 xs[tc.1] s.cable.circuits[tc.2], s.prov.circuits[tc.2]) := by
  have h := kept_litCircuit u f xs s tc
  exact recordsOf_rewrites (cable_eq_of_kept h) ((prov_eq_of_kept h).trans (withCircuit_id s.prov tc.2).symm)

/-- Cable supervision's work on the circuits of a frame, before the leakage reading (R157). -/
def superviseCircuits (s : State) (u : Fin 12) (v : Nat) (f : SenseFrame) (xs : Vector Sample 8) : State :=
  (circuitsOf s u).foldl (litCircuit u f xs) ((circuitsOf s u).foldl (ovcCircuit xs) (resolveTests s u v (some xs)))

theorem superviseFrame_eq (s : State) (u : Fin 12) (v : Nat) (f : SenseFrame) (xs : Vector Sample 8) :
    superviseFrame s u v f xs = recomputeRed (judgeLeak (superviseCircuits s u v f xs) u f) := rfl

theorem ground_resolveTests (s : State) (u : Fin 12) (v : Nat) (xs : Option (Vector Sample 8)) : ground (resolveTests s u v xs) = ground s :=
  foldl_inv ground _ (ground_resolveTest v xs) _ s

theorem ground_ovcCircuits (s : State) (l : List (Fin 8 × Fin 96)) : ground (l.foldl (ovcCircuit xs) s) = ground s :=
  foldl_inv ground _ (ground_ovcCircuit xs) l s

theorem ground_superviseCircuits (s : State) (u : Fin 12) (v : Nat) (f : SenseFrame) (xs : Vector Sample 8) :
    ground (superviseCircuits s u v f xs) = ground s := by
  unfold superviseCircuits
  rw [foldl_inv ground _ (ground_litCircuit u f xs), ground_ovcCircuits, ground_resolveTests]

/-- Circuits of other units are left. -/
theorem recordsOf_superviseCircuits_away (h : ∀ k : Fin 8, circuitAt s u k ≠ some c) :
    recordsOf (superviseCircuits s u v f xs) c = recordsOf s c := by
  have away : ∀ tc ∈ circuitsOf s u, tc.2 ≠ c := fun tc htc e => h tc.1 (e ▸ mem_circuitsOf.1 htc)
  unfold superviseCircuits resolveTests
  rw [foldl_away _ (recordsOf · c) _ fun t tc htc => (recordsOf_litCircuit t tc).1 (away tc htc),
    foldl_away _ (recordsOf · c) _ fun t tc htc => (recordsOf_ovcCircuit t tc).1 (away tc htc),
    foldl_away _ (recordsOf · c) _ fun t tc htc => (recordsOf_resolveTest t tc).1 (away tc htc)]

/-- A circuit on one terminal of the unit has its test resolved, its OVC flag taken and its observed lit judged, in this order (R157). -/
theorem recordsOf_superviseCircuits {k : Fin 8} (hk : circuitAt s u k = some c) (once : ∀ k' : Fin 8, circuitAt s u k' = some c → k' = k) :
    recordsOf (superviseCircuits s u v f xs) c =
      (litRec s u f k xs[k] (trippedRec s xs[k] (resolvedRec s c v xs[k] s.cable.circuits[c])),
        forcedRec xs[k] (resolvedRec s c v xs[k] s.cable.circuits[c]) s.prov.circuits[c]) := by
  have mem : (k, c) ∈ circuitsOf s u := mem_circuitsOf.2 hk
  have away : ∀ tc ∈ circuitsOf s u, tc ≠ (k, c) → tc.2 ≠ c := fun tc htc ne e =>
    ne (Prod.ext (once tc.1 (e ▸ mem_circuitsOf.1 htc)) e)
  have nodup := nodup_circuitsOf s u
  have resolved := foldl_once (resolveTest v (some xs)) (recordsOf · c) ground (fun x => (resolvedRec s c v xs[k] x.1, x.2))
    (ground_resolveTest v (some xs)) (k, c) _ nodup mem (fun t tc htc ne => (recordsOf_resolveTest t tc).1 (away tc htc ne)) s
    (fun t ht => by rw [(recordsOf_resolveTest (c := c) t (k, c)).2, resolvedRec_congr ht]; rfl)
  have tripped := foldl_once (ovcCircuit xs) (recordsOf · c) ground (fun x => (trippedRec s xs[k] x.1, forcedRec xs[k] x.1 x.2))
    (ground_ovcCircuit xs) (k, c) _ nodup mem (fun t tc htc ne => (recordsOf_ovcCircuit t tc).1 (away tc htc ne))
    (resolveTests s u v (some xs))
    (fun t ht => by rw [(recordsOf_ovcCircuit (c := c) t (k, c)).2, trippedRec_congr (ht.trans (ground_resolveTests ..))]; rfl)
  have lit := foldl_once (litCircuit u f xs) (recordsOf · c) ground (fun x => (litRec s u f k xs[k] x.1, x.2))
    (ground_litCircuit u f xs) (k, c) _ nodup mem (fun t tc htc ne => (recordsOf_litCircuit t tc).1 (away tc htc ne))
    ((circuitsOf s u).foldl (ovcCircuit xs) (resolveTests s u v (some xs)))
    (fun t ht => by
      rw [(recordsOf_litCircuit (c := c) t (k, c)).2, litRec_congr (ht.trans ((ground_ovcCircuits ..).trans (ground_resolveTests ..)))]; rfl)
  unfold superviseCircuits
  rw [lit, tripped]
  unfold resolveTests
  rw [resolved]
  rfl

/-! ### The marks (R36) -/

theorem marks_resolveTests (s : State) (u : Fin 12) (v : Nat) (xs : Vector Sample 8) :
    (kept (resolveTests s u v (some xs))).marks = (kept s).marks :=
  foldl_inv (fun t => (kept t).marks) _ (fun t tc => (congrArg Kept.marks (rewrites_resolveTest t v xs tc)).trans rfl) _ s

theorem marks_ovcCircuits (xs : Vector Sample 8) (l : List (Fin 8 × Fin 96)) (s : State) :
    (kept (l.foldl (ovcCircuit xs) s)).marks = (kept s).marks :=
  foldl_inv (fun t => (kept t).marks) _ (fun t tc => (congrArg Kept.marks (kept_ovcCircuit xs t tc)).trans rfl) l s

theorem marks_eq_kept (s : State) (g : Fin 32) : marksOf s.groups[g] = (kept s).marks[g] := by rw [kept, getElem_tab]

/-- The seen marks gather what the circuits of the frame give (R36). -/
theorem marks_litCircuits (l : List (Fin 8 × Fin 96)) (h : ground t = ground s) (g : Fin 32) :
    marksOf (l.foldl (litCircuit u f xs) t).groups[g] =
      { marksOf t.groups[g] with seen := t.groups[g].seen || l.any (seenBy s u f xs g) } := by
  induction l generalizing t with
  | nil => simp only [List.foldl_nil, List.any_nil, Bool.or_false]; rfl
  | cons tc l ih =>
    have one : marksOf (litCircuit u f xs t tc).groups[g] =
        { marksOf t.groups[g] with seen := t.groups[g].seen || seenBy s u f xs g tc } := by
      rw [marks_eq_kept, kept_litCircuit, seenMarks, getElem_tab, seenBy_congr h]
    have seen : (litCircuit u f xs t tc).groups[g].seen = (t.groups[g].seen || seenBy s u f xs g tc) := congrArg Marks.seen one
    rw [List.foldl_cons, ih ((ground_litCircuit u f xs t tc).trans h), one, seen, List.any_cons, Bool.or_assoc]

theorem marks_superviseCircuits (s : State) (u : Fin 12) (v : Nat) (f : SenseFrame) (xs : Vector Sample 8) (g : Fin 32) :
    marksOf (superviseCircuits s u v f xs).groups[g] =
      { marksOf s.groups[g] with seen := s.groups[g].seen || (circuitsOf s u).any (seenBy s u f xs g) } := by
  have before : marksOf ((circuitsOf s u).foldl (ovcCircuit xs) (resolveTests s u v (some xs))).groups[g] = marksOf s.groups[g] := by
    rw [marks_eq_kept, marks_ovcCircuits, marks_resolveTests, marks_eq_kept]
  have seen : ((circuitsOf s u).foldl (ovcCircuit xs) (resolveTests s u v (some xs))).groups[g].seen = s.groups[g].seen :=
    congrArg Marks.seen before
  unfold superviseCircuits
  rw [marks_litCircuits _ ((ground_ovcCircuits ..).trans (ground_resolveTests ..)), before, seen]

/-! ### The whole stage -/

theorem countLeak_congr (h : ground t = ground s) : countLeak t = countLeak s := by
  funext u w leakage r
  simp only [countLeak, onCircuits_congr h, ground_tables h]

/-- What the stage leaves, besides the records of the unit's circuits, the marks and the unit's leakage (R157). -/
theorem superviseFrame_frame (s : State) (u : Fin 12) (v : Nat) (f : SenseFrame) (xs : Vector Sample 8) :
    (superviseFrame s u v f xs).bus = s.bus ∧ (superviseFrame s u v f xs).tables = s.tables ∧ (superviseFrame s u v f xs).map = s.map ∧
    (superviseFrame s u v f xs).clock = s.clock ∧ (superviseFrame s u v f xs).inputs = s.inputs ∧
    (superviseFrame s u v f xs).prov =
      { s.prov with circuits := (superviseFrame s u v f xs).prov.circuits, red := (superviseFrame s u v f xs).prov.red } ∧
    (∀ g : Fin 32, (superviseFrame s u v f xs).prov.red[g] = redStatusNow (superviseFrame s u v f xs) g) ∧
    (∀ c : Fin 96, recordsOf (superviseFrame s u v f xs) c = recordsOf (superviseCircuits s u v f xs) c) ∧
    (superviseFrame s u v f xs).cable.leak =
      upd s.cable.leak u (fun r => leakRec s.tables.cable (countLeak s u f.window f.leakage r)) ∧
    (∀ g : Fin 32, marksOf (superviseFrame s u v f xs).groups[g] = marksOf (superviseCircuits s u v f xs).groups[g]) := by
  rw [superviseFrame_eq]
  have hg := ground_superviseCircuits s u v f xs
  generalize superviseCircuits s u v f xs = a at hg ⊢
  have hl := rewrites_judgeLeak a u f
  have hq := judgeLeak_queue a u f
  generalize judgeLeak a u f = b at hl hq ⊢
  have hr := kept_recomputeRed b
  have hq' := recomputeRed_queue b
  generalize recomputeRed b = r at hr hq' ⊢
  have cable : b.cable = { a.cable with
      leak := upd a.cable.leak u fun r => leakRec a.tables.cable (countLeak a u f.window f.leakage r) } := cable_eq_of_kept hl
  have prov : b.prov = a.prov := prov_eq_of_kept hl
  have cable' : r.cable = b.cable := cable_eq_of_kept hr
  have prov' : r.prov = { b.prov with red := tab fun g => redStatusNow b g } := prov_eq_of_kept hr
  have tables' : r.tables = b.tables := tables_eq_of_kept hr
  have map' : r.map = b.map := map_eq_of_kept hr
  have bus : r.bus = a.bus := by
    have kept_bus : (kept r).bus = (kept a).bus := by rw [hr, hl]; rfl
    exact congrArg₂ (fun (b : Bus) (q : List Report) => { b with queue := q }) kept_bus (hq'.trans hq)
  refine ⟨bus.trans (ground_bus hg), ?_, ?_, ?_, ?_, ?_, fun g => ?_, fun c => ?_, ?_, fun g => ?_⟩
  · rw [tables', tables_eq_of_kept hl]; exact ground_tables hg
  · rw [map', map_eq_of_kept hl]; exact ground_map hg
  · rw [clock_eq_of_kept hr]; exact (clock_eq_of_kept hl).trans (ground_clock hg)
  · rw [inputs_eq_of_kept hr]; exact (inputs_eq_of_kept hl).trans (ground_inputs hg)
  · rw [prov', prov, ground_prov hg]
  · have same : redStatusNow r = redStatusNow b := redStatusNow_congr tables' map' (by rw [prov']) (by rw [cable'])
    rw [same, prov', getElem_tab]
  · simp only [recordsOf, cable', prov', cable, prov]
  · rw [cable', cable, countLeak_congr hg, ground_tables hg, ground_leak hg]
  · rw [marks_eq_kept, hr, marks_eq_kept, Kept.withProv, hl]
    rfl

end Sys2Proof.Machine

namespace Sys2Proof.Machine

open Sys2Proof

variable {s t : State} {c : Fin 96} {u : Fin 12} {v w : Nat} {k : Fin 8} {f : SenseFrame} {x : Sample} {xs : Vector Sample 8}

/-! ## What a frame judges, read from the composition log (R114, R150) -/

theorem loggedOn_iff : loggedOn s u w k = true ↔
    ∃ r : WinRec, s.bus.units[u].log.find? (fun r => decide (r.window = w)) = some r ∧ mem r.on k.val = true := by
  unfold loggedOn logOf
  split
  next r hr => simp only [hr, Option.some.injEq, exists_eq_left']
  next hr => simp only [hr, reduceCtorEq, false_and, exists_false, Bool.false_eq_true]

theorem loggedTest_eq_false : loggedTest s u w k = false ↔
    ∀ r : WinRec, s.bus.units[u].log.find? (fun r => decide (r.window = w)) = some r → mem r.test k.val = false := by
  unfold loggedTest logOf
  split
  next r hr => simp only [hr, Option.some.injEq, forall_eq']
  next hr => simp only [hr, reduceCtorEq, false_imp_iff, implies_true]

theorem loggedCalled_eq_false : loggedCalled s u w k = false ↔
    ∀ r : WinRec, s.bus.units[u].log.find? (fun r => decide (r.window = w)) = some r → mem r.called k.val = false := by
  unfold loggedCalled logOf
  split
  next r hr => simp only [hr, Option.some.injEq, forall_eq']
  next hr => simp only [hr, reduceCtorEq, false_imp_iff, implies_true]

theorem loggedOnBefore_iff : loggedOnBefore s u w k = true ↔ w ≠ 255 ∧ loggedOn s u ((w + 254) % 255) k = true := by
  unfold loggedOnBefore prevWin
  by_cases h : w = 255
  · simp only [h, if_true, Bool.false_eq_true, ne_eq, not_true_eq_false, false_and]
  · simp only [h, if_false, ne_eq, not_false_eq_true, true_and]

theorem litJudged_iff : litJudged s u w k x = true ↔
    ¬ loggedOn s u w k = true ∧ ¬ (w ≠ 255 ∧ loggedOn s u ((w + 254) % 255) k = true) ∧ x.tested = false ∧
      ∀ r : WinRec, s.bus.units[u].log.find? (fun r => decide (r.window = w)) = some r → mem r.test k.val = false := by
  rw [← loggedOnBefore_iff, ← loggedTest_eq_false]
  simp only [litJudged, Bool.and_eq_true, Bool.not_eq_true', Bool.not_eq_true]
  tauto

theorem observedLit_iff {vsup : Nat} : observedLit s vsup x = true ↔ s.tables.cable.offCurrent < x.isum ∨
    (if s.tables.cable.mode = 0 then s.tables.cable.vFix
     else if s.tables.cable.mode = 1 then s.tables.cable.ratio * vsup / 1000
     else min s.tables.cable.vFix (s.tables.cable.ratio * vsup / 1000)) < x.vterm := by
  have threshold : litThreshold s vsup = if s.tables.cable.mode = 0 then s.tables.cable.vFix
      else if s.tables.cable.mode = 1 then s.tables.cable.ratio * vsup / 1000
      else min s.tables.cable.vFix (s.tables.cable.ratio * vsup / 1000) := by
    unfold litThreshold
    generalize s.tables.cable.mode = m
    match m with
    | 0 => rfl
    | 1 => rfl
    | 2 => rfl
    | n + 3 => rfl
  rw [observedLit, threshold, Bool.or_eq_true, decide_eq_true_eq, decide_eq_true_eq, or_comm]

theorem mem_testedBy : c ∈ testedBy s u v xs ↔
    s.cable.circuits[c].inFlight = some v ∧ ∃ k : Fin 8, circuitAt s u k = some c ∧ xs[k].tested = true := by
  unfold testedBy
  rw [List.mem_map]
  constructor
  · rintro ⟨⟨k, d⟩, h, rfl⟩
    rw [List.mem_filter, mem_circuitsOf, Bool.and_eq_true, decide_eq_true_eq] at h
    obtain ⟨hk, flight, tested⟩ := h
    exact ⟨flight, k, hk, tested⟩
  · rintro ⟨flight, k, hk, tested⟩
    refine ⟨(k, c), ?_, rfl⟩
    rw [List.mem_filter, mem_circuitsOf, Bool.and_eq_true, decide_eq_true_eq]
    exact ⟨hk, flight, tested⟩

theorem mem_litBy : c ∈ litBy s u w xs ↔ ∃ k : Fin 8, circuitAt s u k = some c ∧ litJudged s u w k xs[k] = true := by
  unfold litBy
  rw [List.mem_map]
  constructor
  · rintro ⟨⟨k, d⟩, h, rfl⟩
    rw [List.mem_filter, mem_circuitsOf] at h
    exact ⟨k, h⟩
  · rintro ⟨k, h⟩
    exact ⟨(k, c), by rw [List.mem_filter, mem_circuitsOf]; exact h, rfl⟩

theorem roleOf_green : roleOf s c = some .green ↔ s.tables.circuit[c].role = 2 := by
  unfold roleOf
  generalize s.tables.circuit[c].role = n
  match n with
  | 0 => decide
  | 1 => decide
  | 2 => decide
  | n + 3 => simp [Role.ofCode]

/-- A group is seen by a GREEN circuit judged lit and not called for (R36). -/
theorem any_seenBy {g : Fin 32} : (circuitsOf s u).any (seenBy s u f xs g) = true ↔ ∃ (k : Fin 8) (c : Fin 96),
    circuitAt s u k = some c ∧ litJudged s u f.window k xs[k] = true ∧ observedLit s f.vsup xs[k] = true ∧
      s.tables.circuit[c].group = num g ∧ s.tables.circuit[c].role = 2 ∧ loggedCalled s u f.window k = false := by
  have seen_iff (k : Fin 8) (c : Fin 96) : seenBy s u f xs g (k, c) = true ↔
      litJudged s u f.window k xs[k] = true ∧ observedLit s f.vsup xs[k] = true ∧ s.tables.circuit[c].group = num g ∧
        s.tables.circuit[c].role = 2 ∧ loggedCalled s u f.window k = false := by
    simp only [seenBy, Bool.and_eq_true, decide_eq_true_eq, roleOf_green, groupOf, ofNum_eq_some, Bool.not_eq_true']
    tauto
  simp only [List.any_eq_true, Prod.exists, mem_circuitsOf, seen_iff]

theorem mem_onCircuits : c ∈ onCircuits s u w ↔ ∃ k : Fin 8, circuitAt s u k = some c ∧ loggedOn s u w k = true := by
  simp only [onCircuits, List.mem_filter, List.mem_finRange, true_and, List.any_eq_true, Prod.exists, mem_circuitsOf, Bool.and_eq_true,
    decide_eq_true_eq]
  constructor
  · rintro ⟨k, d, hk, rfl, on⟩; exact ⟨k, hk, on⟩
  · rintro ⟨k, hk, on⟩; exact ⟨k, c, hk, rfl, on⟩

/-- The leakage record after a reading, field by field (R155, R156). -/
theorem leakRec_fields {leakage n q : Nat} {r y : LeakRec} (hy : y = leakRec s.tables.cable (countLeak s u w leakage r))
    (hn : n = if s.tables.cable.leakThreshold < leakage then min 50 (r.run + 1) else 0)
    (hq : q = if s.tables.cable.leakThreshold < leakage then 0 else if r.raised = true then min 200 (r.quiet + 1) else r.quiet) :
    y.run = n ∧ y.quiet = q ∧
    (y.raised = true ↔ (r.raised = true ∨ s.tables.cable.leakConfirm ≤ n) ∧ q < s.tables.cable.leakClear) ∧
    ∀ c : Fin 96, c ∈ y.suspects ↔ s.tables.cable.leakThreshold < leakage ∧
      (∃ k : Fin 8, circuitAt s u k = some c ∧ loggedOn s u w k = true) ∧ (n = 1 ∨ c ∈ r.suspects) := by
  have counted : (countLeak s u w leakage r).run = n ∧ (countLeak s u w leakage r).quiet = q ∧
      (countLeak s u w leakage r).raised = r.raised ∧ ∀ c : Fin 96, c ∈ (countLeak s u w leakage r).suspects ↔
        s.tables.cable.leakThreshold < leakage ∧ c ∈ onCircuits s u w ∧ (n = 1 ∨ c ∈ r.suspects) := by
    unfold countLeak
    by_cases h : s.tables.cable.leakThreshold < leakage
    · simp only [if_pos h] at hn hq ⊢
      have run : bump 50 r.run = n := hn.symm
      refine ⟨run, hq.symm, trivial, fun c => ?_⟩
      rw [run]
      split
      next one => simp only [h, one, true_or, and_true, true_and]
      next more => simp only [h, more, false_or, true_and, List.mem_filter, List.contains_iff_mem, and_comm]
    · simp only [if_neg h] at hn hq ⊢
      refine ⟨hn.symm, hq.symm, trivial, fun c => ?_⟩
      simp only [h, false_and, List.not_mem_nil]
  obtain ⟨run, quiet, raised, suspects⟩ := counted
  subst hy
  refine ⟨run, quiet, ?_, fun c => ?_⟩
  · rw [leakRec, run, quiet, raised, Bool.and_eq_true, Bool.or_eq_true, decide_eq_true_eq, decide_eq_true_eq]
  · rw [← mem_onCircuits]
    exact suspects c

/-! ## The stages one after another on one record -/

theorem tripPart_trippedRec_congr {r r' : CableRec} (h : tripPart r' = tripPart r) :
    tripPart (trippedRec s x r') = tripPart (trippedRec s x r) := by
  simp only [tripPart, Prod.mk.injEq] at h
  obtain ⟨retry, timer, fresh, count, clean, raised⟩ := h
  unfold trippedRec trips
  rw [retry, count]
  split
  · split <;> simp only [tripPart, timer, fresh, raised]
  · simp only [tripPart, retry, timer, fresh, count, clean, raised]

theorem trips_congr {r r' : CableRec} (h : tripPart r' = tripPart r) : trips x r' = trips x r := by
  have retry : r'.retry = r.retry := congrArg Prod.fst h
  simp only [trips, retry]

theorem litPart_judged_congr {r r' : CableRec} (h : litPart r' = litPart r) (confirm : Nat) (lit : Bool) :
    litPart (uncrossRec (crossRec confirm (countLit r' lit))) = litPart (uncrossRec (crossRec confirm (countLit r lit))) := by
  have counted : litPart (countLit r' lit) = litPart (countLit r lit) := by
    simp only [litPart, Prod.mk.injEq] at h
    obtain ⟨run, quiet, raised⟩ := h
    unfold countLit
    rw [run, quiet, raised]
    split <;> rfl
  generalize countLit r' lit = a' at counted ⊢
  generalize countLit r lit = a at counted ⊢
  simp only [litPart, Prod.mk.injEq] at counted
  obtain ⟨run, quiet, raised⟩ := counted
  unfold uncrossRec crossRec
  rw [run, quiet, raised]
  split <;> rfl

theorem litPart_litRec_congr {r r' : CableRec} (h : litPart r' = litPart r) : litPart (litRec s u f k x r') = litPart (litRec s u f k x r) := by
  unfold litRec
  split
  · exact litPart_judged_congr h _ _
  · simp only [litPart, Prod.mk.injEq] at h
    obtain ⟨run, quiet, raised⟩ := h
    split <;> simp only [litPart, run, quiet, raised]

/-- The record of a circuit after the three stages of a frame. -/
def supervisedRec (s : State) (u : Fin 12) (v : Nat) (f : SenseFrame) (k : Fin 8) (x : Sample) (c : Fin 96) (r : CableRec) : CableRec :=
  litRec s u f k x (trippedRec s x (resolvedRec s c v x r))

/-- Each stage writes its own fields, and finds those as they stood before the frame. -/
theorem supervisedRec_parts (s : State) (u : Fin 12) (v : Nat) (f : SenseFrame) (k : Fin 8) (x : Sample) (c : Fin 96) (r : CableRec) :
    testPart (supervisedRec s u v f k x c r) = testPart (resolvedRec s c v x r) ∧
    tripPart (supervisedRec s u v f k x c r) = tripPart (trippedRec s x r) ∧
    litPart (supervisedRec s u v f k x c r) = litPart (litRec s u f k x r) := by
  obtain ⟨trip, lit⟩ := resolvedRec_frame s c v x r
  obtain ⟨test', lit'⟩ := trippedRec_frame s x (resolvedRec s c v x r)
  obtain ⟨test'', trip''⟩ := litRec_frame s u f k x (trippedRec s x (resolvedRec s c v x r))
  exact ⟨test''.trans test', trip''.trans (tripPart_trippedRec_congr trip), litPart_litRec_congr (lit'.trans lit)⟩

/-- Settles O34: the three passes over the unit's circuits each rewrite one circuit's record at a time and read nothing another circuit's work
changes, so each record goes through the stages alone. -/
theorem frameSupervised : Obligations.FrameSupervised := by
  unfold Obligations.FrameSupervised
  intro s r u v f xs on judged lit hr hon hjudged hlit
  obtain rfl : on = fun w k => loggedOn s u w k = true := by funext w k; exact propext ((hon w k).trans loggedOn_iff.symm)
  obtain rfl : judged = fun k => litJudged s u f.window k xs[k] = true := by
    funext k; exact propext ((hjudged k).trans litJudged_iff.symm)
  obtain rfl : lit = fun k => observedLit s f.vsup xs[k] = true := by funext k; exact propext ((hlit k).trans observedLit_iff.symm)
  clear hon hjudged hlit
  dsimp only
  obtain ⟨bus, tables, map, clock, inputs, prov, red, records, leak, marks⟩ := superviseFrame_frame s u v f xs
  rw [← hr] at bus tables map clock inputs prov red records leak marks
  refine ⟨bus, tables, map, clock, inputs, prov, red, fun d hd => ?_, fun c => ⟨mem_testedBy, mem_litBy⟩, fun g => ?_, fun k hk => ?_,
    fun n q hn hq => ?_, fun k c x y hk once hx hy => ?_⟩
  · have same := (records d).trans (recordsOf_superviseCircuits_away hd)
    exact ⟨congrArg Prod.fst same, congrArg Prod.snd same⟩
  · have marked := (marks g).trans (marks_superviseCircuits s u v f xs g)
    refine ⟨?_, ?_⟩
    · rw [marked]
    · have seen : r.groups[g].seen = (s.groups[g].seen || (circuitsOf s u).any (seenBy s u f xs g)) := congrArg Marks.seen marked
      simp only [seen, Bool.or_eq_true, any_seenBy, loggedCalled_eq_false]
  · rw [leak, getElem_upd_of_ne _ _ _ _ (Ne.symm hk)]
  · exact leakRec_fields (by rw [leak, getElem_upd_self]) hn hq
  · have once' := recordsOf_superviseCircuits (v := v) (f := f) (xs := xs) hk once
    have own := (records c).trans once'
    have hy' : y = supervisedRec s u v f k xs[k] c x := by
      rw [hy, hx]; exact congrArg Prod.fst own
    have hp : r.prov.circuits[c] = forcedRec xs[k] (resolvedRec s c v xs[k] x) s.prov.circuits[c] := by
      rw [hx]; exact congrArg Prod.snd own
    rw [forcedRec, trips_congr (resolvedRec_frame s c v xs[k] x).1] at hp
    obtain ⟨test, trip, lit⟩ := supervisedRec_parts s u v f k xs[k] c x
    rw [← hy'] at test trip lit
    have flight : y.inFlight = (resolvedRec s c v xs[k] x).inFlight := congrArg (fun p => p.2.1) test
    refine ⟨fun h => flight.trans ((resolvedRec_inFlight s c v xs[k] x).1 h), fun h => flight.trans ((resolvedRec_inFlight s c v xs[k] x).2 h),
      fun h => ?_, fun hv ht kl led hkl hled => ?_, fun h => ?_, fun ho hn => ?_, fun h => litRec_unjudged h lit,
      fun h n q hlit hunlit => litRec_judged h lit hlit hunlit⟩
    · have idle := resolvedRec_untested (s := s) (c := c) h
      simp only [testPart, Prod.mk.injEq] at idle test
      obtain ⟨since, -, last, cand, mrun, opened, short⟩ := test
      obtain ⟨since', -, last', cand', mrun', opened', short'⟩ := idle
      exact ⟨since.trans since', last.trans last', cand.trans cand', mrun.trans mrun', opened.trans opened', short.trans short'⟩
    · rw [resolvedRec_tested hv ht] at test
      exact testedRec_fields s c xs[k].residual _ test hkl (hled.trans (loadClassOf_led s c))
    · have idle : ¬ trips xs[k] x = true := fun ht => h (trips_iff.1 ht)
      rw [trippedRec, if_neg idle] at trip
      rw [if_neg idle] at hp
      simp only [tripPart, Prod.mk.injEq] at trip
      obtain ⟨retry, timer, fresh, count, clean, raised⟩ := trip
      exact ⟨retry, timer, fresh, count, clean, raised, hp⟩
    · have ht := trips_iff.2 ⟨ho, hn⟩
      rw [if_pos ht] at hp
      obtain ⟨count, clean, few, many⟩ := trippedRec_fields ht trip
      exact ⟨count, clean, hp, few, many⟩

end Sys2Proof.Machine

namespace Sys2Proof.Machine

open Sys2Proof

/-! ## Latched demands (R51, R52) -/

theorem mem_or {n : Nat} (a b : BitVec n) (i : Nat) : mem (a ||| b) i = (mem a i || mem b i) := BitVec.getLsbD_or

/-- The set of a list of stages holds the stages the list names (R52). -/
theorem mem_stageSet (stages : List Nat) (k : Fin 16) : mem (stageSet stages) k = true ↔ num k ∈ stages := by
  rw [stageSet, mem_gather _ (Nat.le_refl 16), mem_zero]; simp

theorem within_eq_false {lo hi n : Nat} : within lo hi n = false ↔ ¬ (lo ≤ n ∧ n ≤ hi) := by
  rw [← within_eq_true, Bool.not_eq_true]

section Demand

variable {s : State} {tag : Byte} {stages : List Nat}

/-- A DEMAND taken into service answers what its checks leave it (R52). -/
theorem exec_demand {u : State} {r : Result} (hs : s.port.inService = none)
    (hb : demandReq stages (taken 0x0D tag s) = ⟨u, r, .none⟩) :
    exec (.demand tag stages) s = .next (answered 0x0D tag u r .none) := congrArg Host.Outcome.next (serve_of hs hb)

end Demand

/-- Settles O18: the four checks refuse in their order, and a request that passes joins the set of its list to the latched demands. -/
theorem demandLatched : Obligations.DemandLatched := by
  intro s tag stages hs
  refine ⟨fun hlen => ?malformed, fun hlen => ⟨fun hopen => ?badState, fun hclosed hbad => ?badIndex,
    fun hclosed hin hbad => ?badValue, fun hclosed hin hdef => ?latched⟩⟩
  case malformed =>
    exact exec_demand hs (checked_refuse (by rw [within_eq_false.2 hlen]; rfl))
  case badState =>
    exact exec_demand hs (checked_refuse (by rw [within_eq_true.2 hlen, taken_configOpen, hopen]; rfl))
  all_goals
    have fit : within 1 16 stages.length = true := within_eq_true.2 hlen
    have closed : (taken 0x0D tag s).port.configOpen = false := by rw [taken_configOpen, hclosed]
  case badIndex =>
    obtain ⟨n, hn, hr⟩ := hbad
    have out : (stages.any fun n => !within 1 16 n) = true :=
      List.any_eq_true.2 ⟨n, hn, by rw [within_eq_false.2 (by omega)]; rfl⟩
    exact exec_demand hs (checked_refuse (by rw [fit, closed, out]; rfl))
  all_goals
    have inRange : (stages.any fun n => !within 1 16 n) = false := by
      rw [List.any_eq_false]; intro n hn; rw [within_eq_true.2 (hin n hn)]; decide
  case badValue =>
    obtain ⟨n, hn, hu⟩ := hbad
    have undefined : (stages.any fun n => decide (greenSet (taken 0x0D tag s) n = 0)) = true :=
      List.any_eq_true.2 ⟨n, hn, by rw [taken_greenSet]; exact decide_eq_true hu⟩
    exact exec_demand hs (checked_refuse (by rw [fit, closed, inRange, undefined]; rfl))
  case latched =>
    have defined : (stages.any fun n => decide (greenSet (taken 0x0D tag s) n = 0)) = false := by
      rw [List.any_eq_false]; intro n hn; rw [taken_greenSet]; simpa using hdef n hn
    refine ⟨_, exec_demand hs (checked_pass (by rw [fit, closed, inRange, defined]; rfl)), rfl, fun k => ?_⟩
    rw [mem_or, Bool.or_eq_true, mem_stageSet]

end Sys2Proof.Machine

namespace Sys2Proof.Machine

open Sys2Proof

/-! ## Readings and changes of an input (R49, R50) -/

section Inputs

variable {s : State} {e : Fin 64}

theorem inputUnit_eq_some {u : Fin 12} : inputUnit s e = some u ↔ s.tables.input[e].fiu = num u := ofNum_eq_some

theorem isSome_inputUnit : (inputUnit s e).isSome = true ↔ inputUnit s e ≠ none := Option.isSome_iff_ne_none

theorem InputKind.ofCode_eq_some {n : Nat} {k : InputKind} : InputKind.ofCode n = some k ↔
    n = (match k with | .detector => 0 | .pushButton => 1 | .panelHold => 2) := by
  unfold InputKind.ofCode
  split <;> cases k <;> simp_all

/-- An entry in use of a kind: it names a unit, and its kind's code is the kind's. -/
theorem inputIs_iff {k : InputKind} : inputIs s e k = true ↔ (∃ u : Fin 12, s.tables.input[e].fiu = num u) ∧
    s.tables.input[e].kind = (match k with | .detector => 0 | .pushButton => 1 | .panelHold => 2) := by
  simp only [inputIs, Bool.and_eq_true, decide_eq_true_eq, Option.isSome_iff_exists, inputUnit_eq_some,
    InputKind.ofCode_eq_some]

theorem inputChangeDue_iff : inputChangeDue s e = true ↔
    inputUnit s e ≠ none ∧ s.tables.input[e].debounce ≤ s.inputs[e].disagree := by
  simp only [inputChangeDue, Bool.and_eq_true, decide_eq_true_eq, isSome_inputUnit]

/-- A reading equal to the debounced state (R49). -/
theorem readInput_agree {b : Bool} (h : b = s.inputs[e].active) :
    readInput s e b = setInput s e fun r => { r with disagree := 0 } := if_pos h

/-- A reading that differs from the debounced state (R49). -/
theorem readInput_differ {b : Bool} (h : b ≠ s.inputs[e].active) :
    readInput s e b = takeInputChange (setInput s e fun r => { r with disagree := bump 15 r.disagree }) e := if_neg h

theorem takeInputChange_idle (h : ¬ inputChangeDue s e = true) : takeInputChange s e = s := if_neg h

theorem takeInputChange_due (h : inputChangeDue s e = true) :
    takeInputChange s e = if s.inputs[e].active then inputOff s e else inputOn s e := if_pos h

/-- An entry going ACTIVE changes its own record, and the latched demands where it is a push button (R49, R51). -/
theorem inputOn_eq : inputOn s e = { s with
    inputs := put s.inputs e { s.inputs[e] with active := true, disagree := 0 }
    latched := if inputIs s e .pushButton then s.latched ||| s.tables.input[e].demand else s.latched } := by
  unfold inputOn
  dsimp only
  split <;> rfl

theorem stuckDue_iff : stuckDue s e = true ↔ timedInput s e = true ∧ s.inputs[e].active = true ∧
    s.inputs[e].stuck = false ∧ 10 * s.tables.input[e].stuckLimit ≤ s.inputs[e].activeTime := by
  simp only [stuckDue, Bool.and_eq_true, decide_eq_true_eq, Bool.not_eq_true', and_assoc]

/-! ## Demand, extension and wanted steps (R48, R53) -/

theorem hasDemand_iff (st : Fin 16) : hasDemand s st = true ↔ mem s.latched st = true ∨ ∃ (e : Fin 64) (u : Fin 12),
    s.tables.input[e].fiu = num u ∧ mem s.tables.input[e].demand st = true ∧
      ((s.tables.input[e].kind = 0 ∧ s.inputs[e].active = true) ∨
        ((s.tables.input[e].kind = 0 ∨ s.tables.input[e].kind = 1) ∧ s.inputs[e].stuck = true)) := by
  simp only [hasDemand, levelDemand, Bool.or_eq_true, List.any_eq_true, List.mem_finRange, true_and, Bool.and_eq_true,
    inputIs_iff]
  refine or_congr_right (exists_congr fun e => ?_)
  rw [exists_and_right]
  tauto

theorem extended_iff (st : Fin 16) : extended s st = true ↔ ∃ (e : Fin 64) (u : Fin 12), s.tables.input[e].fiu = num u ∧
    s.tables.input[e].kind = 0 ∧ s.inputs[e].active = true ∧ mem s.tables.input[e].extend st = true := by
  simp only [extended, List.any_eq_true, List.mem_finRange, true_and, Bool.and_eq_true, inputIs_iff, exists_and_right,
    and_assoc]

variable {p : Fin 8} {k : Fin 16}

/-- The hold step is the first step of the plan with the hold flag (R46, R64). -/
theorem holdStep_eq_some : holdStep s p = some k ↔ k.val < nSteps s p ∧ (stepOf s p k).holdFlag = true ∧
    ∀ j : Fin 16, j < k → (stepOf s p j).holdFlag = false := by
  have found := firstOf_find Fin.val (fun k : Fin 16 => decide (k.val < nSteps s p) && (stepOf s p k).holdFlag) (idx 16)
    (List.pairwise_lt_finRange 16) k.val
  have conv : holdStep s p = some k ↔ (holdStep s p).map Fin.val = some k.val := by
    cases holdStep s p <;> simp [Fin.ext_iff]
  rw [conv, holdStep, found]
  simp only [List.mem_finRange, true_and, Bool.and_eq_true, decide_eq_true_eq, ← Fin.ext_iff, exists_eq_left, and_assoc]
  refine and_congr_right fun hk => and_congr_right fun _ => ⟨fun h j hj => ?_, ?_⟩
  · rw [← Bool.not_eq_true]
    exact fun hf => h j.val hj ⟨j, rfl, by rw [Fin.lt_def] at hj; omega, hf⟩
  · rintro h _ hj ⟨j, rfl, _, hf⟩
    exact absurd hf (by rw [h j hj]; decide)

theorem isHoldStep_iff : isHoldStep s p k = true ↔ 0 < s.tables.plan[p].cycle ∧ k.val < s.tables.plan[p].steps ∧
    s.tables.plan[p].entries[k].holdFlag = true ∧
      ∀ j : Fin 16, j < k → s.tables.plan[p].entries[j].holdFlag = false := by
  simp only [isHoldStep, coordinated, Bool.and_eq_true, decide_eq_true_eq, holdStep_eq_some]
  rfl

theorem stageIx_eq_some {st : Fin 16} : stageIx s p k = some st ↔ (stepOf s p k).stage = num st := ofNum_eq_some

/-- The groups of a stage number are those of the stage it names, if it names one (R42). -/
theorem mem_greenSet {n : Nat} {g : Fin 32} : mem (greenSet s n) g = true ↔
    ∃ st : Fin 16, n = num st ∧ mem s.tables.stage[st] g = true := by
  unfold greenSet
  split
  next k hk => simp only [ofNum_eq_some.1 hk, num, Nat.add_right_cancel_iff, ← Fin.ext_iff, exists_eq_left']
  next hk =>
    rw [mem_zero]
    constructor
    · nofun
    · rintro ⟨st, rfl, _⟩
      rw [ofNum_eq_some.2 rfl] at hk
      cases hk

/-- Some group of a stage number is in use and outside the inhibit set. -/
theorem any_stageGroups {n : Nat} : ((stageGroups s n).any fun g => !s.groups[g].inhibited) = true ↔
    ∃ g : Fin 32, live s g = true ∧ mem (greenSet s n) g = true ∧ s.groups[g].inhibited = false := by
  simp only [stageGroups, List.any_eq_true, List.mem_filter, List.mem_finRange, true_and, Bool.and_eq_true,
    Bool.not_eq_true', and_assoc]

theorem wanted_iff : wanted s p k = true ↔ isHoldStep s p k = true ∨
    ((s.tables.plan[p].entries[k].recalled = true ∨ s.tables.plan[p].entries[k].demandDep = false ∨
      ∃ st : Fin 16, s.tables.plan[p].entries[k].stage = num st ∧ hasDemand s st = true) ∧
    ∃ (g : Fin 32) (st : Fin 16), s.tables.plan[p].entries[k].stage = num st ∧ live s g = true ∧
      mem s.tables.stage[st] g = true ∧ s.groups[g].inhibited = false) := by
  have demanded : (match stageIx s p k with | some x => hasDemand s x | none => false) = true ↔
      ∃ st : Fin 16, s.tables.plan[p].entries[k].stage = num st ∧ hasDemand s st = true := by
    have ix (st : Fin 16) : s.tables.plan[p].entries[k].stage = num st ↔ stageIx s p k = some st := stageIx_eq_some.symm
    simp only [ix]
    cases stageIx s p k <;> simp
  unfold wanted
  simp only [Bool.or_eq_true, Bool.and_eq_true, Bool.not_eq_true', any_stageGroups, mem_greenSet, or_assoc]
  refine or_congr_right (and_congr (or_congr_right (or_congr_right demanded)) (exists_congr fun g => ?_))
  constructor
  · rintro ⟨hl, ⟨st, hst, hm⟩, hi⟩
    exact ⟨st, hst, hl, hm, hi⟩
  · rintro ⟨st, hst, hl, hm, hi⟩
    exact ⟨hl, ⟨st, hst, hm⟩, hi⟩

theorem anotherWanted_iff : anotherWanted s p = true ↔
    ∃ k : Fin 16, k.val < s.tables.plan[p].steps ∧ k ≠ s.eng.cur ∧ wanted s p k = true := by
  simp only [anotherWanted, List.any_eq_true, List.mem_finRange, true_and, Bool.and_eq_true, decide_eq_true_eq, and_assoc]
  rfl

end Inputs

/-- Settles O47: each command takes its work just when it is due, and the values of R53 are read off their definitions. -/
theorem inputsChange : Obligations.InputsChange := by
  refine ⟨fun s e => ⟨?agree, fun hlt => ?counted, fun h => ?idle, fun hf hu hd => ?change, fun hp ht ha hs hl => ?stuck,
    fun h => ?unstuck⟩, fun s p demand hdemand => ?values⟩
  case agree => rw [readInput_agree rfl]; rfl
  case counted =>
    rw [readInput_differ (by simp), takeInputChange_idle ?_]
    · simp only [setInput, upd, bump]
    · rw [inputChangeDue_iff, setInput_inputs, getElem_upd_self, setInput_tables]
      exact fun h => absurd h.2 (Nat.not_le.2 hlt)
  case idle =>
    refine congrArg Host.Outcome.next ?_
    rcases h with h | h | h
    · exact atFrame_idle s _ h
    all_goals
      have idle : takeInputChange s e = s := takeInputChange_idle (by rw [inputChangeDue_iff]; grind)
      rw [atFrame, idle, ite_self]
  case change =>
    refine ⟨takeInputChange s e, congrArg Host.Outcome.next (atFrame_stands s _ hf), fun ha => ?_, fun ha => ?_⟩
    all_goals rw [takeInputChange_due (inputChangeDue_iff.2 ⟨hu, hd⟩), ha]
    · have used : ∃ u : Fin 12, s.tables.input[e].fiu = num u := by
        obtain ⟨u, h⟩ := Option.ne_none_iff_exists'.1 hu
        exact ⟨u, inputUnit_eq_some.1 h⟩
      simp only [Bool.false_eq_true, if_false, inputOn_eq, inputIs_iff, used, true_and]
    · rw [if_pos rfl, inputOff_frame]
      exact ⟨rfl, rfl⟩
  case stuck =>
    refine next_atPulse_due hp (stuckDue_iff.2 ⟨ht, ha, hs, hl⟩) (if_pos ?_)
    exact stuckDue_iff.2 ⟨ht, ha, hs, hl⟩
  case unstuck =>
    refine next_atPulse_idle (h.imp_right fun h => ?_)
    rw [← Bool.not_eq_true, stuckDue_iff]
    grind
  case values =>
    have hdem (st : Fin 16) : hasDemand s st = true ↔ demand st := (hasDemand_iff st).trans (hdemand st).symm
    refine ⟨hdem, extended_iff, fun k => isHoldStep_iff, fun k => ?_, anotherWanted_iff⟩
    simp only [wanted_iff, hdem]

end Sys2Proof.Machine

namespace Sys2Proof.Machine

open Sys2Proof

/-! ## Holds and the step request (R65, R68 to R71) -/

section Holds

variable {s : State}

theorem panelHold_iff : panelHold s = true ↔ ∃ (e : Fin 64) (u : Fin 12), s.tables.input[e].fiu = num u ∧
    s.tables.input[e].kind = 2 ∧ s.inputs[e].active = true := by
  simp only [panelHold, List.any_eq_true, List.mem_finRange, true_and, Bool.and_eq_true, inputIs_iff, exists_and_right,
    and_assoc]

theorem holdApplies_iff : holdApplies s = true ↔ s.eng.sub ≠ .idle ∧ s.eng.sub ≠ .interstage ∧
    (s.eng.hold = some .stage ∨ (s.eng.hold = some .cycle ∧ s.eng.cycleReached = true) ∨
      ∃ (e : Fin 64) (u : Fin 12), s.tables.input[e].fiu = num u ∧ s.tables.input[e].kind = 2 ∧
        s.inputs[e].active = true) := by
  simp only [holdApplies, holdStands, Bool.and_eq_true, Bool.or_eq_true, decide_eq_true_eq, panelHold_iff, and_assoc]
  rw [or_assoc, or_comm, or_assoc]

/-- A change after which a hold may have stopped applying changes resync alone besides, and that only to yes (R65, R69). -/
theorem resyncIfReleased_eq (s t : State) : resyncIfReleased s t = { t with eng := { t.eng with
    resync := t.eng.resync || (holdApplies s && !holdApplies t && runsCoordinated t) } } := by
  unfold resyncIfReleased
  split
  next h => rw [h, Bool.or_true]; rfl
  next h => rw [Bool.not_eq_true] at h; rw [h, Bool.or_false]

/-- What setting or releasing the controller hold changes (R68, R70). -/
theorem setHold_spec (s : State) (h : Option HoldMode) :
    setHold s h = { s with eng := { s.eng with
      hold := h, cycleReached := false, resync := (setHold s h).eng.resync } } ∧
    ((setHold s h).eng.resync = true ↔ s.eng.resync = true ∨
      (holdApplies s = true ∧ holdApplies (setHold s h) = false ∧ runsCoordinated (setHold s h) = true)) := by
  rw [setHold, resyncIfReleased_eq]
  refine ⟨rfl, ?_⟩
  simp only [Bool.or_eq_true, Bool.and_eq_true, Bool.not_eq_true', and_assoc]
  rfl

variable {p : Fin 8} {st : Fin 16}

theorem stepNames_iff : stepNames s p st = true ↔ s.tables.plan[p].entries[s.eng.cur].stage ≠ num st ∧
    ∃ k : Fin 16, k.val < s.tables.plan[p].steps ∧ k ≠ s.eng.cur ∧ s.tables.plan[p].entries[k].stage = num st := by
  simp only [stepNames, Bool.and_eq_true, List.any_eq_true, List.mem_finRange, true_and, decide_eq_true_eq, ne_eq,
    stageIx_eq_some, and_assoc]
  exact and_comm

theorem stageOpen_iff : stageOpen s st = true ↔ ∃ g : Fin 32, live s g = true ∧ mem s.tables.stage[st] g = true ∧
    s.groups[g].inhibited = false := by
  simp only [stageOpen, any_stageGroups, greenSet, ofNum_eq_some.2 (rfl : num st = num st)]

theorem stepFit_iff : stepFit s = true ↔
    s.jm.mode = .plan ∧ holdApplies s = true ∧ (s.eng.sub = .min ∨ s.eng.sub = .hold) := by
  simp only [stepFit, Bool.and_eq_true, Bool.or_eq_true, decide_eq_true_eq, and_assoc]

/-- A STEP with no plan running, or at no moment for one, is refused (R71). -/
theorem stepTo_unfit {r : StepReq} (h : s.eng.running = none ∨ stepFit s = false) : stepTo s r = ⟨s, .badState, .none⟩ := by
  unfold stepTo
  split
  next p hp =>
    have unfit : stepFit s = false := h.resolve_left (by rw [hp]; nofun)
    cases r <;> exact checked_refuse (by rw [unfit]; rfl)
  next => rfl

/-- STEP NEXT at a moment for it (R71). -/
theorem stepTo_next (hp : s.eng.running = some p) (hf : stepFit s = true) : stepTo s .next =
    if anotherWanted s p then done (requestStep s .next) else ⟨s, .badState, .none⟩ := by
  simp only [stepTo, hp]
  split
  next h => exact checked_pass (by rw [hf, h]; rfl)
  next h => rw [Bool.not_eq_true] at h; exact checked_refuse (by rw [hf, h]; rfl)

/-- STEP to a stage at a moment for it (R71). -/
theorem stepTo_stage (hp : s.eng.running = some p) (hf : stepFit s = true) : stepTo s (.stage st) =
    if stepNames s p st then
      if stageOpen s st then done (requestStep s (.stage st)) else ⟨s, .badState, .none⟩
    else ⟨s, .badValue, .none⟩ := by
  simp only [stepTo, hp]
  split
  next hn =>
    split
    next ho => exact checked_pass (by rw [hf, hn, ho]; rfl)
    next ho => rw [Bool.not_eq_true] at ho; exact checked_refuse (by rw [hf, hn, ho]; rfl)
  next hn => rw [Bool.not_eq_true] at hn; exact checked_refuse (by rw [hf, hn]; rfl)

theorem stepRequest_next : stepRequest .next s = stepTo s .next := rfl

theorem stepRequest_stage {n : Nat} (hn : ofNum 16 n = some st) : stepRequest (.stage n) s = stepTo s (.stage st) := by
  simp only [stepRequest, hn]

variable {tag : Byte} (hs : s.port.inService = none)

include hs

theorem exec_hold {code : Nat} {u : State} {r : Result} (hb : holdReq code (taken 0x0A tag s) = ⟨u, r, .none⟩) :
    exec (.hold tag code) s = .next (answered 0x0A tag u r .none) := congrArg Host.Outcome.next (serve_of hs hb)

theorem exec_releaseHold : exec (.releaseHold tag) s =
    .next (answered 0x0B tag (setHold (taken 0x0B tag s) none) .done .none) :=
  congrArg Host.Outcome.next (serve_of (body := releaseHoldReq) hs rfl)

theorem exec_step {x : StepTarget} {u : State} {r : Result} (hb : stepRequest x (taken 0x0C tag s) = ⟨u, r, .none⟩) :
    exec (.step tag x) s = .next (answered 0x0C tag u r .none) := congrArg Host.Outcome.next (serve_of hs hb)

end Holds

/-- Settles O17: each check of HOLD and STEP refuses in turn, and what passes sets the hold or the step request. -/
theorem holdsSet : Obligations.HoldsSet := by
  refine ⟨fun s tag code hs => ⟨fun hc => ?_, fun h hc hm => ?_, fun h hc hm => ?_, ?_⟩, fun s => holdApplies_iff,
    fun s p st => ⟨stepNames_iff, stageOpen_iff⟩,
    fun s tag p hs => ⟨fun n hn => ?badIndex, fun hu => ?unfit, fun hp hm ha hsub => ?fit⟩⟩
  · exact exec_hold hs (by simp only [holdReq, hc]; rfl)
  · exact exec_hold hs (by simp only [holdReq, hc]; exact checked_refuse (by rw [decide_eq_true hm]; rfl))
  · refine ⟨setHold (taken 0x0A tag s) (some h), exec_hold hs ?_, setHold_spec _ _⟩
    simp only [holdReq, hc]
    exact checked_pass (by rw [hm]; rfl)
  · exact ⟨setHold (taken 0x0B tag s) none, exec_releaseHold hs, setHold_spec _ _⟩
  case badIndex => exact exec_step hs (by simp only [stepRequest, hn]; rfl)
  case unfit =>
    have unfit : (taken 0x0C tag s).eng.running = none ∨ stepFit (taken 0x0C tag s) = false := by
      rw [← Bool.not_eq_true, stepFit_iff]
      grind
    refine ⟨exec_step hs (stepRequest_next.trans (stepTo_unfit unfit)), fun n hn => ?_⟩
    obtain ⟨st, hst⟩ := Option.ne_none_iff_exists'.1 hn
    exact exec_step hs ((stepRequest_stage hst).trans (stepTo_unfit unfit))
  case fit =>
    have fit : stepFit (taken 0x0C tag s) = true := stepFit_iff.2 ⟨hm, ha, hsub⟩
    refine ⟨fun hw => ?_, fun hw => ?_, fun n st hn => ⟨fun h => ?_, fun h ho => ?_, fun h ho => ?_⟩⟩
    · exact exec_step hs (stepRequest_next.trans <| (stepTo_next hp fit).trans (by rw [if_pos hw]; rfl))
    · exact exec_step hs (stepRequest_next.trans <| (stepTo_next hp fit).trans (by rw [hw]; rfl))
    all_goals refine exec_step hs ((stepRequest_stage hn).trans ((stepTo_stage hp fit).trans ?_))
    · rw [h]; rfl
    · rw [h, ho]; rfl
    · rw [h, ho]; rfl

end Sys2Proof.Machine

namespace Sys2Proof.Machine

open Sys2Proof

/-! ## Tables written in every mode (R43, R44, R102, R124, R129, R145, R160) -/

section OpenWrites

variable {s : State} {tag : Byte} {a : TableArgs} (hs : s.port.inService = none) (hf : formOk a = true)

include hs hf

theorem exec_tableWritePlan {p : Nat} {k : Fin 8} {es : List (List Byte)} (hk : ofNum 8 p = some k)
    (hu : inUse (taken 0x02 tag s) k = false) (hn : es.length = a.count) (hb : ∀ bs ∈ es, bs.length = 11)
    (hi : ∀ i ∈ addressed a, i < 17) (hw : ∀ w ∈ (addressed a).zip es, badPlanEntry w.1 w.2 = false) :
    exec (.tableWritePlan tag p a es) s = .next (answered 0x02 tag
      { taken 0x02 tag s with
        tables := { s.tables with plan := put s.tables.plan k (loadPlan s.tables.plan[k] ((addressed a).zip es)) } }
      .done .none) := by
  refine congrArg Host.Outcome.next (serve_of (body := writePlan p a es) hs ?_)
  have form : (es.all fun bs => decide (bs.length = 11)) = true :=
    List.all_eq_true.2 fun bs hbs => decide_eq_true (hb bs hbs)
  have good : ((addressed a).zip es).any (fun w => badPlanEntry w.1 w.2) = false := any_bad_eq_false hw
  simp only [writePlan, hk, form, if_true]
  rw [checked_pass (writeChecks_pass hf hn hi (by rw [hu]; rfl) good), setPlan, setTables_taken]
  rfl

theorem exec_tableWriteSchedule {es : List SchedRaw} (hn : es.length = a.count)
    (hw : ∀ w ∈ (addressed a).zip es, schedForm w = true) (hi : ∀ i ∈ addressed a, i < 49)
    (hb : ∀ e ∈ es, badSched e = false)
    (hc : schedClash (((addressed a).zip es).foldl writeSchedEntry s.tables).sched.toList = false) :
    exec (.tableWriteSchedule tag a es) s = .next (answered 0x02 tag
      (evaluate { taken 0x02 tag s with tables := ((addressed a).zip es).foldl writeSchedEntry s.tables }) .done .none) := by
  refine congrArg Host.Outcome.next (serve_of (body := writeSched a es) hs ?_)
  have form : ((addressed a).zip es).all schedForm = true := List.all_eq_true.2 hw
  simp only [writeSched, form, if_true, taken_tables, hc]
  rw [checked_pass (writeChecks_pass hf hn hi rfl (any_bad_eq_false hb))]

theorem exec_tableWriteReaction {es : List Nat} (hn : es.length = a.count) (hi : ∀ i ∈ addressed a, i < 21)
    (hb : ∀ e ∈ es, badReaction e = false) :
    exec (.tableWriteReaction tag a es) s = .next (answered 0x02 tag
      (reformReactions { taken 0x02 tag s with
        tables := { s.tables with
          reaction := writeAt s.tables.reaction (((addressed a).zip es).map fun w => (w.1, reactionStored w.1 w.2)) } }
        (kindsWritten a))
      (if ∃ w ∈ (addressed a).zip es, Reaction.ofCode w.2 ≠ some (reactionStored w.1 w.2) then .clamped else .done)
      .none) := by
  refine congrArg Host.Outcome.next (serve_of (body := writeReaction a es) hs ?_)
  simp only [writeReaction, writeResult, List.any_eq_true, belowFloor, decide_eq_true_eq]
  rw [checked_pass (writeChecks_pass hf hn hi rfl (any_bad_eq_false hb)), setTables_taken]

theorem exec_tableWriteProving {es : List ProvingParams} {e : ProvingParams} (hn : es.length = a.count)
    (he : es.getLast? = some e) (hi : ∀ i ∈ addressed a, i < 1) :
    exec (.tableWriteProvingParameters tag a es) s = .next (answered 0x02 tag
      { taken 0x02 tag s with tables := { s.tables with proving := clampProving e } }
      (if ∃ x ∈ es, clampProving x ≠ x then .clamped else .done) .none) := by
  refine congrArg Host.Outcome.next (serve_of (body := writeProving a es) hs ?_)
  simp only [writeProving, he]
  rw [checked_pass (writeChecks_pass hf hn hi rfl rfl), setTables_taken, writeResult_any]

theorem exec_tableWriteCable {es : List CableParams} {e : CableParams} (hn : es.length = a.count)
    (he : es.getLast? = some e) (hi : ∀ i ∈ addressed a, i < 1) (hb : ∀ x ∈ es, badCable x = false) :
    exec (.tableWriteCableParameters tag a es) s = .next (answered 0x02 tag
      { taken 0x02 tag s with tables := { s.tables with cable := clampCable e } }
      (if ∃ x ∈ es, clampCable x ≠ x then .clamped else .done) .none) := by
  refine congrArg Host.Outcome.next (serve_of (body := writeCable a es) hs ?_)
  simp only [writeCable, he]
  rw [checked_pass (writeChecks_pass hf hn hi rfl (any_bad_eq_false hb)), setTables_taken, writeResult_any]

theorem exec_tableWriteReference {es : List RefEntry} (hn : es.length = a.count) (hi : ∀ i ∈ addressed a, i < 96)
    (hb : ∀ e ∈ es, badRef e = false) :
    exec (.tableWriteReference tag a es) s = .next (answered 0x02 tag
      (((addressed a).filterMap (finAt 96)).foldl referenceWritten
        { taken 0x02 tag s with
          tables := { s.tables with reference := writeAt s.tables.reference ((addressed a).zip es) } }) .done .none) := by
  refine congrArg Host.Outcome.next (serve_of (body := writeReference a es) hs ?_)
  rw [writeReference, checked_pass (writeChecks_pass hf hn hi rfl (any_bad_eq_false hb)), setTables_taken]

end OpenWrites

/-! ## Indices addressed -/

theorem finAt_eq_some {n i : Nat} {k : Fin n} : finAt n i = some k ↔ i = k.val := by
  have hk := k.isLt
  unfold finAt
  split
  · rw [Option.some.injEq, Fin.ext_iff]
  · simp only [reduceCtorEq, false_iff]; omega

theorem mem_filterMap_finAt {n : Nat} {l : List Nat} {k : Fin n} : k ∈ l.filterMap (finAt n) ↔ k.val ∈ l := by
  simp only [List.mem_filterMap, finAt_eq_some, exists_eq_right]

/-! ## Reactions formed afresh (R160, R165) -/

/-- Forming the reactions afresh over tables just written changes the slots alone, and the inhibit demand is owed afresh (R167). -/
theorem reformReactions_frame (s : State) (t : Tables) (written : List (Fin 21)) :
    reformReactions { s with tables := t } written =
      { s with tables := (reformReactions { s with tables := t } written).tables
               coll := (reformReactions { s with tables := t } written).coll } ∧
    (reformReactions { s with tables := t } written).tables = t ∧
    (reformReactions { s with tables := t } written).coll =
      { s.coll with slots := (reformReactions { s with tables := t } written).coll.slots, demandStands := false } :=
  ⟨rfl, rfl, rfl⟩

theorem reformReactions_slots (s : State) (written : List (Fin 21)) (i : Fin 64) :
    (reformReactions s written).coll.slots[i] = s.coll.slots[i].map fun r =>
      if r.kind.index ∈ written then { r with reaction := reactionFor s r.kind } else r := by
  simp only [reformReactions, setColl_coll, getElem_tab, List.contains_iff_mem]

/-! ## References written (R129, R140) -/

/-- The learn record of a circuit whose reference is written. -/
def relearned (r : LearnRec) : LearnRec := if r.state = .learning then LearnRec.aborted r else r

theorem relearned_relearned (r : LearnRec) : relearned (relearned r) = relearned r := by
  by_cases h : r.state = .learning
  · simp only [relearned, h, if_true, LearnRec.aborted, reduceCtorEq, if_false]
  · simp only [relearned, h, if_false]

/-- A reference written changes the two records of its circuit. -/
theorem referenceWritten_eq (s : State) (c : Fin 96) : referenceWritten s c = { s with prov := { s.prov with
    circuits := put s.prov.circuits c { s.prov.circuits[c] with cand := none, run := 0 }
    learn := put s.prov.learn c (relearned s.prov.learn[c]) } } := by
  unfold referenceWritten relearned
  dsimp only
  split
  · rfl
  · rw [put_self s.prov.learn c _ rfl]; rfl

theorem referencesWritten_frame (cs : List (Fin 96)) (s : State) : cs.foldl referenceWritten s = { s with
    prov := { s.prov with
      circuits := (cs.foldl referenceWritten s).prov.circuits, learn := (cs.foldl referenceWritten s).prov.learn } } := by
  induction cs generalizing s with
  | nil => rfl
  | cons c cs ih => rw [List.foldl_cons, ih, referenceWritten_eq]

/-- Written once or more often, a circuit has its candidate dropped and its learning aborted. -/
theorem referencesWritten_records (cs : List (Fin 96)) (s : State) (c : Fin 96) :
    (c ∈ cs → (cs.foldl referenceWritten s).prov.circuits[c] = { s.prov.circuits[c] with cand := none, run := 0 } ∧
      (cs.foldl referenceWritten s).prov.learn[c] = relearned s.prov.learn[c]) ∧
    (c ∉ cs → (cs.foldl referenceWritten s).prov.circuits[c] = s.prov.circuits[c] ∧
      (cs.foldl referenceWritten s).prov.learn[c] = s.prov.learn[c]) := by
  induction cs generalizing s with
  | nil => simp
  | cons d cs ih =>
    rw [List.foldl_cons]
    obtain ⟨again, apart⟩ := ih (referenceWritten s d)
    generalize cs.foldl referenceWritten (referenceWritten s d) = t at again apart ⊢
    rw [referenceWritten_eq] at again apart
    dsimp only at again apart
    by_cases hd : d = c
    · subst hd
      rw [getElem_put_self, getElem_put_self] at again apart
      refine ⟨fun _ => ?_, fun h => absurd List.mem_cons_self h⟩
      by_cases hm : d ∈ cs
      · rw [relearned_relearned] at again; exact again hm
      · exact apart hm
    · rw [getElem_put_of_ne _ _ _ _ hd, getElem_put_of_ne _ _ _ _ hd] at again apart
      refine ⟨fun h => again ((List.mem_cons.1 h).resolve_left (Ne.symm hd)), fun h => apart fun hm => h (List.mem_cons_of_mem _ hm)⟩

/-! ## Values of the tables (R124, R145, R160) -/

theorem clampTo_eq {near : Nat → Nat → Nat → Nat} (h : ∀ lo hi n : Nat, near lo hi n = if n < lo then lo else if hi < n then hi else n)
    {lo hi : Nat} (hl : lo ≤ hi) (n : Nat) : clampTo lo hi n = near lo hi n := by
  rw [h, clampTo]; split
  · omega
  · split <;> omega

theorem badReaction_iff : ∀ n : Nat, badReaction n = true ↔ 4 < n
  | 0 | 1 | 2 | 3 | 4 => by decide
  | n + 5 => iff_of_true rfl (by omega)

theorem badCable_iff (e : CableParams) : badCable e = true ↔ 2 < e.mode := by
  unfold badCable
  match e.mode with
  | 0 | 1 | 2 => decide
  | n + 3 => exact iff_of_true rfl (by omega)

/-- A reaction is stored as its code says, but not below the floor of its kind (R160). -/
theorem reactionStored_eq (i : Fin 21) {n : Nat} {r : Reaction} (h : Reaction.ofCode n = some r) : reactionStored i.val n =
    (match i.val + 1 with
      | 6 => .dark
      | 12 | 13 => if n < 2 then .inhibit else r
      | 5 | 7 | 10 | 14 | 19 => if n = 0 then .alarm else r
      | _ => r) := by
  have hn : n < 5 := by
    by_contra hn
    have := (badReaction_iff n).2 (Nat.lt_of_not_le fun h => hn (Nat.lt_succ_of_le h))
    rw [badReaction, h] at this
    cases this
  have key : ∀ (n : Fin 5) (i : Fin 21), ∀ r ∈ Reaction.ofCode n.val, reactionStored i.val n.val =
      (match i.val + 1 with
        | 6 => .dark
        | 12 | 13 => if n.val < 2 then .inhibit else r
        | 5 | 7 | 10 | 14 | 19 => if n.val = 0 then .alarm else r
        | _ => r) := by decide
  exact key ⟨n, hn⟩ i r h

/-! ## Entries of the schedule and of a plan (R43, R102, R174) -/

theorem writeSchedEntry_entry (t : Tables) (i : Fin 48) (e : SchedEntry) :
    writeSchedEntry t (i.val + 1, .entry e) = { t with sched := put t.sched i e } := by
  simp only [writeSchedEntry, Nat.add_sub_cancel, finAt_eq_some.2 (rfl : i.val = i.val)]

theorem writePlanEntry_step (p : Plan) (a b c d e f g h k l m : Byte) (i : Fin 16) :
    writePlanEntry p (i.val + 1, [a, b, c, d, e, f, g, h, k, l, m]) = { p with
      entries := put p.entries i
        { stage := a.toNat, minGreen := 256 * b.toNat + c.toNat, maxGreen := 256 * d.toNat + e.toNat
          unitExt := f.toNat, demandDep := decide (g = 1), recalled := decide (h = 1), holdFlag := decide (k = 1)
          forceOff := 256 * l.toNat + m.toNat } } := by
  have flag (x : Byte) : decide (x.toNat = 1) = decide (x = 1) := by
    rw [decide_eq_decide]; exact ⟨fun h => BitVec.eq_of_toNat_eq h, fun h => by rw [h]; rfl⟩
  simp only [writePlanEntry, Nat.add_sub_cancel, finAt_eq_some.2 (rfl : i.val = i.val), planStepOf, stepStored, flag, be16]
  rfl

/-- Settles O8: each write passes its checks and stores what it carries, and what it brings about is read circuit by circuit and record by
record. -/
theorem openTablesWritten : Obligations.OpenTablesWritten := by
  refine ⟨fun s tag a hs hf => ⟨fun p k es hk hu hn hb hi hw => ?plan, fun es t ht hn hw hi hb hc => ?sched,
      fun es hn hi hb => ?reaction, fun es e hn he hi => ?proving, fun es e hn he hi hb => ?cable, fun es hn hi hb => ?reference⟩,
    fun near hnear => ⟨fun e => ?clampProving, fun e => ?clampCable⟩, badCable_iff, badReaction_iff,
    fun i n r h => reactionStored_eq i h, fun t p => rfl, writeSchedEntry_entry, fun i p e => ⟨decide_eq_true_iff, decide_eq_true_iff⟩,
    fun p a b c d e f g h k l m => ⟨rfl, writePlanEntry_step p a b c d e f g h k l m⟩⟩
  case plan => exact exec_tableWritePlan hs hf hk hu hn hb hi hw
  case sched => subst ht; exact exec_tableWriteSchedule hs hf hn hw hi hb hc
  case reaction =>
    obtain ⟨frame, tables, coll⟩ := reformReactions_frame (taken 0x02 tag s) { s.tables with
      reaction := writeAt s.tables.reaction (((addressed a).zip es).map fun w => (w.1, reactionStored w.1 w.2)) }
      (kindsWritten a)
    refine ⟨_, exec_tableWriteReaction hs hf hn hi hb, frame, tables, coll, fun i => ?_⟩
    rw [reformReactions_slots]
    simp only [kindsWritten, mem_filterMap_finAt]
    rfl
  case proving => exact exec_tableWriteProving hs hf hn he hi
  case cable => exact exec_tableWriteCable hs hf hn he hi hb
  case reference =>
    refine ⟨_, exec_tableWriteReference hs hf hn hi hb, ?_, ?_, fun c hc => ?_, fun c hc => ?_⟩
    · rw [referencesWritten_frame]
    · rw [referencesWritten_frame, taken_prov]
    · have written := (referencesWritten_records ((addressed a).filterMap (finAt 96)) { taken 0x02 tag s with
        tables := { s.tables with reference := writeAt s.tables.reference ((addressed a).zip es) } } c).1 (mem_filterMap_finAt.2 hc)
      rw [written.1, written.2, taken_prov]
      exact ⟨rfl, rfl⟩
    · have kept := (referencesWritten_records ((addressed a).filterMap (finAt 96)) { taken 0x02 tag s with
        tables := { s.tables with reference := writeAt s.tables.reference ((addressed a).zip es) } } c).2
        (fun h => hc (mem_filterMap_finAt.1 h))
      rw [kept.1, kept.2, taken_prov]
      exact ⟨rfl, rfl⟩
  case clampProving => simp (disch := decide) only [clampProving, clampTo_eq hnear]
  case clampCable => simp (disch := decide) only [clampCable, clampTo_eq hnear]

end Sys2Proof.Machine

namespace Sys2Proof.Machine

open Sys2Proof

/-! ## Clears at the fault table (R159, R163) -/

/-- What a clear taken at a stamp makes of the record it finds (R163). -/
def clearedRec (now : Stamp) (r : FaultRec) : Option FaultRec :=
  match r.state with
  | .activeUnack => some { r with state := .clearedUnack, last := now }
  | .activeAck => none
  | .clearedUnack => some r

theorem clearedRec_of_cleared {now : Stamp} {r : FaultRec} (h : r.state = .clearedUnack) : clearedRec now r = some r := by
  simp only [clearedRec, h]

/-- A clear leaves a record's kind and subject, and no record ACTIVE. -/
theorem clearedRec_some {now : Stamp} {r q : FaultRec} (h : clearedRec now r = some q) :
    q.kind = r.kind ∧ q.subject = r.subject ∧ q.state = .clearedUnack := by
  unfold clearedRec at h
  split at h <;> cases h
  · exact ⟨rfl, rfl, rfl⟩
  · rename_i hr; exact ⟨rfl, rfl, hr⟩

section Clears

variable {s : State} {k : Kind} {n : Nat} {i : Fin 64}

/-- The slot found holds a record of the kind and subject (R159). -/
theorem findSlot_holds (h : findSlot s k n = some i) :
    ∃ r : FaultRec, s.coll.slots[i] = some r ∧ r.kind = k ∧ r.subject = n := by
  have found := List.find?_some h
  split at found
  next r hr =>
    simp only [Bool.and_eq_true, decide_eq_true_eq] at found
    exact ⟨r, hr, found⟩
  next => cases found

theorem takeClear_unfound (h : findSlot s k n = none) : takeClear s k n = s := by
  simp only [takeClear, h]

theorem takeClear_found {r : FaultRec} (h : findSlot s k n = some i) (hr : s.coll.slots[i] = some r) : takeClear s k n =
    if r.state = .clearedUnack then s else setSlot s i (clearedRec (stamp s) r) := by
  simp only [takeClear, h, hr, clearedRec]
  cases r.state <;> rfl

theorem setSlot_slots (i j : Fin 64) (r : Option FaultRec) :
    (setSlot s i r).coll.slots[j] = if i = j then r else s.coll.slots[j] := by
  have slots : (setSlot s i r).coll.slots = put s.coll.slots i r := rfl
  rw [slots]
  split
  next h => rw [h, getElem_put_self]
  next h => exact getElem_put_of_ne _ _ _ _ h

/-- With one record of each kind and subject, a clear rewrites the record of its own and no other (R159, R163). -/
theorem takeClear_slots (ho : OneRecordEach s) (k : Kind) (n : Nat) (j : Fin 64) : (takeClear s k n).coll.slots[j] =
    s.coll.slots[j].bind fun r => if r.kind = k ∧ r.subject = n then clearedRec (stamp s) r else some r := by
  cases hf : findSlot s k n with
  | none =>
    rw [takeClear_unfound hf]
    cases hj : s.coll.slots[j] with
    | none => rfl
    | some q =>
      have other : ¬ (q.kind = k ∧ q.subject = n) := fun h => by
        rw [findSlot_some s k n ho j q hj h.1 h.2] at hf; cases hf
      rw [Option.bind_some, if_neg other]
  | some i =>
    obtain ⟨r, hr, hk, hn⟩ := findSlot_holds hf
    by_cases hj : i = j
    · subst hj
      have own : (if r.kind = k ∧ r.subject = n then clearedRec (stamp s) r else some r) = clearedRec (stamp s) r :=
        if_pos ⟨hk, hn⟩
      rw [takeClear_found hf hr, hr, Option.bind_some, own]
      split
      next hc => rw [hr, clearedRec_of_cleared hc]
      next => rw [setSlot_slots, if_pos rfl]
    · have same : (takeClear s k n).coll.slots[j] = s.coll.slots[j] := by
        rw [takeClear_found hf hr]
        split
        · rfl
        · rw [setSlot_slots, if_neg hj]
      rw [same]
      cases hq : s.coll.slots[j] with
      | none => rfl
      | some q =>
        have other : ¬ (q.kind = k ∧ q.subject = n) := fun h =>
          hj (ho i j r q hr hq (hk.trans h.1.symm) (hn.trans h.2.symm))
        rw [Option.bind_some, if_neg other]

/-- A table each record of which stems from one of the same kind and subject in the same slot has one of each, if that had (R159). -/
theorem OneRecordEach.of_slots {t : State} (ho : OneRecordEach s)
    (h : ∀ (i : Fin 64) (b : FaultRec), t.coll.slots[i] = some b →
      ∃ a : FaultRec, s.coll.slots[i] = some a ∧ b.kind = a.kind ∧ b.subject = a.subject) : OneRecordEach t := by
  intro i j a b ha hb hk hn
  obtain ⟨a', ha', hak, han⟩ := h i a ha
  obtain ⟨b', hb', hbk, hbn⟩ := h j b hb
  exact ho i j a' b' ha' hb' (hak ▸ hbk ▸ hk) (han ▸ hbn ▸ hn)

theorem OneRecordEach.takeClear (ho : OneRecordEach s) (k : Kind) (n : Nat) : OneRecordEach (takeClear s k n) := by
  refine ho.of_slots fun i b hb => ?_
  rw [takeClear_slots ho k n i, Option.bind_eq_some_iff] at hb
  obtain ⟨a, ha, h⟩ := hb
  refine ⟨a, ha, ?_⟩
  split at h
  · exact ⟨(clearedRec_some h).1, (clearedRec_some h).2.1⟩
  · cases h; exact ⟨rfl, rfl⟩

/-! ## What clears leave of the collector (R163, R167) -/

/-- The collector `b` is `a` after clears: each slot is as it was, or an ACTIVE record of it is ACTIVE no more, and the inhibit demand stands on
just when none was. -/
structure ClearedFrom (a b : Collector) : Prop where
  frame : b = { a with slots := b.slots, demandStands := b.demandStands }
  slots : ∀ i : Fin 64, b.slots[i] = a.slots[i] ∨
    ∃ r : FaultRec, a.slots[i] = some r ∧ r.isActive = true ∧ ∀ q : FaultRec, b.slots[i] = some q → q.isActive = false
  stands : StandsOn a b

theorem ClearedFrom.refl (a : Collector) : ClearedFrom a a := ⟨rfl, fun _ => .inl rfl, by simp [StandsOn]⟩

/-- No clear takes back what an earlier one did. -/
theorem ClearedFrom.trans {a b c : Collector} (h : ClearedFrom a b) (h' : ClearedFrom b c) : ClearedFrom a c := by
  have onward (i : Fin 64) (hb : b.slots[i] ≠ a.slots[i]) :
      ∃ r : FaultRec, a.slots[i] = some r ∧ r.isActive = true ∧ ∀ q : FaultRec, c.slots[i] = some q → q.isActive = false := by
    obtain ⟨r, hr, active, done⟩ := (h.slots i).resolve_left hb
    refine ⟨r, hr, active, fun q hq => ?_⟩
    rcases h'.slots i with e | ⟨r', hr', active', -⟩
    · exact done q (e ▸ hq)
    · rw [done r' hr'] at active'; cases active'
  refine ⟨?_, fun i => ?_, ?_⟩
  · rw [h'.frame, h.frame]
  · by_cases hb : b.slots[i] = a.slots[i]
    · have := h'.slots i; rwa [hb] at this
    · exact .inr (onward i hb)
  · have stands := h.stands
    have stands' := h'.stands
    unfold StandsOn at stands stands' ⊢
    rw [stands', stands]
    refine ⟨fun ⟨⟨hd, hb⟩, hc⟩ => ⟨hd, hc.trans hb⟩, fun ⟨hd, hc⟩ => ?_⟩
    have hb : b.slots = a.slots := Vector.ext fun i hi => by
      by_contra hb
      obtain ⟨r, hr, active, done⟩ := onward ⟨i, hi⟩ hb
      rw [hc] at done
      rw [done r hr] at active; cases active
    exact ⟨⟨hd, hb⟩, hc.trans hb.symm⟩

theorem clearedFrom_takeClear (s : State) (k : Kind) (n : Nat) : ClearedFrom s.coll (takeClear s k n).coll := by
  cases hf : findSlot s k n with
  | none => rw [takeClear_unfound hf]; exact .refl _
  | some i =>
    obtain ⟨r, hr, -, -⟩ := findSlot_holds hf
    rw [takeClear_found hf hr]
    split
    · exact .refl _
    next active =>
      have done (q : FaultRec) (hq : clearedRec (stamp s) r = some q) : q.isActive = false := by
        rw [FaultRec.isActive, (clearedRec_some hq).2.2]; rfl
      refine ⟨rfl, fun j => ?_, ?_⟩
      · rw [setSlot_slots]
        split
        next hj => exact .inr ⟨r, hj ▸ hr, decide_eq_true active, done⟩
        · exact .inl rfl
      · refine iff_of_false (by simp [setSlot]) fun h => ?_
        have same : (setSlot s i (clearedRec (stamp s) r)).coll.slots[i] = some r := by rw [h.2, hr]
        rw [setSlot_slots, if_pos rfl] at same
        exact active (clearedRec_some same).2.2

end Clears

/-! ## PLAN_INVALID of the plans for which it no longer stands (R66) -/

section Invalid

variable {s : State}

/-- PLAN_INVALID of the plan is raised and no longer stands (R66). -/
def outdated (s : State) (p : Fin 8) : Bool := mem s.eng.invalidRaised p && !invalidStands s p

/-- PLAN_INVALID of a plan cleared where it is raised and no longer stands (R66). -/
def dropInvalid (s : State) (p : Fin 8) : State :=
  if outdated s p then
    setEng (takeClear s .planInvalid (num p)) fun e => { e with invalidRaised := del e.invalidRaised p }
  else s

theorem refreshInvalid_eq (s : State) : refreshInvalid s = (idx 8).foldl dropInvalid s := rfl

theorem dropInvalid_kept {p : Fin 8} (h : outdated s p = false) : dropInvalid s p = s := by
  rw [dropInvalid, h]; rfl

theorem dropInvalid_outdated {p : Fin 8} (h : outdated s p = true) : dropInvalid s p =
    { s with coll := (takeClear s .planInvalid (num p)).coll, eng := { s.eng with invalidRaised := del s.eng.invalidRaised p } } := by
  rw [dropInvalid, h, takeClear_frame]; rfl

/-- Clearing one plan's PLAN_INVALID leaves each other plan as it was. -/
theorem outdated_dropInvalid (p q : Fin 8) : outdated (dropInvalid s p) q = (outdated s q && decide (q ≠ p)) := by
  cases h : outdated s p with
  | true =>
    have raised : mem (dropInvalid s p).eng.invalidRaised q = (mem s.eng.invalidRaised q && decide (p.val ≠ q.val)) := by
      rw [dropInvalid_outdated h]; exact mem_del _ _ _
    have stands : invalidStands (dropInvalid s p) q = invalidStands s q := by rw [dropInvalid_outdated h]; rfl
    rw [outdated, outdated, raised, stands, Bool.and_right_comm]
    simp only [ne_eq, Fin.ext_iff, eq_comm]
  | false =>
    rw [dropInvalid_kept h]
    by_cases e : q = p
    · rw [e, h]; rfl
    · rw [decide_eq_true e, Bool.and_true]

theorem clearedFrom_dropInvalid (p : Fin 8) : ClearedFrom s.coll (dropInvalid s p).coll := by
  cases h : outdated s p with
  | true => rw [dropInvalid_outdated h]; exact clearedFrom_takeClear s _ _
  | false => rw [dropInvalid_kept h]; exact .refl _

theorem clearedFrom_refreshInvalid (s : State) : ClearedFrom s.coll (refreshInvalid s).coll := by
  rw [refreshInvalid_eq]
  generalize idx 8 = l
  induction l generalizing s with
  | nil => exact .refl _
  | cons p l ih => exact (clearedFrom_dropInvalid p).trans (ih _)

/-- Only what is outdated is dropped from the set of the plans it is raised for. -/
theorem refreshInvalid_raised (s : State) (q : Fin 8) :
    mem (refreshInvalid s).eng.invalidRaised q = (mem s.eng.invalidRaised q && !outdated s q) := by
  have key (l : List (Fin 8)) (s : State) : mem (l.foldl dropInvalid s).eng.invalidRaised q =
      (mem s.eng.invalidRaised q && !(decide (q ∈ l) && outdated s q)) := by
    induction l generalizing s with
    | nil => simp
    | cons p l ih =>
      rw [List.foldl_cons, ih, outdated_dropInvalid]
      cases h : outdated s p with
      | true =>
        rw [dropInvalid_outdated h]
        by_cases e : q = p
        · subst e; simp [mem_del, h]
        · simp [mem_del, e, Ne.symm e, Fin.val_inj]
      | false =>
        rw [dropInvalid_kept h]
        by_cases e : q = p
        · subst e; simp [h]
        · simp [e]
  rw [refreshInvalid_eq, key]
  simp

/-- A record of PLAN_INVALID for a plan of the list that is outdated is cleared (R66), and any other stays. -/
def droppedRec (s : State) (l : List (Fin 8)) (r : FaultRec) : Option FaultRec :=
  if r.kind = .planInvalid ∧ ∃ q ∈ l, r.subject = num q ∧ outdated s q = true then clearedRec (stamp s) r else some r

/-- Dropping one plan and then those of a list drops what the longer list names. -/
theorem droppedRec_cons {p : Fin 8} (h : outdated s p = true) (l : List (Fin 8)) (r : FaultRec) :
    ((if r.kind = .planInvalid ∧ r.subject = num p then clearedRec (stamp s) r else some r).bind
      (droppedRec (dropInvalid s p) l)) = droppedRec s (p :: l) r := by
  have now : stamp (dropInvalid s p) = stamp s := by rw [dropInvalid_outdated h]; rfl
  by_cases own : r.kind = .planInvalid ∧ r.subject = num p
  · have whole : droppedRec s (p :: l) r = clearedRec (stamp s) r :=
      if_pos ⟨own.1, p, List.mem_cons_self, own.2, h⟩
    rw [if_pos own, whole]
    cases hc : clearedRec (stamp s) r with
    | none => rfl
    | some q =>
      refine if_neg ?_
      rintro ⟨-, p', -, hs, ho⟩
      rw [(clearedRec_some hc).2.1, own.2] at hs
      rw [outdated_dropInvalid, show p' = p from Fin.ext (by simpa [num] using hs.symm)] at ho
      simp at ho
  · rw [if_neg own, Option.bind_some, droppedRec, droppedRec, now]
    congr 1
    simp only [outdated_dropInvalid, Bool.and_eq_true, decide_eq_true_eq, List.mem_cons, eq_iff_iff]
    refine and_congr_right fun hk => ⟨?_, ?_⟩
    · rintro ⟨q, hq, hs, ho, -⟩; exact ⟨q, .inr hq, hs, ho⟩
    · rintro ⟨q, hq, hs, ho⟩
      have ne : q ≠ p := fun e => own ⟨hk, e ▸ hs⟩
      exact ⟨q, hq.resolve_left ne, hs, ho, ne⟩

/-- With one record of each kind and subject, the records of the plans dropped are cleared and no other is touched. -/
theorem refreshInvalid_slots (ho : OneRecordEach s) (i : Fin 64) :
    (refreshInvalid s).coll.slots[i] = s.coll.slots[i].bind (droppedRec s (idx 8)) := by
  rw [refreshInvalid_eq]
  generalize idx 8 = l
  induction l generalizing s with
  | nil =>
    have none : droppedRec s [] = some := funext fun r => by simp [droppedRec]
    rw [none, Option.bind_fun_some, List.foldl_nil]
  | cons p l ih =>
    rw [List.foldl_cons]
    cases h : outdated s p with
    | true =>
      have coll : (dropInvalid s p).coll = (takeClear s .planInvalid (num p)).coll := by rw [dropInvalid_outdated h]
      have each : OneRecordEach (dropInvalid s p) := by
        unfold OneRecordEach; rw [coll]; exact ho.takeClear _ _
      rw [ih each, coll, takeClear_slots ho, Option.bind_assoc]
      exact congrArg s.coll.slots[i].bind (funext (droppedRec_cons h l))
    | false =>
      rw [dropInvalid_kept h, ih ho]
      refine congrArg s.coll.slots[i].bind (funext fun r => ?_)
      have drop : (∃ q ∈ p :: l, r.subject = num q ∧ outdated s q = true) ↔
          ∃ q ∈ l, r.subject = num q ∧ outdated s q = true := by
        simp only [List.mem_cons, or_and_right, exists_or, exists_eq_left, h, Bool.false_eq_true, and_false, false_or]
      simp only [droppedRec, drop]

end Invalid

end Sys2Proof.Machine

namespace Sys2Proof.Machine

open Sys2Proof

/-! ## Governing plans (R66) -/

section Governing

variable {s : State}

theorem planValid_iff {p : Fin 8} : planValid s p = true ↔ s.tables.plan[p].state = .valid := decide_eq_true_iff

theorem invalidStands_iff {p : Fin 8} : invalidStands s p = true ↔ s.tables.plan[p].state ≠ .valid ∧
    (p = s.eng.governing ∨ (p = fallback s ∧ s.tables.plan[s.eng.governing].state ≠ .valid)) := by
  simp only [invalidStands, Bool.and_eq_true, Bool.or_eq_true, Bool.not_eq_true', ← Bool.not_eq_true, planValid_iff, decide_eq_true_eq, ne_eq]

/-- PLAN_INVALID stays raised for the plans for which it stands. -/
theorem refreshInvalid_raised_iff {q : Fin 8} : mem (refreshInvalid s).eng.invalidRaised q = true ↔
    mem s.eng.invalidRaised q = true ∧ s.tables.plan[q].state ≠ .valid ∧
      (q = s.eng.governing ∨ (q = fallback s ∧ s.tables.plan[s.eng.governing].state ≠ .valid)) := by
  rw [← invalidStands_iff, refreshInvalid_raised, outdated]
  cases mem s.eng.invalidRaised q <;> simp

theorem outdated_iff_dropped {q : Fin 8} : outdated s q = true ↔
    mem s.eng.invalidRaised q = true ∧ mem (refreshInvalid s).eng.invalidRaised q = false := by
  rw [refreshInvalid_raised, outdated]
  cases mem s.eng.invalidRaised q <;> simp

theorem droppedRec_all (r : FaultRec) : droppedRec s (idx 8) r =
    if r.kind = .planInvalid ∧ (∃ q : Fin 8, r.subject = num q ∧ mem s.eng.invalidRaised q = true ∧
      mem (refreshInvalid s).eng.invalidRaised q = false) then clearedRec (stamp s) r else some r := by
  simp only [droppedRec, outdated_iff_dropped, idx, List.mem_finRange, true_and]

/-- A raise of PLAN_INVALID changes the collector and the set of the plans it is raised for. -/
theorem raiseInvalid_frame (p : Fin 8) : raiseInvalid s p =
    { s with coll := (raiseInvalid s p).coll, eng := { s.eng with invalidRaised := (raiseInvalid s p).eng.invalidRaised } } := by
  unfold raiseInvalid
  rw [takeRaise_frame]
  rfl

theorem raiseInvalid_coll (p : Fin 8) :
    (raiseInvalid s p).coll = (takeRaise s .planInvalid (num p) (.errIndex (invalidDetail s p))).coll := rfl

theorem raiseInvalid_raised (p q : Fin 8) :
    mem (raiseInvalid s p).eng.invalidRaised q = true ↔ mem s.eng.invalidRaised q = true ∨ q = p := by
  have raised : (raiseInvalid s p).eng.invalidRaised = ins s.eng.invalidRaised p := by
    unfold raiseInvalid; rw [takeRaise_frame]; rfl
  rw [raised, mem_ins _ _ _ p.isLt, Bool.or_eq_true, decide_eq_true_eq, Fin.val_inj, @eq_comm _ p q]

/-- Dealing with a governing plan changes the collector, the pending plan and the set of the plans PLAN_INVALID is raised for. -/
theorem dealGoverning_frame (p : Fin 8) : dealGoverning s p = { s with
    coll := (dealGoverning s p).coll
    eng := { s.eng with
      pendingPlan := (dealGoverning s p).eng.pendingPlan, invalidRaised := (dealGoverning s p).eng.invalidRaised } } := by
  unfold dealGoverning
  dsimp only
  rw [raiseInvalid_frame (s := raiseInvalid s p), raiseInvalid_frame p]
  repeat' split
  all_goals rfl

section Deal

variable {p r : Fin 8} (running : s.eng.running = some r)
include running

theorem dealGoverning_running (h : r = p) : dealGoverning s p = setEng s fun e => { e with pendingPlan := none } := by
  unfold dealGoverning; rw [if_pos (running.trans (congrArg some h))]

theorem dealGoverning_valid (h : r ≠ p) (hv : s.tables.plan[p].state = .valid) :
    dealGoverning s p = setEng s fun e => { e with pendingPlan := some p } := by
  unfold dealGoverning
  rw [if_neg (by rw [running]; exact fun e => h (Option.some.inj e)), if_pos (planValid_iff.2 hv)]

/-- A governing plan that is neither running nor VALID is raised, and the fallback plan is dealt with in its place. -/
theorem dealGoverning_invalid {f : Fin 8} (hf : fallback s = f) (h : r ≠ p) (hv : s.tables.plan[p].state ≠ .valid) : dealGoverning s p =
    if r = f then setEng (raiseInvalid s p) fun e => { e with pendingPlan := none }
    else if s.tables.plan[f].state = .valid then setEng (raiseInvalid s p) fun e => { e with pendingPlan := some f }
    else if f = p then raiseInvalid s p else raiseInvalid (raiseInvalid s p) f := by
  subst hf
  unfold dealGoverning
  rw [if_neg (by rw [running]; exact fun e => h (Option.some.inj e)), if_neg (by rwa [planValid_iff])]
  simp only [running, Option.some.injEq, planValid_iff]

end Deal

/-- The plan named as the governing plan, with the clears of PLAN_INVALID that this brings (R66). -/
def governed (s : State) (p : Fin 8) : State := refreshInvalid (setEng s fun e => { e with governing := p })

theorem governed_frame (p : Fin 8) : governed s p = { s with
    coll := { s.coll with slots := (governed s p).coll.slots, demandStands := (governed s p).coll.demandStands }
    eng := { s.eng with governing := p, invalidRaised := (governed s p).eng.invalidRaised } } := by
  unfold governed
  rw [refreshInvalid_frame, (clearedFrom_refreshInvalid _).frame]
  rfl

theorem governed_running (p : Fin 8) : (governed s p).eng.running = s.eng.running := by rw [governed_frame]

theorem governed_tables (p : Fin 8) : (governed s p).tables = s.tables := by rw [governed_frame]

theorem governed_fallback (p : Fin 8) : fallback (governed s p) = fallback s := by
  unfold fallback; rw [governed_tables]

theorem governed_stands (p : Fin 8) : StandsOn s.coll (governed s p).coll := (clearedFrom_refreshInvalid _).stands

theorem governed_raised_iff {p q : Fin 8} : mem (governed s p).eng.invalidRaised q = true ↔ mem s.eng.invalidRaised q = true ∧
    s.tables.plan[q].state ≠ .valid ∧ (q = p ∨ (q = fallback s ∧ s.tables.plan[p].state ≠ .valid)) :=
  refreshInvalid_raised_iff

/-- The records of the plans whose PLAN_INVALID is dropped are cleared, and no other is touched (R163). -/
theorem governed_slots (ho : OneRecordEach s) (p : Fin 8) (i : Fin 64) : (governed s p).coll.slots[i] =
    s.coll.slots[i].bind fun r => if ∃ q : Fin 8, r.kind = .planInvalid ∧ r.subject = num q ∧ mem s.eng.invalidRaised q = true ∧
      mem (governed s p).eng.invalidRaised q = false then clearedRec (stamp s) r else some r := by
  have named : OneRecordEach (setEng s fun e => { e with governing := p }) := ho
  refine (refreshInvalid_slots named i).trans (congrArg s.coll.slots[i].bind (funext fun r => ?_))
  rw [droppedRec_all]
  simp only [exists_and_left]
  rfl

theorem nameGoverning_idle {p : Fin 8} (h : s.eng.running = none) : nameGoverning s p = governed s p := by
  have idle : (governed s p).eng.running.isSome = false := by rw [governed_running, h]; rfl
  exact if_neg (Bool.eq_false_iff.1 idle)

theorem nameGoverning_running {p r : Fin 8} (h : s.eng.running = some r) : nameGoverning s p = dealGoverning (governed s p) p := by
  have runs : (governed s p).eng.running.isSome = true := by rw [governed_running, h]; rfl
  exact if_pos runs

theorem nameGoverning_frame (p : Fin 8) : nameGoverning s p = { s with
    coll := (nameGoverning s p).coll
    eng := { s.eng with
      governing := p, pendingPlan := (nameGoverning s p).eng.pendingPlan, invalidRaised := (nameGoverning s p).eng.invalidRaised } } := by
  cases h : s.eng.running with
  | none => rw [nameGoverning_idle h, governed_frame]
  | some r => rw [nameGoverning_running h, dealGoverning_frame, governed_frame]

end Governing

end Sys2Proof.Machine

namespace Sys2Proof.Machine

open Sys2Proof

/-! ## The schedule mode and the exits from FLASH and DARK (R83, R84) -/

section Exits

variable {s : State}

theorem stoppedFor_iff {r : Reason} : stoppedFor s r = true ↔ (s.jm.mode = .flash ∨ s.jm.mode = .dark) ∧ s.jm.reason = r := by
  simp only [stoppedFor, Bool.and_eq_true, Bool.or_eq_true, decide_eq_true_eq]

theorem scheduled_iff : nameSchedule.scheduled s = true ↔ ∀ d : Departure, s.jm.departure = some d → d.reason = .schedule := by
  unfold nameSchedule.scheduled
  cases s.jm.departure <;> simp

/-- An exit whose schedule mode is PLAN leaves by a start-up mode. -/
theorem takeExit_plan {r : Reason} (h : s.jm.schedMode = .plan) :
    takeExit s r = enterMode s (if s.jm.mode = .flash then .startRed else .startFlash) r := by
  simp only [takeExit, h, schedTarget, exitMode]

/-- An exit for another reason than SCHEDULE ends in the schedule mode. -/
theorem takeExit_target {r : Reason} {x : Mode} (h : schedTarget s.jm.schedMode = some x) (hr : r ≠ .schedule) :
    takeExit s r = enterOrKeep s x .schedule := by
  simp only [takeExit, h, hr, if_false]

theorem noPlanExit_idle (h : ¬ ((s.jm.mode = .flash ∨ s.jm.mode = .dark) ∧ s.jm.reason = .noPlan)) : noPlanExit s = s :=
  if_neg fun stopped => h (stoppedFor_iff.1 stopped)

theorem noPlanExit_due (h : (s.jm.mode = .flash ∨ s.jm.mode = .dark) ∧ s.jm.reason = .noPlan) : noPlanExit s = takeExit s .noPlan :=
  if_pos (stoppedFor_iff.2 h)

/-- An orderly stop stands once requested (R72). -/
theorem orderlyStop_orderly (s : State) : (orderlyStop s).eng.orderly = true := by
  unfold orderlyStop
  dsimp only
  split
  · refine (foldl_inv (fun t : State => t.eng.orderly) _ (fun t g => ?_) (idx 32) _).trans rfl
    split
    · rw [handTarget_frame]; rfl
    · rfl
  · rfl

section Named

variable {m : SchedMode}

/-- The schedule mode recorded (R83). -/
abbrev noteSchedule (s : State) (m : SchedMode) : State := setMode s fun j => { j with schedMode := m }

theorem nameSchedule_departs (h : s.jm.mode = .plan) (hm : m ≠ .plan)
    (hd : ∀ d : Departure, s.jm.departure = some d → d.reason = .schedule) :
    nameSchedule s m = orderlyStop (setMode (noteSchedule s m) fun j =>
      { j with departure := some ⟨if m = .flash then .flash else .dark, .schedule⟩ }) := by
  have free : nameSchedule.scheduled s = true := scheduled_iff.2 hd
  have plan : (noteSchedule s m).jm.mode = .plan := h
  cases m with
  | plan => exact absurd rfl hm
  | flash | dark => simp only [nameSchedule, h, free, if_true, setDeparture, plan, reduceCtorEq, if_false]

theorem nameSchedule_stopped (h : s.jm.mode = .flash ∨ s.jm.mode = .dark) (hs : s.jm.started = true) :
    nameSchedule s m = match schedTarget m with
      | some x => if stoppedFor s .schedule || stoppedFor s .noPlan then enterOrKeep (noteSchedule s m) x .schedule else noteSchedule s m
      | none => if stoppedFor s .schedule then takeExit (noteSchedule s m) .schedule else noteSchedule s m := by
  rcases h with h | h <;> · simp only [nameSchedule, h, hs]; rfl

/-- Elsewhere the schedule mode is recorded only. -/
theorem nameSchedule_noted
    (hp : ¬ (s.jm.mode = .plan ∧ m ≠ .plan ∧ ∀ d : Departure, s.jm.departure = some d → d.reason = .schedule))
    (hs : ¬ ((s.jm.mode = .flash ∨ s.jm.mode = .dark) ∧ s.jm.started = true ∧
      (s.jm.reason = .schedule ∨ (m ≠ .plan ∧ s.jm.reason = .noPlan)))) : nameSchedule s m = noteSchedule s m := by
  have stay (h : s.jm.mode = .flash ∨ s.jm.mode = .dark) : nameSchedule s m = noteSchedule s m := by
    by_cases started : s.jm.started = true
    · rw [nameSchedule_stopped h started]
      have other : s.jm.reason ≠ .schedule := fun e => hs ⟨h, started, .inl e⟩
      have none : stoppedFor s .schedule = false := Bool.eq_false_iff.2 fun e => other (stoppedFor_iff.1 e).2
      cases m with
      | plan => simp only [schedTarget, none]; rfl
      | flash | dark =>
        have free : stoppedFor s .noPlan = false :=
          Bool.eq_false_iff.2 fun e => hs ⟨h, started, .inr ⟨by decide, (stoppedFor_iff.1 e).2⟩⟩
        simp only [schedTarget, none, free]; rfl
    · rcases h with h | h <;> · simp only [nameSchedule, h, started]; rfl
  cases hm : s.jm.mode with
  | plan =>
    have waits : m ≠ .plan → nameSchedule.scheduled s = false := fun e =>
      Bool.eq_false_iff.2 fun free => hp ⟨hm, e, scheduled_iff.1 free⟩
    cases m with
    | plan => simp only [nameSchedule, hm]
    | flash | dark => simp only [nameSchedule, hm, waits (by decide)]; rfl
  | flash => exact stay (.inl hm)
  | dark => exact stay (.inr hm)
  | startFlash | startRed | directDrive => simp only [nameSchedule, hm]

end Named

end Exits

/-! ## The served groups stopped (R67, R72) -/

section Stopped

variable {s : State}

/-- A target handed to several groups is handed to each as to it alone. -/
theorem handTargets_each (s : State) (gs : List (Fin 32)) (hn : gs.Nodup) (t : Target) (g : Fin 32) :
    (handTargets s gs t).groups[g] = (if g ∈ gs then (handTarget s g t).groups[g] else s.groups[g]) ∧
    (handTargets s gs t).clearRuns[g] = if g ∈ gs then (handTarget s g t).clearRuns[g] else s.clearRuns[g] := by
  have each := foldl_local (fun s g => handTarget s g t) (fun s g => (s.groups[g], s.clearRuns[g])) (fun s => (s.tables, s.inPulse))
    (fun s a b h => by rw [(handTarget_of_ne s a b t h).1, (handTarget_of_ne s a b t h).2])
    (fun s a => by rw [handTarget_frame])
    (fun s u a hc hv => by
      obtain ⟨ht, hp⟩ := Prod.mk.inj hc
      obtain ⟨hg, hr⟩ := Prod.mk.inj hv
      exact Prod.ext (handTarget_local t ht hp hg hr).1 (handTarget_local t ht hp hg hr).2) gs hn s g
  constructor
  · refine (congrArg Prod.fst each).trans ?_
    split <;> rfl
  · refine (congrArg Prod.snd each).trans ?_
    split <;> rfl

theorem stoppedServed (s : State) : StoppedServed s (stopServed s) := by
  have frame := handTargets_frame s ((idx 32).filter fun g => mem s.eng.served g) .stop
  refine ⟨?_, fun g => ?_⟩
  · unfold stopServed
    dsimp only
    rw [frame]
    rfl
  · have each := handTargets_each s ((idx 32).filter fun g => mem s.eng.served g) ((List.nodup_finRange 32).filter _) .stop g
    simp only [List.mem_filter, idx, List.mem_finRange, true_and] at each
    exact each

end Stopped

/-! ## A takeover (R67, R71) -/

section Takeover

variable {s : State} {q : Fin 8}

/-- The state from which a plan that takes over begins (R67). -/
def takenOver (s : State) (q : Fin 8) : State := setEng s fun e =>
  { e with running := some q, pendingPlan := none, passed := 0, resync := false, dwell := coordinated s q,
           lastReading := counter s q, maxElapsed := none, returned := true, bigStep := false, backStep := false,
           rollover := false }

theorem firstWanted_of_firstFrom {w : Option (Fin 16)} (h : FirstFrom (nSteps s q) (wanted s q) w) : firstWanted s q = w :=
  find_first _ _ _ h

theorem holdStep_of_firstFrom {h : Option (Fin 16)} (hh : FirstFrom (nSteps s q) (fun k => (stepOf s q k).holdFlag) h) :
    holdStep s q = h := find_first _ _ _ hh

/-- The step that a takeover leads to: the hold step of a coordinated plan, the first wanted step of an isolated one or for NEXT, and for a STEP to a
stage the first step that names it, where one does. -/
def takeoverStep (s : State) (q : Fin 8) : Option StepReq → Option (Fin 16)
  | some (.stage st) =>
    match (idx 16).find? fun k => decide (k.val < nSteps s q) && decide (stageIx s q k = some st) with
    | some k => some k
    | none => firstWanted s q
  | some .next => firstWanted s q
  | none => if coordinated s q then holdStep s q else firstWanted s q

theorem takeover_eq (s : State) (q : Fin 8) (req : Option StepReq) : takeover s q req = match takeoverStep s q req with
    | some b => beginInterstage (takenOver s q) q b
    | none => setEng (stopServed (takenOver s q)) fun e => { e with cur := 0 } := by
  match req with
  | none => rfl
  | some .next => rfl
  | some (.stage st) => rfl

theorem takeoverStep_eq {req : Option StepReq} {w h : Option (Fin 16)} (hw : FirstFrom (nSteps s q) (wanted s q) w)
    (hold : req = none → 0 < s.tables.plan[q].cycle → FirstFrom (nSteps s q) (fun k => (stepOf s q k).holdFlag) h)
    (isolated : req = none → s.tables.plan[q].cycle = 0 → h = w) (next : req = some .next → h = w)
    (named : ∀ st : Fin 16, req = some (.stage st) → ∃ x : Option (Fin 16),
      FirstFrom (nSteps s q) (fun k => decide ((stepOf s q k).stage = num st)) x ∧ h = x.orElse fun _ => w) :
    takeoverStep s q req = h := by
  have first : firstWanted s q = w := firstWanted_of_firstFrom hw
  match req with
  | none =>
    by_cases hc : 0 < s.tables.plan[q].cycle
    · exact (if_pos (decide_eq_true hc)).trans (holdStep_of_firstFrom (hold rfl hc))
    · rw [isolated rfl (Nat.eq_zero_of_not_pos hc)]
      exact (if_neg (by simpa [coordinated] using hc)).trans first
  | some .next => exact first.trans (next rfl).symm
  | some (.stage st) =>
    obtain ⟨x, hx, e⟩ := named st rfl
    have found := find_first _ _ _ hx
    simp only [← stageIx_eq_some] at found
    rw [takeoverStep, found, first, e]
    cases x <;> rfl

end Takeover

/-! ## A rest with nothing served (R58, R67) -/

section Rest

variable {s : State} {p : Fin 8}

theorem restPulse_orderly (h : s.eng.orderly = true) : restPulse s p = s := if_pos h

theorem restPulse_pending {q : Fin 8} (ho : s.eng.orderly = false) (hq : s.eng.pendingPlan = some q) (hh : holdStands s = false) :
    restPulse s p = takeover s q none := by
  simp only [restPulse, ho, hq, hh]; rfl

theorem restPulse_seeks (ho : s.eng.orderly = false) (hc : s.eng.cur.val < nSteps s p)
    (h : s.eng.pendingPlan = none ∨ holdStands s = true) : SoughtFrom s p (restPulse s p) := by
  refine sought s p hc _ rfl _ ?_
  unfold restPulse
  rw [if_neg (by rw [ho]; decide)]
  split
  next q hq hh => rcases h with h | h <;> simp_all
  next => rfl

end Rest

/-- Settles O46, by the outcome of naming a plan or a schedule mode in each mode and running plan. -/
theorem governingNamed : Obligations.GoverningNamed := by
  refine ⟨fun s t p f ht hf => ?_, fun s p d hd => ⟨?_, fun q => raiseInvalid_raised p q⟩, fun s w m hw => ?_, fun s => ?_,
    fun s a q req w h ha hw hold isolated next named => ?_, fun s p => ?_⟩
  · subst ht hf
    refine ⟨nameGoverning_frame p, governed s p, governed_frame p, governed_stands p, fun q => governed_raised_iff, fun ho i => ?_,
      nameGoverning_idle, fun r hr => ?_⟩
    · rw [governed_slots ho]
      refine ⟨fun none => by rw [none]; rfl, fun r hr => ?_⟩
      rw [hr, Option.bind_some]
      exact ⟨fun dropped => if_pos dropped, fun kept => if_neg kept⟩
    · have runs : (governed s p).eng.running = some r := (governed_running p).trans hr
      have state (q : Fin 8) : (governed s p).tables.plan[q].state = s.tables.plan[q].state := by rw [governed_tables]
      rw [nameGoverning_running hr]
      refine ⟨dealGoverning_running runs, fun hrp hv => dealGoverning_valid runs hrp ((state p).trans hv), fun hrp hv => ?_⟩
      rw [dealGoverning_invalid runs (governed_fallback p) hrp (by rw [state]; exact hv)]
      refine ⟨_, rfl, fun e => if_pos e, fun e valid => ?_, fun e invalid => ?_⟩
      · rw [if_neg e, if_pos ((state _).trans valid)]
      · rw [if_neg e, if_neg (by rw [state]; exact invalid)]
  · have detail : invalidDetail s p = d := hd.symm
    rw [← detail, ← raiseInvalid_coll]
    exact raiseInvalid_frame p
  · obtain rfl : noteSchedule s m = w := hw.symm
    refine ⟨fun hp hm hd => ?_, fun stopped started => ⟨fun x hx hr => ?_, fun hm hr => ?_⟩, nameSchedule_noted⟩
    · rw [nameSchedule_departs hp hm hd]
      exact ⟨rfl, orderlyStop_orderly _⟩
    · have due : (stoppedFor s .schedule || stoppedFor s .noPlan) = true := by
        rw [Bool.or_eq_true, stoppedFor_iff, stoppedFor_iff]
        exact hr.imp (⟨stopped, ·⟩) (⟨stopped, ·⟩)
      rw [nameSchedule_stopped stopped started, hx]
      exact if_pos due
    · have due : stoppedFor s .schedule = true := stoppedFor_iff.2 ⟨stopped, hr⟩
      subst hm
      rw [nameSchedule_stopped stopped started]
      exact (if_pos due).trans (takeExit_plan rfl)
  · refine ⟨noPlanExit_idle, fun stopped reason => ⟨fun plan => ?_, fun x hx => ?_⟩⟩
    · rw [noPlanExit_due ⟨stopped, reason⟩, takeExit_plan plan]
    · rw [noPlanExit_due ⟨stopped, reason⟩, takeExit_target hx (by decide)]
      rfl
  · obtain rfl : takenOver s q = a := ha.symm
    rw [takeover_eq, takeoverStep_eq hw hold isolated next named]
    refine ⟨fun b hb => by rw [hb], fun hn => ⟨_, stoppedServed _, by rw [hn]; rfl⟩⟩
  · exact ⟨restPulse_orderly, fun ho q hq hh => restPulse_pending ho hq hh, fun ho hc hp => restPulse_seeks ho hc hp⟩

end Sys2Proof.Machine

namespace Sys2Proof.Machine

open Sys2Proof

/-! ## The cycle counter (R64) -/

section Counter

variable {s : State} {p : Fin 8}

/-- The forward run from one reading to another over a cycle, as an integer residue (R64). -/
theorem forward_run (a b c : Nat) (hc : 0 < c) : (((a + c - b % c) % c : Nat) : Int) = ((a : Int) - b) % c := by
  have short : b % c ≤ a + c := (Nat.mod_lt b hc).le.trans (Nat.le_add_left c a)
  have turns : ((a + c - b % c : Nat) : Int) = (a : Int) - b + c * (1 + b / c) := by
    have split := Int.emod_add_mul_ediv (b : Int) c
    push_cast [short]
    linear_combination -split
  rw [Int.natCast_mod, turns, Int.add_mul_emod_self_left]

theorem coordinated_iff : coordinated s p = true ↔ 0 < s.tables.plan[p].cycle := decide_eq_true_iff

/-- Reading the counter takes the steps passed into the passed set and takes up what was reported of the clock (R64). -/
theorem readCounter_eq (h : s.eng.running = some p) : readCounter s = { s with eng := { s.eng with
    passed := if coordinated s p then s.eng.passed ||| reached s p (counter s p) else s.eng.passed
    lastReading := if coordinated s p then counter s p else s.eng.lastReading
    bigStep := false, backStep := false, rollover := false } } := by
  unfold readCounter
  rw [h]
  cases hc : coordinated s p <;> simp only [hc, if_true, Bool.false_eq_true, if_false] <;> rfl

/-- The forward run from the last reading to a point of the cycle (R64). -/
def runTo (s : State) (p : Fin 8) (x : Nat) : Nat :=
  (x + s.tables.plan[p].cycle - s.eng.lastReading % s.tables.plan[p].cycle) % s.tables.plan[p].cycle

/-- A reading takes in every step: after a large step, or a long run with a rollover (R64). -/
def takesEvery (s : State) (p : Fin 8) (reading : Nat) : Bool :=
  s.eng.bigStep || (s.eng.rollover && decide (20 < runTo s p reading))

theorem runTo_eq (h : 0 < s.tables.plan[p].cycle) (x : Nat) :
    (runTo s p x : Int) = ((x : Int) - s.eng.lastReading) % s.tables.plan[p].cycle := forward_run _ _ _ h

theorem takesEvery_iff {reading : Nat} : takesEvery s p reading = true ↔
    s.eng.bigStep = true ∨ (s.eng.rollover = true ∧ 20 < runTo s p reading) := by
  simp only [takesEvery, Bool.or_eq_true, Bool.and_eq_true, decide_eq_true_eq]

/-- The steps reached at a reading: those of the forward run, but all or none as the clock's steps have it (R64). -/
theorem mem_reached (reading : Nat) (k : Fin 16) : mem (reached s p reading) k = true ↔ k.val < nSteps s p ∧
    (takesEvery s p reading = true ∨ (s.eng.backStep = false ∧ 1 ≤ runTo s p (stepOf s p k).forceOff ∧
      runTo s p (stepOf s p k).forceOff ≤ runTo s p reading)) := by
  have gather : reached s p reading = if !takesEvery s p reading && s.eng.backStep then 0 else
      (idx 16).foldl (fun acc k => if decide (k.val < nSteps s p) && (takesEvery s p reading ||
        (decide (1 ≤ runTo s p (stepOf s p k).forceOff) && decide (runTo s p (stepOf s p k).forceOff ≤ runTo s p reading)))
        then ins acc k else acc) 0 := rfl
  rw [gather]
  cases every : takesEvery s p reading <;> cases back : s.eng.backStep
  case false.true =>
    rw [if_pos (by decide), mem_zero]
    simp
  all_goals
    rw [if_neg (by decide), mem_gather _ (Nat.le_refl 16), mem_zero]
    simp

end Counter

/-! ## Step ends (R60 to R65, R67, R71, R72) -/

section StepEnd

variable {s : State} {p : Fin 8}

theorem stepMature_iff : stepMature s p = true ↔
    s.eng.stageOn = true ∧ (stepOf s p s.eng.cur).minGreen ≤ s.eng.minElapsed := by
  simp only [stepMature, minRun, Bool.and_eq_true, decide_eq_true_eq]

theorem not_mature (h : s.eng.stageOn = false ∨ s.eng.minElapsed < (stepOf s p s.eng.cur).minGreen) : stepMature s p = false := by
  rw [← Bool.not_eq_true, stepMature_iff]
  rintro ⟨on, min⟩
  rcases h with h | h
  · rw [h] at on; cases on
  · omega

theorem gapped_iff : gapped s p = true ↔ s.eng.ext = 0 ∧ anotherWanted s p = true ∧ isHoldStep s p s.eng.cur = false := by
  simp only [gapped, Bool.and_eq_true, Bool.not_eq_true', decide_eq_true_eq, and_assoc]

theorem maxed_iff : maxed s p = true ↔ s.tables.plan[p].cycle = 0 ∧ anotherWanted s p = true ∧
    ∃ m : Nat, s.eng.maxElapsed = some m ∧ (stepOf s p s.eng.cur).maxGreen ≤ m := by
  unfold maxed coordinated
  cases s.eng.maxElapsed <;> simp [and_assoc]

theorem forced_iff : forced s p = true ↔ 0 < s.tables.plan[p].cycle ∧ mem s.eng.passed s.eng.cur = true := by
  simp only [forced, Bool.and_eq_true, coordinated_iff]

/-- The step may end by its timings: mature, with no orderly stop, STEP or hold in the way. -/
theorem mayEnd_eq_true (hm : stepMature s p = true) (ho : s.eng.orderly = false) (hr : s.eng.stepReq = none)
    (hh : holdStands s = false) : mayEnd s p = true := by simp only [mayEnd, hm, ho, hr, hh]; rfl

theorem mayEnd_immature (h : stepMature s p = false) : mayEnd s p = false := by simp only [mayEnd, h, Bool.false_and]

/-- Leaving the hold step empties the passed set and clears dwell (R64, R65). -/
theorem leaveStep_eq (s : State) (p : Fin 8) : leaveStep s p = { s with eng := { s.eng with
    passed := if isHoldStep s p s.eng.cur then 0 else s.eng.passed
    dwell := if isHoldStep s p s.eng.cur then false else s.eng.dwell } } := by
  unfold leaveStep
  cases isHoldStep s p s.eng.cur <;> rfl

theorem searchNext_leaveStep (s : State) (p : Fin 8) :
    searchNext (leaveStep s p) p (leaveStep s p).eng.cur = searchIn (rotation s p s.eng.cur) (wanted s p) := by
  rw [leaveStep_eq]; rfl

theorem endStep_ended (hc : s.eng.cur.val < nSteps s p) : EndedBy s p (wanted s p) none (endStep s p) :=
  goOn_ended s p _ none hc _ (searchNext_leaveStep s p)

theorem endForStep_next (hc : s.eng.cur.val < nSteps s p) : EndedBy s p (wanted s p) (some .next) (endForStep s p .next) :=
  goOn_ended s p _ _ hc _ (searchNext_leaveStep s p)

theorem endForStep_stage (hc : s.eng.cur.val < nSteps s p) (st : Fin 16) :
    EndedBy s p (fun k => decide ((stepOf s p k).stage = num st)) (some (.stage st)) (endForStep s p (.stage st)) := by
  refine goOn_ended s p _ _ hc _ ?_
  simp only [stageIx_eq_some]
  rw [leaveStep_eq]
  rfl

theorem judgeStepEnd_orderly (h : s.eng.orderly = true) : judgeStepEnd s p = stopServed (leaveStep s p) := if_pos h

section Free

variable (ho : s.eng.orderly = false)
include ho

theorem judgeStepEnd_stage {st : Fin 16} (h : s.eng.stepReq = some (.stage st)) : judgeStepEnd s p = endForStep s p (.stage st) := by
  simp only [judgeStepEnd, ho, h]; rfl

theorem judgeStepEnd_next (h : s.eng.stepReq = some .next) :
    judgeStepEnd s p = if anotherWanted s p = true then endForStep s p .next else s := by
  simp only [judgeStepEnd, ho, h]; rfl

theorem judgeStepEnd_held (h : s.eng.stepReq = none) (hh : holdStands s = true) : judgeStepEnd s p = s := by
  simp only [judgeStepEnd, ho, h, hh]; rfl

variable (h : s.eng.stepReq = none) (hh : holdStands s = false)
include h hh

theorem judgeStepEnd_due (hd : gapped s p = true ∨ maxed s p = true ∨ forced s p = true) : judgeStepEnd s p = endStep s p := by
  have due : (gapped s p || maxed s p || forced s p) = true := by simpa only [Bool.or_eq_true, or_assoc] using hd
  simp only [judgeStepEnd, ho, h, hh, due]; rfl

theorem judgeStepEnd_idle (hd : ¬ (gapped s p = true ∨ maxed s p = true ∨ forced s p = true)) :
    judgeStepEnd s p = if restsForPlan s p = true then
      (match s.eng.pendingPlan with
      | some q => takeover s q none
      | none => s) else s := by
  have idle : (gapped s p || maxed s p || forced s p) = false := by
    rw [← Bool.not_eq_true]; simpa only [Bool.or_eq_true, or_assoc] using hd
  simp only [judgeStepEnd, ho, h, hh, idle]; rfl

end Free

theorem restsForPlan_iff : restsForPlan s p = true ↔
    s.tables.plan[p].cycle = 0 ∧ anotherWanted s p = false ∧ ∃ q : Fin 8, s.eng.pendingPlan = some q := by
  simp only [restsForPlan, Bool.and_eq_true, Bool.not_eq_true', ← Bool.not_eq_true, coordinated_iff, Nat.not_lt, Nat.le_zero,
    Option.isSome_iff_exists, and_assoc]

end StepEnd

/-! ## The commands that name a step's end (R60 to R64) -/

section Commands

variable {s : State} {p : Fin 8}

/-- The state as a pulse's work finds it. -/
abbrev pulsed (s : State) : State := { s with inPulse := true }

theorem minimumEndDue_eq (h : s.eng.running = some p) : minimumEndDue s = stepMature s p := by rw [minimumEndDue, h]

theorem gapOutDue_eq (h : s.eng.running = some p) : gapOutDue s = (mayEnd s p && gapped s p) := by rw [gapOutDue, h]

theorem maxOutDue_eq (h : s.eng.running = some p) : maxOutDue s = (mayEnd s p && maxed s p) := by rw [maxOutDue, h]

theorem takeMinimumEnd_due (h : s.eng.running = some p) (hm : stepMature s p = true) :
    takeMinimumEnd (pulsed s) = judgeStepEnd (pulsed s) p := by
  have runs : (pulsed s).eng.running = some p := h
  unfold takeMinimumEnd
  rw [runs]
  exact if_pos hm

theorem takeGapOut_due (h : s.eng.running = some p) (hd : gapOutDue s = true) : takeGapOut (pulsed s) = endStep (pulsed s) p := by
  have runs : (pulsed s).eng.running = some p := h
  unfold takeGapOut endRunning
  rw [runs]
  exact if_pos hd

theorem takeMaxOut_due (h : s.eng.running = some p) (hd : maxOutDue s = true) : takeMaxOut (pulsed s) = endStep (pulsed s) p := by
  have runs : (pulsed s).eng.running = some p := h
  unfold takeMaxOut endRunning
  rw [runs]
  exact if_pos hd

theorem readCounter_mayEnd (h : s.eng.running = some p) : mayEnd (readCounter s) p = mayEnd s p := by
  rw [readCounter_eq h]; rfl

theorem takeForceOff_eq (h : s.eng.running = some p) : takeForceOff s =
    if mayEnd s p && forced (readCounter s) p then endStep (readCounter s) p else readCounter s := by
  have runs : (readCounter s).eng.running = some p := by rw [readCounter_eq h]; exact h
  unfold takeForceOff
  simp only [runs, readCounter_mayEnd h]

theorem exec_minimumGreenEnd {u : State} (hp : pulseStands s = true) (hr : s.eng.running = some p) (hm : stepMature s p = true)
    (hu : judgeStepEnd (pulsed s) p = u) : exec .minimumGreenEnd s = .next { finish u with inPulse := s.inPulse } :=
  next_atPulse_due hp ((minimumEndDue_eq hr).trans hm) ((takeMinimumEnd_due hr hm).trans hu)

theorem exec_minimumGreenEnd_idle (h : pulseStands s = false ∨ minimumEndDue s = false) :
    exec .minimumGreenEnd s = .next (finish s) := next_atPulse_idle h

theorem exec_gapOut {u : State} (hp : pulseStands s = true) (hr : s.eng.running = some p) (hd : gapOutDue s = true)
    (hu : endStep (pulsed s) p = u) : exec .gapOut s = .next { finish u with inPulse := s.inPulse } :=
  next_atPulse_due hp hd ((takeGapOut_due hr hd).trans hu)

theorem exec_gapOut_idle (h : pulseStands s = false ∨ gapOutDue s = false) : exec .gapOut s = .next (finish s) := next_atPulse_idle h

theorem exec_maxOut {u : State} (hp : pulseStands s = true) (hr : s.eng.running = some p) (hd : maxOutDue s = true)
    (hu : endStep (pulsed s) p = u) : exec .maxOut s = .next { finish u with inPulse := s.inPulse } :=
  next_atPulse_due hp hd ((takeMaxOut_due hr hd).trans hu)

theorem exec_maxOut_idle (h : pulseStands s = false ∨ maxOutDue s = false) : exec .maxOut s = .next (finish s) := next_atPulse_idle h

theorem exec_forceOff {u : State} (hp : pulseStands s = true) (hr : s.eng.running = some p) (hu : takeForceOff (pulsed s) = u) :
    exec .forceOff s = .next { finish u with inPulse := s.inPulse } := next_atPulse_due hp (by rw [hr]; rfl) hu

theorem exec_forceOff_idle (h : pulseStands s = false) : exec .forceOff s = .next (finish s) := next_atPulse_idle (.inl h)

/-- The end of a step at a pulse begins the interstage to the next wanted step (R56, R63). -/
theorem endStep_pulsed (hc : s.eng.cur.val < nSteps s p) (hp : s.eng.pendingPlan = none) (ha : anotherWanted s p = true) :
    ∃ b : Fin 16, NextWanted s p b ∧ BegunFrom s (endStep (pulsed s) p) p b := by
  obtain ⟨b, next, ⟨sub, cur, off, groups⟩, -⟩ := endStep_spec (pulsed s) p hc hp ha
  exact ⟨b, next, sub, cur, off, groups⟩

/-- So does the end of a step by force-off, once the counter has been read (R64). -/
theorem endStep_read (hr : s.eng.running = some p) (hk : 0 < s.tables.plan[p].cycle) (hc : s.eng.cur.val < nSteps s p)
    (hp : s.eng.pendingPlan = none) (ha : anotherWanted s p = true) :
    ∃ b : Fin 16, NextWanted s p b ∧ BegunFrom s (endStep (readCounter (pulsed s)) p) p b ∧
      (endStep (readCounter (pulsed s)) p).eng.lastReading = counter s p := by
  have runs : (pulsed s).eng.running = some p := hr
  have coord : coordinated (pulsed s) p = true := coordinated_iff.2 hk
  rw [readCounter_eq runs, coord]
  obtain ⟨b, next, ⟨sub, cur, off, groups⟩, last⟩ := endStep_spec { pulsed s with eng := { s.eng with
    passed := s.eng.passed ||| reached (pulsed s) p (counter (pulsed s) p), lastReading := counter (pulsed s) p
    bigStep := false, backStep := false, rollover := false } } p hc hp ha
  exact ⟨b, next, ⟨sub, cur, off, groups⟩, last⟩

end Commands

/-! ## The engine at a pulse (R54, R58, R60 to R65) -/

section Pulse

variable {s : State} {p : Fin 8}

theorem enginePulse_started {k : Fin 16} (hr : s.eng.running = some p) (on : s.eng.stageOn = true)
    (hk : (stepOf s p s.eng.cur).stage = num k) (u : State) (hu : u = { readCounter s with eng := { (readCounter s).eng with
      ext := if extended s k = true then (stepOf s p s.eng.cur).unitExt else s.eng.ext - 1
      maxElapsed := if s.tables.plan[p].cycle = 0 ∧ s.eng.maxElapsed = none ∧ anotherWanted s p = true then some 0
        else s.eng.maxElapsed } }) :
    enginePulse s true = if (stepOf s p s.eng.cur).minGreen ≤ s.eng.minElapsed then judgeStepEnd u p else u := by
  have named : stageIx s p s.eng.cur = some k := stageIx_eq_some.2 hk
  have ext : nextExt s p = if extended s k = true then (stepOf s p s.eng.cur).unitExt else s.eng.ext - 1 := by
    rw [nextExt, named]
  have startMax : (!coordinated s p && s.eng.maxElapsed.isNone && anotherWanted s p) = true ↔
      s.tables.plan[p].cycle = 0 ∧ s.eng.maxElapsed = none ∧ anotherWanted s p = true := by
    simp only [Bool.and_eq_true, Bool.not_eq_true', ← Bool.not_eq_true, coordinated_iff, Nat.not_lt, Nat.le_zero,
      Option.isNone_iff_eq_none, and_assoc]
  have same : (readCounter s).eng.stageOn = true ∧ coordinated (readCounter s) p = coordinated s p ∧
      anotherWanted (readCounter s) p = anotherWanted s p ∧ nextExt (readCounter s) p = nextExt s p ∧
      (readCounter s).eng.maxElapsed = s.eng.maxElapsed := by
    rw [readCounter_eq hr]; exact ⟨on, rfl, rfl, rfl, rfl⟩
  obtain ⟨started, coord, other, next, elapsed⟩ := same
  have body : setEng (readCounter s) (fun e => { e with ext := nextExt s p, maxElapsed :=
      if (!coordinated s p && s.eng.maxElapsed.isNone && anotherWanted s p) = true then some 0 else e.maxElapsed }) = u := by
    rw [hu, ← ext]
    simp only [← startMax, setEng, elapsed]
  have min : minRun u p = decide ((stepOf s p s.eng.cur).minGreen ≤ s.eng.minElapsed) := by
    rw [hu, readCounter_eq hr]; rfl
  unfold enginePulse
  simp only [hr, started, Bool.and_true, if_true, coord, other, next, elapsed, body, min, decide_eq_true_eq]

theorem enginePulse_fresh (hr : s.eng.running = some p) (on : s.eng.stageOn = true) : enginePulse s false = readCounter s := by
  have still : (readCounter s).eng.stageOn = true := by rw [readCounter_eq hr]; exact on
  unfold enginePulse
  simp only [hr, still, Bool.and_false, Bool.not_true, Bool.false_eq_true, if_false]

theorem enginePulse_off (hr : s.eng.running = some p) (off : s.eng.stageOn = false) (ran : Bool) :
    enginePulse s ran = if s.eng.sub = .rest then restPulse (readCounter s) p else readCounter s := by
  have still : (readCounter s).eng.stageOn = false := by rw [readCounter_eq hr]; exact off
  have sub : (readCounter s).eng.sub = s.eng.sub := by rw [readCounter_eq hr]
  unfold enginePulse
  simp only [hr, still, sub, Bool.false_and, Bool.not_false, Bool.and_true, Bool.false_eq_true, if_false, decide_eq_true_eq]

theorem subNow_eq {x : Sub} (hmin : s.eng.minElapsed < (stepOf s p s.eng.cur).minGreen → x = .min)
    (hhold : (stepOf s p s.eng.cur).minGreen ≤ s.eng.minElapsed → holdStands s = true → x = .hold)
    (hfree : (stepOf s p s.eng.cur).minGreen ≤ s.eng.minElapsed → holdStands s = false →
      (0 < s.tables.plan[p].cycle → x = if isHoldStep s p s.eng.cur = true ∧ s.eng.dwell = true then .dwell else .extend) ∧
      (s.tables.plan[p].cycle = 0 → x = if anotherWanted s p = true then .extend else .rest)) : subNow s p = x := by
  unfold subNow minRun
  by_cases hm : (stepOf s p s.eng.cur).minGreen ≤ s.eng.minElapsed
  · rw [decide_eq_true hm]
    cases hh : holdStands s with
    | true => exact (hhold hm hh).symm
    | false =>
      obtain ⟨coord, isolated⟩ := hfree hm hh
      by_cases hc : 0 < s.tables.plan[p].cycle
      · simp only [coordinated_iff.2 hc, coord hc, Bool.and_eq_true, Bool.not_true, Bool.false_eq_true, if_false, if_true]
      · simp only [coordinated, hc, isolated (Nat.eq_zero_of_not_pos hc), decide_false, Bool.not_true, Bool.false_eq_true, if_false]
  · rw [decide_eq_false hm]
    exact (hmin (Nat.lt_of_not_le hm)).symm

theorem refreshSub_idle (h : s.eng.running = none ∨ s.eng.stageOn = false) : refreshSub s = s := by
  unfold refreshSub
  split
  next p hr =>
    rcases h with h | h
    · rw [hr] at h; cases h
    · rw [h]; rfl
  next => rfl

theorem refreshSub_started (hr : s.eng.running = some p) (on : s.eng.stageOn = true) :
    refreshSub s = { s with eng := { s.eng with sub := subNow s p } } := by
  unfold refreshSub
  rw [hr]
  exact if_pos on

end Pulse

/-- Settles O43: the commands by the moment's being due, the counter by its residues, and a step's end by the order in which `judgeStepEnd` looks at
its causes. -/
theorem stepEnds : Obligations.StepEnds := by
  refine ⟨fun s p hr hc => ⟨fun early => ?_, fun no => ?_, fun hp on min => ⟨fun ho => ?_, fun ho req free pend other => ⟨fun ext hold => ?_,
    fun m isolated elapsed max => ?_, fun coord passed => ?_⟩⟩⟩, fun s p c d f hr hc hd hf => ⟨fun pos => ?_, ?_, fun k => ?_⟩,
    fun s r ran => ⟨fun hr => ?_, fun p hr hrd => ⟨fun on ran' u k hk hu => ?_, fun on ran' => ?_, fun off => ?_⟩⟩,
    fun s => ⟨refreshSub_idle, fun p hr on x hmin hhold hfree => ?_⟩, fun s p t due ht hc => ⟨fun ho => ?_, fun ho hdue => ?_⟩⟩
  · have immature : stepMature s p = false := not_mature early
    refine ⟨exec_minimumGreenEnd_idle (.inr ((minimumEndDue_eq hr).trans immature)), exec_gapOut_idle (.inr ?_),
      exec_maxOut_idle (.inr ?_), fun hp => exec_forceOff hp hr ?_⟩
    · rw [gapOutDue_eq hr, mayEnd_immature immature]; rfl
    · rw [maxOutDue_eq hr, mayEnd_immature immature]; rfl
    · have not : mayEnd (pulsed s) p = false := mayEnd_immature immature
      rw [takeForceOff_eq (s := pulsed s) (p := p) hr, not]
      rfl
  · exact ⟨exec_minimumGreenEnd_idle (.inl no), exec_gapOut_idle (.inl no), exec_maxOut_idle (.inl no), exec_forceOff_idle no⟩
  · have stop := stoppedServed (leaveStep (pulsed s) p)
    refine ⟨_, exec_minimumGreenEnd hp hr (stepMature_iff.2 ⟨on, min⟩) (judgeStepEnd_orderly ho), ?_⟩
    rw [leaveStep_eq] at stop ⊢
    obtain ⟨frame, groups⟩ := stop
    refine ⟨by rw [frame], by rw [frame], by rw [frame], fun hold => ?_, fun g hl served => ?_⟩
    · have hold' : isHoldStep (pulsed s) p s.eng.cur = true := hold
      rw [frame]
      exact ⟨if_pos hold', if_pos hold'⟩
    · rw [(groups g).1]
      refine (congrArg GroupRec.target (if_pos served)).trans ?_
      refine (handTarget_self _ g .stop ?_).1
      exact hl
  · have may := mayEnd_eq_true (stepMature_iff.2 ⟨on, min⟩) ho req free
    have gap : gapped s p = true := gapped_iff.2 ⟨ext, other, hold⟩
    obtain ⟨b, next, begun⟩ := endStep_pulsed hc pend other
    exact ⟨_, b, exec_gapOut hp hr (by rw [gapOutDue_eq hr, may, gap]; rfl) rfl, exec_minimumGreenEnd hp hr (stepMature_iff.2 ⟨on, min⟩)
      (judgeStepEnd_due (s := pulsed s) ho req free (.inl gap)), next, begun⟩
  · have may := mayEnd_eq_true (stepMature_iff.2 ⟨on, min⟩) ho req free
    have out : maxed s p = true := maxed_iff.2 ⟨isolated, other, m, elapsed, max⟩
    obtain ⟨b, next, begun⟩ := endStep_pulsed hc pend other
    exact ⟨_, b, exec_maxOut hp hr (by rw [maxOutDue_eq hr, may, out]; rfl) rfl, exec_minimumGreenEnd hp hr (stepMature_iff.2 ⟨on, min⟩)
      (judgeStepEnd_due (s := pulsed s) ho req free (.inr (.inl out))), next, begun⟩
  · have may : mayEnd (pulsed s) p = true := mayEnd_eq_true (stepMature_iff.2 ⟨on, min⟩) ho req free
    have runs : (pulsed s).eng.running = some p := hr
    have force : forced (readCounter (pulsed s)) p = true := by
      rw [readCounter_eq hr] at passed
      rw [readCounter_eq runs]
      exact forced_iff.2 ⟨coord, passed⟩
    obtain ⟨b, next, begun, last⟩ := endStep_read hr coord hc pend other
    exact ⟨_, b, exec_forceOff hp hr (by rw [takeForceOff_eq runs, may, force]; rfl), next, begun, last⟩
  · subst hc
    rw [← forward_run _ _ _ pos]
    exact congrArg Nat.cast (if_neg pos.ne')
  · subst hc
    rw [readCounter_eq hr]
    simp only [coordinated, decide_eq_true_eq]
  · subst hc
    rw [readCounter_eq hr]
    by_cases pos : 0 < s.tables.plan[p].cycle
    · have far : 20 < d ↔ 20 < runTo s p (counter s p) := by rw [hd, ← runTo_eq pos]; omega
      have within : (1 ≤ f k ∧ f k ≤ d) ↔ 1 ≤ runTo s p (stepOf s p k).forceOff ∧
          runTo s p (stepOf s p k).forceOff ≤ runTo s p (counter s p) := by
        have hk : f k = runTo s p (stepOf s p k).forceOff := (hf k).trans (runTo_eq pos _).symm
        rw [hd, hk, ← runTo_eq pos]; omega
      simp only [coordinated_iff.2 pos, if_true, mem_or, Bool.or_eq_true, mem_reached, takesEvery_iff, far, within, pos, true_and, or_assoc]
      rfl
    · simp only [coordinated, pos, decide_false, Bool.false_eq_true, if_false, false_and, or_false]
  · rw [enginePulse, hr]
  · subst ran' hrd
    exact enginePulse_started hr on hk u hu
  · subst ran' hrd
    exact enginePulse_fresh hr on
  · subst hrd
    exact enginePulse_off hr off ran
  · rw [refreshSub_started hr on, subNow_eq hmin hhold hfree]
  · subst ht
    refine ⟨leaveStep s p, ?_, leaveStep_eq s p⟩
    rw [judgeStepEnd_orderly ho]
    exact stoppedServed _
  · subst ht
    rw [← gapped_iff, ← maxed_iff, ← forced_iff] at hdue
    refine ⟨fun req => ⟨judgeStepEnd_held ho req, fun free => ⟨fun h => ?_, fun h q isolated alone pend => ?_, fun h rest => ?_⟩⟩,
      fun req => ⟨fun other => ?_, fun alone => ?_⟩, fun st req => ?_⟩
    · rw [judgeStepEnd_due ho req free (hdue.1 h)]
      exact endStep_ended hc
    · rw [judgeStepEnd_idle ho req free (fun e => h (hdue.2 e)), if_pos (restsForPlan_iff.2 ⟨isolated, alone, q, pend⟩), pend]
    · rw [judgeStepEnd_idle ho req free (fun e => h (hdue.2 e)), if_neg]
      rintro rests
      obtain ⟨isolated, alone, q, pend⟩ := restsForPlan_iff.1 rests
      rcases rest with pos | other | none
      · omega
      · rw [alone] at other; cases other
      · rw [pend] at none; cases none
    · rw [judgeStepEnd_next ho req, if_pos other]
      exact endForStep_next hc
    · rw [judgeStepEnd_next ho req, if_neg (by rw [alone]; decide)]
    · rw [judgeStepEnd_stage ho req]
      exact endForStep_stage hc st

end Sys2Proof.Machine

namespace Sys2Proof.Machine

open Sys2Proof

/-! ## The readings of a frame (R49, R51) -/

section Readings

variable {s t : State} {e : Fin 64}

/-- What a reading makes of an entry's record, by the entry's debounce (R49). -/
def readRec (debounce : Nat) (b : Bool) (r : InputRec) : InputRec :=
  if b = r.active then { r with disagree := 0 }
  else if debounce ≤ bump 15 r.disagree then (if r.active then inputRecPor else { r with active := true, disagree := 0 })
  else { r with disagree := bump 15 r.disagree }

/-- The reading takes a push button ACTIVE, and so latches its demands (R51). -/
def presses (s : State) (e : Fin 64) (b : Bool) : Bool :=
  inputIs s e .pushButton && b && !s.inputs[e].active && decide (s.tables.input[e].debounce ≤ bump 15 s.inputs[e].disagree)

theorem presses_iff {u : Fin 12} (hu : inputUnit s e = some u) {b : Bool} : presses s e b = true ↔ s.tables.input[e].kind = 1 ∧
    b = true ∧ s.inputs[e].active = false ∧ s.tables.input[e].debounce ≤ bump 15 s.inputs[e].disagree := by
  simp only [presses, Bool.and_eq_true, Bool.not_eq_true', decide_eq_true_eq, inputIs_iff, ← inputUnit_eq_some, hu, Option.some.injEq,
    exists_eq', true_and, and_assoc]

/-- An entry going INACTIVE changes its own record, a clear of its stuck fault and resync (R49, R50, R65). -/
theorem inputOff_eq (s : State) (e : Fin 64) :
    inputOff s e = { s with
      inputs := put s.inputs e inputRecPor, coll := (inputOff s e).coll, eng := { s.eng with resync := (inputOff s e).eng.resync } } ∧
    ClearedFrom s.coll (inputOff s e).coll := by
  unfold inputOff
  rw [resyncIfReleased_eq]
  by_cases h : s.inputs[e].stuck = true
  · have cleared := clearedFrom_takeClear (setInput s e fun _ => inputRecPor) .detectorStuck (num e)
    simp only [h, if_true]
    rw [takeClear_frame]
    exact ⟨rfl, cleared⟩
  · simp only [h]
    exact ⟨rfl, .refl _⟩

theorem put_put {α : Type} {n : Nat} (v : Vector α n) (i : Fin n) (x y : α) : put (put v i x) i y = put v i y := by
  simp [put, Vector.set_set]

/-- A reading that differs takes the entry's count one further (R49). -/
abbrev counted (s : State) (e : Fin 64) : State := setInput s e fun r => { r with disagree := bump 15 r.disagree }

theorem counted_inputs : (counted s e).inputs[e] = { s.inputs[e] with disagree := bump 15 s.inputs[e].disagree } := getElem_upd_self _ _ _

theorem put_counted (x : InputRec) : put (counted s e).inputs e x = put s.inputs e x := put_put _ _ _ _

theorem counted_due {u : Fin 12} (hu : inputUnit s e = some u) :
    inputChangeDue (counted s e) e = true ↔ s.tables.input[e].debounce ≤ bump 15 s.inputs[e].disagree := by
  have used : inputUnit (counted s e) e ≠ none := by
    have same : inputUnit (counted s e) e = some u := hu
    rw [same]; nofun
  rw [inputChangeDue_iff, counted_inputs, and_iff_right used]
  rfl

/-- A reading of an entry in use: its own record and the latched demands, and besides a clear and resync at most. -/
theorem readInput_eq {u : Fin 12} (hu : inputUnit s e = some u) (b : Bool) :
    readInput s e b = { s with
      inputs := put s.inputs e (readRec s.tables.input[e].debounce b s.inputs[e])
      latched := if presses s e b then s.latched ||| s.tables.input[e].demand else s.latched
      coll := (readInput s e b).coll
      eng := { s.eng with resync := (readInput s e b).eng.resync } } ∧
    ClearedFrom s.coll (readInput s e b).coll := by
  by_cases agree : b = s.inputs[e].active
  · have still : presses s e b = false := by
      rw [← Bool.not_eq_true, presses_iff hu]
      rintro ⟨-, on, off, -⟩
      rw [agree, off] at on; cases on
    rw [readInput_agree agree, still, readRec, if_pos agree]
    exact ⟨rfl, .refl _⟩
  · rw [readInput_differ agree, readRec, if_neg agree]
    by_cases hd : s.tables.input[e].debounce ≤ bump 15 s.inputs[e].disagree
    · rw [takeInputChange_due ((counted_due hu).2 hd), counted_inputs, if_pos hd]
      cases active : s.inputs[e].active with
      | true =>
        have still : presses s e b = false := by
          rw [← Bool.not_eq_true, presses_iff hu, active]
          rintro ⟨-, -, off, -⟩; cases off
        obtain ⟨frame, cleared⟩ := inputOff_eq (counted s e) e
        rw [put_counted] at frame
        rw [still]
        exact ⟨frame, cleared⟩
      | false =>
        have pressed : presses s e b = inputIs s e .pushButton := by
          have on : b = true := by rw [active] at agree; simpa using agree
          rw [presses, on, active, decide_eq_true hd, Bool.and_true, Bool.not_false, Bool.and_true, Bool.and_true]
        have on := inputOn_eq (s := counted s e) (e := e)
        rw [put_counted, counted_inputs] at on
        rw [pressed]
        simp only [Bool.false_eq_true, if_false]
        rw [on]
        exact ⟨rfl, .refl _⟩
    · have still : presses s e b = false := by
        rw [← Bool.not_eq_true, presses_iff hu]
        rintro ⟨-, -, -, due⟩; exact hd due
      rw [takeInputChange_idle (fun due => hd ((counted_due hu).1 due)), if_neg hd, still]
      exact ⟨rfl, .refl _⟩

/-- A frame's reading of one entry, where it is the unit's. -/
def takeReading (u : Fin 12) (m : BitVec 8) (s : State) (e : Fin 64) : State :=
  if inputUnit s e = some u then readInput s e (reading s u e m) else s

/-- From `s` to `v` a frame's readings `m` of the unit have been taken at the entries of the list (R49, R51). -/
structure ReadFrom (u : Fin 12) (m : BitVec 8) (l : List (Fin 64)) (s v : State) : Prop where
  frame : v = { s with
    inputs := v.inputs, latched := v.latched, coll := v.coll, eng := { s.eng with resync := v.eng.resync } }
  cleared : ClearedFrom s.coll v.coll
  inputs : ∀ e : Fin 64, v.inputs[e] = if e ∈ l ∧ inputUnit s e = some u
    then readRec s.tables.input[e].debounce (reading s u e m) s.inputs[e] else s.inputs[e]
  latched : ∀ k : Fin 16, mem v.latched k = true ↔ mem s.latched k = true ∨ ∃ e ∈ l, inputUnit s e = some u ∧
    presses s e (reading s u e m) = true ∧ mem s.tables.input[e].demand k = true

theorem ReadFrom.none (u : Fin 12) (m : BitVec 8) (s : State) : ReadFrom u m [] s s :=
  ⟨rfl, .refl _, fun e => by simp, fun k => by simp⟩

theorem takeReading_read (u : Fin 12) (m : BitVec 8) (s : State) (e : Fin 64) : ReadFrom u m [e] s (takeReading u m s e) := by
  unfold takeReading
  split
  next hu =>
    obtain ⟨frame, cleared⟩ := readInput_eq hu (reading s u e m)
    refine ⟨frame.trans ?_, cleared, fun j => ?_, fun k => ?_⟩
    · rw [frame]
    · rw [frame]
      by_cases h : e = j
      · subst h
        rw [getElem_put_self, if_pos ⟨List.mem_singleton_self _, hu⟩]
      · rw [getElem_put_of_ne _ _ _ _ h, if_neg fun hj => h (List.mem_singleton.1 hj.1).symm]
    · rw [frame]
      simp only [List.mem_singleton, exists_eq_left, hu, true_and]
      cases presses s e (reading s u e m) <;> simp [mem_or]
  next hu =>
    have other (j : Fin 64) : ¬ (j ∈ [e] ∧ inputUnit s j = some u) := fun ⟨hj, h⟩ => hu (List.mem_singleton.1 hj ▸ h)
    refine ⟨rfl, .refl _, fun j => (if_neg (other j)).symm, fun k => ?_⟩
    simp [hu]

/-- The readings of further entries come on top. -/
theorem ReadFrom.append {u : Fin 12} {m : BitVec 8} {e : Fin 64} {l : List (Fin 64)} {v : State} (he : e ∉ l)
    (h : ReadFrom u m [e] s t) (h' : ReadFrom u m l t v) : ReadFrom u m (e :: l) s v := by
  have tables : t.tables = s.tables := by rw [h.frame]
  have unit (j : Fin 64) : inputUnit t j = inputUnit s j := by rw [inputUnit, tables]; rfl
  have read (j : Fin 64) : reading t u j m = reading s u j m := by rw [reading, reportOrder, tables]; rfl
  have same (j : Fin 64) (hj : j ∈ l) : t.inputs[j] = s.inputs[j] :=
    (h.inputs j).trans (if_neg fun (hm : j ∈ [e] ∧ _) => he (List.mem_singleton.1 hm.1 ▸ hj))
  have press (j : Fin 64) (hj : j ∈ l) (b : Bool) : presses t j b = presses s j b := by
    rw [presses, presses, same j hj, inputIs, unit, tables]; rfl
  refine ⟨?_, h.cleared.trans h'.cleared, fun j => ?_, fun k => ?_⟩
  · rw [h'.frame, h.frame]
  · rw [h'.inputs j, unit, read, tables]
    by_cases hl : j ∈ l
    · rw [same j hl]
      simp only [hl, List.mem_cons, or_true]
    · have first := h.inputs j
      simp only [List.mem_singleton] at first
      simp only [hl, false_and, if_false, List.mem_cons, or_false]
      exact first
  · rw [h'.latched k, h.latched k, or_assoc]
    refine or_congr_right ?_
    simp only [List.mem_cons, List.not_mem_nil, or_false, or_and_right, exists_or, unit, read, tables]
    exact or_congr_right (exists_congr fun j => and_congr_right fun hj => by rw [press j hj])

theorem takeReadings (u : Fin 12) (m : BitVec 8) (l : List (Fin 64)) (hn : l.Nodup) (s : State) :
    ReadFrom u m l s (l.foldl (takeReading u m) s) := by
  induction l generalizing s with
  | nil => exact .none u m s
  | cons e l ih =>
    obtain ⟨he, hl⟩ := List.nodup_cons.1 hn
    exact (takeReading_read u m s e).append he (ih hl _)

theorem takeInputs_eq (s : State) (u : Fin 12) (f : SenseFrame) :
    takeInputs s u f = settle ((idx 64).foldl (takeReading u f.inputs) s) := rfl

theorem reading_iff {u : Fin 12} {m : BitVec 8} : reading s u e m = true ↔
    ∃ i : Fin 8, s.tables.input[e].input = num i ∧ mem m ((reportOrder s u).pos i).val = true := by
  have named (i : Fin 8) : s.tables.input[e].input = num i ↔ ofNum 8 s.tables.input[e].input = some i := ofNum_eq_some.symm
  simp only [reading, named]
  cases ofNum 8 s.tables.input[e].input <;> simp

end Readings

/-! ## The sense report (R120, R121) -/

section Reports

variable {s : State} {u : Fin 12}

/-- The sense report of a frame. -/
def reportOf (s : State) (u : Fin 12) (f : SenseFrame) : Report :=
  { dropped := s.bus.dropped, frame := f, stamp := stamp s, notes := tab (noteAt s u f) }

theorem forward_outside {f : SenseFrame} (h : mem s.bus.forward u = false) : forward s u f = s := by
  unfold forward; rw [h]; rfl

theorem forward_inside {f : SenseFrame} (h : mem s.bus.forward u = true) : forward s u f =
    if s.bus.queue.length < 16 then { s with bus := { s.bus with queue := s.bus.queue ++ [reportOf s u f], dropped := 0 } }
    else { s with bus := { s.bus with dropped := bump 255 s.bus.dropped } } := by
  unfold forward
  rw [h]
  rfl

theorem notes_reportOf (f : SenseFrame) (p : Fin 8) : (reportOf s u f).notes[p] = noteAt s u f p := getElem_tab _ _

theorem noteAt_spare {f : SenseFrame} {p t : Fin 8} (ht : t = (reportOrder s u).pos p) (h : circuitAt s u t = none) :
    noteAt s u f p = ⟨num t, none, none⟩ := by
  unfold noteAt; dsimp only; rw [← ht, h]

theorem noteAt_circuit {f : SenseFrame} {p t : Fin 8} {c : Fin 96} (ht : t = (reportOrder s u).pos p)
    (h : circuitAt s u t = some c) : noteAt s u f p = ⟨num t, some s.prov.circuits[c].verdict, qOf s u f (t, c)⟩ := by
  unfold noteAt; dsimp only; rw [← ht, h]

theorem settledAt_loadClassOf (s : State) (c : Fin 96) :
    settledAt (loadClassOf s c) = if s.tables.circuit[c].loadClass = 2 then 3 else 2 := by
  unfold loadClassOf
  match s.tables.circuit[c].loadClass with
  | 0 => rfl
  | 1 => rfl
  | 2 => rfl
  | n + 3 => simp [LoadClass.ofCode, settledAt]

theorem eligible_iff {w : Nat} {t : Fin 8} {c : Fin 96} : eligible s u w (t, c) = true ↔ loggedOn s u w t = true ∧ w ≠ 255 ∧
    loggedOn s u ((w + 254) % 255) t = true ∧ s.cable.circuits[c].retry = .normal ∧
    (if s.tables.circuit[c].loadClass = 2 then 3 else 2) ≤ s.prov.circuits[c].onRun := by
  simp only [eligible, Bool.and_eq_true, loggedOnBefore_iff, decide_eq_true_eq, settledAt_loadClassOf, forcedOff, Bool.not_eq_true',
    decide_eq_false_iff_not, ne_eq, not_not]
  tauto

end Reports

/-- Settles O35: the input stage entry by entry in ascending order, the report by its positions. -/
theorem frameReported : Obligations.FrameReported := by
  refine ⟨fun s u f b hb => ⟨_, takeInputs_eq s u f, ?_⟩, fun s u f => ⟨forward_outside, fun inside => ⟨reportOf s u f, rfl, rfl, rfl,
    fun p t ht => ⟨fun spare => ?_, fun c hc => ?_⟩, fun room => ?_, fun full => ?_⟩⟩⟩
  · obtain ⟨frame, cleared, inputs, latched⟩ := takeReadings u f.inputs (idx 64) (List.nodup_finRange 64) s
    generalize (idx 64).foldl (takeReading u f.inputs) s = v at frame cleared inputs latched ⊢
    have on (e : Fin 64) : reading s u e f.inputs = true ↔ b e := reading_iff.trans (hb e).symm
    simp only [idx, List.mem_finRange, true_and] at inputs latched
    refine ⟨?_, cleared.stands, fun k => (latched k).trans (or_congr_right (exists_congr fun e => and_congr_right fun hu => ?_)),
      fun e => ⟨fun hu => (inputs e).trans (if_neg hu), fun hu => ?_⟩⟩
    · have coll := cleared.frame
      rw [frame]
      dsimp only
      rw [← coll]
    · rw [presses_iff hu, on]
      simp only [bump]
      tauto
    · have agree : (reading s u e f.inputs = s.inputs[e].active) ↔ (b e ↔ s.inputs[e].active = true) := by
        rw [← on, Bool.eq_iff_iff]
      rw [inputs e, if_pos hu, readRec, ← agree]
      refine ⟨fun same => if_pos same, fun differ => ?_⟩
      rw [if_neg differ]
      exact ⟨fun early => if_neg (Nat.not_le.2 early), fun due => if_pos due⟩
  · rw [notes_reportOf]
    exact noteAt_spare ht spare
  · rw [notes_reportOf, noteAt_circuit ht hc]
    refine ⟨rfl, rfl, fun el m hm => ?_, fun none => ?_, eligible_iff⟩
    · simp only [qOf, el, hm, if_true]
    · unfold qOf
      rcases none with none | none
      · rw [none]; rfl
      · simp only [none, ite_self]
  · rw [forward_inside inside, if_pos room]
  · rw [forward_inside inside, if_neg (Nat.not_lt.2 full)]
    rfl

end Sys2Proof.Machine

namespace Sys2Proof.Machine

open Sys2Proof

/-! ## A plan validated while a departure is due (R45, R66, R82) -/

/-- A plan of one step without an error: the stage is defined, and no minimum is above its maximum. -/
def oneStepPlan : Plan :=
  { planPor with steps := 1, state := .loaded, entries := put planPor.entries 0 { planPor.entries[0] with stage := 1 } }

/-- The junction runs plan 2 in PLAN, with plan 1 governing and LOADED, and waits with a departure to FLASH. With no group in use every group is RED
in the sense of R82, so that the hand-overs of the next request received complete the departure. -/
def departing : State :=
  { State.reset with
    port := { State.reset.port with configOpen := false }
    tables := { State.reset.tables with
      stage := put State.reset.tables.stage 0 1, plan := put State.reset.tables.plan 0 oneStepPlan }
    jm := { State.reset.jm with
      mode := .plan, reason := .controller, started := true, departure := some ⟨.flash, .controller⟩ }
    eng := { State.reset.eng with running := some 1, sub := .rest } }

/-- The tables of `departing` with plan 1 VALID. -/
def departingTables : Tables :=
  { departing.tables with
    plan := put departing.tables.plan 0 { departing.tables.plan[(0 : Fin 8)] with state := .valid, errors := [] } }

/-- What O13 says VALIDATE_PLAN leaves of a state `x` of `departing` with the request taken, as plan 1 becomes VALID: plan 1 is the pending plan. -/
def pendingValid (x : State) : State :=
  noPlanExit { x with tables := departingTables, eng := { x.eng with pendingPlan := some 0 } }

/-- The pending plan that a command leaves. -/
def pendingPlanOf (o : Out) : Option (Option (Fin 8)) :=
  match o with
  | .next t => some t.eng.pendingPlan
  | _ => none

/-- The request finds the engine idle: the departure has completed as the request was received, and no plan becomes pending. -/
theorem validatePlan_departing : pendingPlanOf (exec (.validatePlan 1 1) departing) = some none := by decide +kernel

theorem answered_pendingValid :
    pendingPlanOf (.next (answered 0x04 1 (pendingValid (taken 0x04 1 departing)) .done .none)) = some (some 0) := by decide +kernel

theorem taken_departing_slots : ∀ i : Fin 64, (taken 0x04 1 departing).coll.slots[i] = none := by decide +kernel

theorem taken_departing_stands : (taken 0x04 1 departing).coll.demandStands = false := by decide +kernel

theorem taken_departing_raised : (taken 0x04 1 departing).eng.invalidRaised = 0 := by decide +kernel

/-- With an empty fault table and no PLAN_INVALID raised, clears leave the collector and the engine as they were. -/
theorem cleared_of_empty {x w : State} {t : Tables} (none : ∀ i : Fin 64, x.coll.slots[i] = none) (idle : x.coll.demandStands = false)
    (unraised : x.eng.invalidRaised = 0)
    (frame : w = { x with
      tables := t
      coll := { x.coll with slots := w.coll.slots, demandStands := w.coll.demandStands }
      eng := { x.eng with invalidRaised := w.eng.invalidRaised } })
    (stands : StandsOn x.coll w.coll) (raised : ∀ q : Fin 8, mem w.eng.invalidRaised q = true → mem x.eng.invalidRaised q = true)
    (slots : ∀ i : Fin 64, x.coll.slots[i] = Option.none → w.coll.slots[i] = Option.none) : w = { x with tables := t } := by
  have sameSlots : w.coll.slots = x.coll.slots := Vector.ext fun i hi => (slots ⟨i, hi⟩ (none _)).trans (none ⟨i, hi⟩).symm
  have sameStands : w.coll.demandStands = x.coll.demandStands := by
    rw [idle, ← Bool.not_eq_true]
    exact fun h => absurd (stands.1 h).1 (by rw [idle]; decide)
  have sameRaised : w.eng.invalidRaised = x.eng.invalidRaised := by
    rw [unraised] at raised ⊢
    refine BitVec.eq_of_getLsbD_eq fun i hi => ?_
    have absent : mem w.eng.invalidRaised i = false := by
      rw [← Bool.not_eq_true]
      exact fun h => absurd (raised ⟨i, hi⟩ h) (by rw [mem_zero]; decide)
    exact absent.trans (mem_zero i).symm
  rw [frame, sameSlots, sameStands, sameRaised]

/-- Refutes O13: that the engine runs is said there of the state before the request, and the model asks it of the state in which the request is taken.
From `departing` the departure completes between the two, so that plan 1, newly VALID and governing, does not become pending. -/
theorem not_planValidated : ¬ Obligations.PlanValidated := by
  intro h
  obtain ⟨-, -, taking⟩ := h.2 departing 1 1 rfl
  obtain ⟨-, -, free⟩ := taking 0 rfl (by decide)
  obtain ⟨u, v, w, x, left, tables, hx, frame, stands, raised, slots, hv, hu⟩ :=
    (free (by decide +kernel) (by decide +kernel)).1 (by decide +kernel)
  have none (i : Fin 64) : x.coll.slots[i] = none := by rw [hx]; exact taken_departing_slots i
  have each : OneRecordEach x := fun i j a b ha => by rw [none i] at ha; cases ha
  have plain : w = { x with tables := u.tables } :=
    cleared_of_empty none (by rw [hx]; exact taken_departing_stands) (by rw [hx]; exact taken_departing_raised) frame stands
      (fun q hq => ((raised q).1 hq).1) (fun i hi => (slots each i).1 hi)
  have pending : v = { w with eng := { w.eng with pendingPlan := some 0 } } := hv.trans (if_pos ⟨by decide, rfl⟩)
  have exit : u = noPlanExit v := hu.trans (if_pos (.inl rfl))
  have written : u.tables = departingTables := tables
  have reached : u = pendingValid x := by
    rw [exit, pending, plain, written]; rfl
  have same := congrArg pendingPlanOf left
  rw [reached, hx, answered_pendingValid, validatePlan_departing] at same
  cases same

end Sys2Proof.Machine

namespace Sys2Proof.Machine

open Sys2Proof

/-! ## A demand that falls and rises again within one window start (R88, R97, R103) -/

/-- FLASH with reason NO_PLAN: plan 1 governs and falls back on itself, LOADED and not VALID, and its PLAN_INVALID, of reaction FLASH, is the one fault
recorded. At the next window start the clock reaches 00:01, where plan 2, VALID, becomes the schedule plan, and a pulse falls due, at which the
detector of entry 1 has been ACTIVE for its stuck-on limit; DETECTOR_STUCK has reaction FLASH too. -/
def relapsing : State :=
  { State.reset with
    port := { State.reset.port with configOpen := false }
    tables := { State.reset.tables with
      reaction := put (put State.reset.tables.reaction (Kind.index .detectorStuck) .flash) (Kind.index .planInvalid) .flash
      input := put State.reset.tables.input 0 { State.reset.tables.input[0] with fiu := 1, stuckLimit := 1 }
      plan := put (put State.reset.tables.plan 0 { planPor with state := .loaded }) 1 { planPor with state := .valid }
      sched := put State.reset.tables.sched 0 ⟨0x7F, 0, 1, 0, 2⟩ }
    inputs := put State.reset.inputs 0 { State.reset.inputs[0] with active := true, activeTime := 9 }
    clock := { State.reset.clock with unset := false, ms := 59980 }
    mains := { State.reset.mains with
      gap := false, timebase := .locked, lastEdge := 1000000, lastWindow := some 1000000, windowCount := 4 }
    jm := { State.reset.jm with mode := .flash, reason := .noPlan, started := true }
    eng := { State.reset.eng with invalidRaised := 1 }
    coll := { State.reset.coll with
      demanded := .flash
      slots := put State.reset.coll.slots 0
        (some ⟨.planInvalid, 1, .activeUnack, ⟨0, 0⟩, ⟨0, 0⟩, 1, .flash, .errIndex 0⟩) }
    pending := [.mainsEdge 20000] }

/-- What a command leaves of the demanded mode and the mode. -/
def demandAndMode (o : Out) : Option (Demanded × Mode) :=
  match o with
  | .next t => some (demandedNow t, t.jm.mode)
  | .fault _ | .refused _ => none

theorem demandedNow_relapsing : demandedNow relapsing = .flash := by decide +kernel

theorem obeyed_relapsing : Obeyed relapsing where
  handed := demandedNow_relapsing.symm
  dark h := by rw [demandedNow_relapsing] at h; cases h
  flash _ := .inl rfl
  startRed := by decide

/-- The minute boundary clears PLAN_INVALID and leaves FLASH for START_RED with nothing handed on; the raise at the pulse brings back the demand handed
last, so that no hand-over finds a change. -/
theorem step_relapsing : demandAndMode (Machine.step relapsing) = some (.flash, .startRed) := by decide +kernel

/-- Refutes O58: from `relapsing` one window start leaves FLASH demanded in START_RED. -/
theorem not_demandObeyed : ¬ Obligations.DemandObeyed := by
  intro h
  obtain ⟨kept, -, -⟩ := h
  have left := step_relapsing
  unfold demandAndMode at left
  split at left
  case h_1 t ht =>
    simp only [Option.some.injEq, Prod.mk.injEq] at left
    obtain ⟨demanded, mode⟩ := left
    rcases (kept relapsing t obeyed_relapsing ht).flash demanded with hm | hm <;> rw [mode] at hm <;> cases hm
  case h_2 | h_3 => cases left

end Sys2Proof.Machine

namespace Sys2Proof.Machine

open Sys2Proof

/-! ## The flash runs' commands (R92) -/

section FlashRuns

variable {s : State}

theorem junctionPattern_taken (kind tag : Byte) : (taken kind tag s).tables.startUp.pattern = s.tables.startUp.pattern := by
  rw [taken_tables]

theorem stepDue_iff {r : Run} : stepDue s r = true ↔ (runSlot s r).duration ≤ r.time := decide_eq_true_iff

theorem stepDue_short {r : Run} (h : r.time < (runSlot s r).duration) : stepDue s r = false :=
  decide_eq_false (Nat.not_le.2 h)

theorem patternStepDue_clearance {g : Fin 32} {r : Run} (h : s.clearRuns[g] = some r) :
    patternStepDue s (.clearance g) = stepDue s r := by
  simp only [patternStepDue, h]

theorem patternStepDue_absent {g : Fin 32} (h : s.clearRuns[g] = none) : patternStepDue s (.clearance g) = false := by
  simp only [patternStepDue, h]

theorem takePatternStep_junction (h : stepDue s s.junctionRun = true) :
    takePatternStep s .junction = { s with junctionRun := nextStep s s.junctionRun } := if_pos h

theorem takePatternStep_clearance {g : Fin 32} {r : Run} (h : s.clearRuns[g] = some r) (hd : stepDue s r = true) :
    takePatternStep s (.clearance g) = { s with clearRuns := put s.clearRuns g (some (nextStep s r)) } := by
  simp only [takePatternStep, upd, put, h, Option.map_some, hd, if_true]

end FlashRuns

/-- Settles O22, by the run named and whether its step has run. -/
theorem patternsSynced : Obligations.PatternsSynced := by
  refine ⟨fun s tag hs => ?_, fun s => ⟨fun hp => ⟨fun hd => ?_, fun g r hr hd => ?_⟩, fun idle => ?_, fun g idle => ?_⟩⟩
  · refine congrArg Host.Outcome.next ((serve_of hs rfl).trans ?_)
    rw [restartJunctionRun, newRun_taken, junctionPattern_taken]
  · have due := stepDue_iff.2 hd
    exact next_atPulse_due hp due (takePatternStep_junction due)
  · have due := stepDue_iff.2 hd
    exact next_atPulse_due hp ((patternStepDue_clearance hr).trans due) (takePatternStep_clearance hr due)
  · exact next_atPulse_idle (idle.imp_right stepDue_short)
  · refine next_atPulse_idle (idle.imp_right fun h => ?_)
    rcases h with absent | ⟨r, hr, short⟩
    · exact patternStepDue_absent absent
    · exact (patternStepDue_clearance hr).trans (stepDue_short short)

end Sys2Proof.Machine

namespace Sys2Proof.Machine

open Sys2Proof

/-! ## What an entry does to the groups (R21, R24 to R26, R75) -/

section EntryGroups

variable {s : State} {g : Fin 32}

theorem handedAspect_eq (x : Target) : handedAspect s g x = targetAspect s g x := by
  cases x with
  | go | stop => simp only [handedAspect, targetAspect]; cases s.groups[g].aspect <;> rfl
  | flash | dark => rfl

/-- The record of a group that takes a target, in the aspect it leads to. -/
theorem handTarget_aspect (x : Target) (hl : live s g = true) :
    (handTarget s g x).groups[g].target = x ∧ (handTarget s g x).groups[g].aspect = targetAspect s g x := by
  by_cases ha : targetAspect s g x = s.groups[g].aspect
  · rw [handTarget_same x hl ha, getElem_put_self]; exact ⟨rfl, ha.symm⟩
  · rw [handTarget_changed x hl ha, getElem_put_self]; exact ⟨rfl, rfl⟩

/-- A target restarts the timers of the aspect it ends and keeps the others. -/
theorem handTarget_retimed (x : Target) (hl : live s g = true) :
    Retimed s.inPulse s.groups[g] (handTarget s g x).groups[g] := by
  by_cases ha : targetAspect s g x = s.groups[g].aspect
  · rw [handTarget_same x hl ha, getElem_put_self]
    exact ⟨fun h => absurd rfl h, fun _ => ⟨rfl, rfl⟩, fun green h => absurd green h, fun _ => ⟨rfl, rfl⟩⟩
  · obtain ⟨notGreen, -⟩ := targetAspect_changed x ha
    rw [handTarget_changed x hl ha, getElem_put_self]
    refine ⟨fun _ => ⟨rfl, rfl⟩, fun h => absurd h ha, fun green _ => ⟨if_pos green, if_pos green⟩, fun h => ?_⟩
    have other : s.groups[g].aspect ≠ .green := fun green => notGreen (h.1 green)
    exact ⟨if_neg other, if_neg other⟩

theorem mem_liveGroups : g ∈ liveGroups s ↔ live s g = true := by
  simp only [liveGroups, List.mem_filter, idx, List.mem_finRange, true_and]

/-- A target handed to every group in use is handed to each as to it alone. -/
theorem handAll_each (x : Target) :
    (handAll s x).groups[g] = (handTarget s g x).groups[g] ∧ (handAll s x).clearRuns[g] = (handTarget s g x).clearRuns[g] := by
  obtain ⟨groups, runs⟩ := handTargets_each s (liveGroups s) ((List.nodup_finRange 32).filter _) x g
  simp only [mem_liveGroups] at groups runs
  rw [handAll, groups, runs]
  by_cases hl : live s g = true
  · exact ⟨if_pos hl, if_pos hl⟩
  · rw [handTarget_unused s g x (Bool.eq_false_iff.2 hl)]
    exact ⟨if_neg hl, if_neg hl⟩

/-- Each group is handed the target of the mode entered (R75). -/
theorem takeMode_each (m : Mode) (r : Reason) (hp : m ≠ .plan) (hd : m ≠ .directDrive) :
    (takeMode s m r).groups[g] = (handTarget s g (modeTarget m)).groups[g] := by
  have handed (w : State) (frame : w = { s with
      jm := w.jm, coll := w.coll, eng := w.eng, junctionRun := w.junctionRun }) (x : Target) :
      (handAll w x).groups[g] = (handTarget s g x).groups[g] := by
    rw [(handAll_each x).1]
    refine (handTarget_local x ?_ ?_ ?_ ?_).1 <;> rw [frame]
  cases m with
  | plan => exact absurd rfl hp
  | directDrive => exact absurd rfl hd
  | dark | startFlash | startRed | flash =>
    refine handed _ ?_ _
    simp only [restartJunctionRun, zeroModeTimer, setMode, engineIdle, setEng]
    rw [writeMode_frame]

/-- A group in use after an entry. -/
theorem takeMode_live (m : Mode) (r : Reason) (hp : m ≠ .plan) (hd : m ≠ .directDrive) (hl : live s g = true) :
    (takeMode s m r).groups[g].target = modeTarget m ∧
      (takeMode s m r).groups[g].aspect = targetAspect s g (modeTarget m) ∧
      Retimed s.inPulse s.groups[g] (takeMode s m r).groups[g] := by
  rw [takeMode_each m r hp hd]
  exact ⟨(handTarget_aspect _ hl).1, (handTarget_aspect _ hl).2, handTarget_retimed _ hl⟩

end EntryGroups

/-! ## What an entry does to the mode record and the collector (R75) -/

section Entries

variable {s : State} {m : Mode} {r : Reason}

/-- The collector of a state that leaves START_RED for another mode (R75). -/
def leftColl (s : State) (m : Mode) : Collector :=
  if s.jm.mode = .startRed ∧ m ≠ .startRed ∧ s.jm.provingTimeout = true then (takeClear s .startProvingTimeout 0).coll else s.coll

theorem leftColl_of_ne (h : s.jm.mode ≠ .startRed) : leftColl s m = s.coll := if_neg fun left => h left.1

theorem leftColl_other (h : m ≠ .startRed) : leftColl s m =
    if s.jm.mode = .startRed ∧ s.jm.provingTimeout = true then (takeClear s .startProvingTimeout 0).coll else s.coll := by
  simp only [leftColl, h, ne_eq, not_false_eq_true, true_and]

theorem writeMode_coll (s : State) (m : Mode) (r : Reason) : (writeMode s m r).coll = leftColl s m := by
  unfold writeMode leaveStartRed leftColl
  split <;> rfl

theorem takeMode_coll (s : State) (m : Mode) (r : Reason) : (takeMode s m r).coll = leftColl s m := by
  rw [← writeMode_coll s m r]
  unfold takeMode
  cases m <;> dsimp only
  case plan | directDrive => rfl
  all_goals rw [handAll_frame]; rfl

theorem takeMode_provingTimeout (s : State) (m : Mode) (r : Reason) : (takeMode s m r).jm.provingTimeout =
    if s.jm.mode = .startRed ∨ m = .startRed then false else s.jm.provingTimeout := by
  by_cases hm : m = .startRed
  · subst hm
    rw [if_pos (.inr rfl), takeMode, handAll_frame]
    rfl
  · have written : (takeMode s m r).jm.provingTimeout = (writeMode s m r).jm.provingTimeout := by
      unfold takeMode
      cases m with
      | plan | directDrive => rfl
      | startRed => exact absurd rfl hm
      | dark | startFlash | flash => dsimp only; rw [handAll_frame]; rfl
    rw [written, writeMode_jm]
    simp only [hm, ne_eq, not_false_eq_true, and_true, or_false]

theorem belowDemand_iff : belowDemand s m = true ↔ m.severity < (demandedNow s).severity := decide_eq_true_iff

theorem belowDemand_none (h : demandedNow s = .none) : belowDemand s m = false := by
  rw [belowDemand, h]; rfl

/-- With no more severe demand, a mode is entered as it is named, but for a START_FLASH of time 0. -/
theorem enterMode_free (hb : belowDemand s m = false) (hz : m = .startFlash → s.tables.startUp.startFlash ≠ 0) :
    enterMode s m r = takeMode s m r := by
  unfold enterMode
  rw [if_neg (Bool.eq_false_iff.1 hb), if_neg fun z => hz z.1 z.2]

/-- A START_FLASH of time 0 is left at once for START_RED (R77). -/
theorem enterMode_startFlash_zero (hb : belowDemand s .startFlash = false) (hz : s.tables.startUp.startFlash = 0) :
    enterMode s .startFlash r = takeMode (takeMode s .startFlash r) .startRed r := by
  unfold enterMode
  rw [if_neg (Bool.eq_false_iff.1 hb), if_pos ⟨rfl, hz⟩]

/-- The mode of an entry with no more severe demand: the mode named, or START_RED for a START_FLASH of time 0 (R77). -/
theorem enterMode_jm (hb : belowDemand s m = false) : (enterMode s m r).jm.reason = r ∧ (enterMode s m r).jm.mode =
    if m = .startFlash ∧ s.tables.startUp.startFlash = 0 then .startRed else m := by
  by_cases hz : m = .startFlash ∧ s.tables.startUp.startFlash = 0
  · obtain ⟨rfl, zero⟩ := hz
    obtain ⟨mode, reason, -⟩ := takeMode_jm (takeMode s .startFlash r) .startRed r
    rw [enterMode_startFlash_zero hb zero, if_pos ⟨rfl, zero⟩]
    exact ⟨reason, mode⟩
  · obtain ⟨mode, reason, -⟩ := takeMode_jm s m r
    rw [enterMode_free hb fun e z => hz ⟨e, z⟩, if_neg hz]
    exact ⟨reason, mode⟩

/-- An entry to a start-up mode starts the mode timer (R75). -/
theorem enterMode_timer (hb : belowDemand s m = false) (hm : m = .startFlash ∨ m = .startRed) : (enterMode s m r).jm.timer = 0 := by
  by_cases hz : m = .startFlash ∧ s.tables.startUp.startFlash = 0
  · obtain ⟨rfl, zero⟩ := hz
    rw [enterMode_startFlash_zero hb zero]
    exact (takeMode_timer _ _ _ (.inr rfl)).1
  · rw [enterMode_free hb fun e z => hz ⟨e, z⟩]
    exact (takeMode_timer _ _ _ hm).1

/-- The demanded mode is met: the reason alone becomes FAULT. -/
theorem enterMode_met {d : Mode} (hb : belowDemand s m = true) (hd : demandMode (demandedNow s) = some d) (h : s.jm.mode = d) :
    enterMode s m r = { s with jm := { s.jm with reason := .fault } } := by
  rw [enterMode, if_pos hb, enterDemanded, hd]
  exact if_pos h

/-- The demanded mode is entered instead (R88). -/
theorem enterMode_demanded {d : Mode} (hb : belowDemand s m = true) (hd : demandMode (demandedNow s) = some d) (h : s.jm.mode ≠ d) :
    enterMode s m r = takeMode s d .fault := by
  rw [enterMode, if_pos hb, enterDemanded, hd]
  exact if_neg h

/-- An entry keeps what every entry to a mode and every change of the reason keep. -/
theorem enterMode_inv {β : Type} (v : State → β) (reason : ∀ s r, v (setReason s r) = v s)
    (entry : ∀ s m r, v (takeMode s m r) = v s) (s : State) (m : Mode) (r : Reason) : v (enterMode s m r) = v s := by
  unfold enterMode enterDemanded
  repeat' split
  · exact reason ..
  · exact entry ..
  · rfl
  · exact (entry ..).trans (entry ..)
  · exact entry ..

theorem demandMode_eq_some {d : Demanded} {x : Mode} (h : demandMode d = some x) : x = .dark ∨ x = .flash := by
  cases d with
  | none => cases h
  | flash | dark => cases h; simp

end Entries

/-! ## RESUME (R84) -/

section Resume

variable {s : State}

theorem resumeReq_refused (h : stoppedFor s .controller = false ∨ s.coll.demanded ≠ .none) :
    resumeReq s = ⟨s, .badState, .none⟩ := by
  refine checked_refuse ?_
  rcases h with stays | demanded
  · simp [stays]
  · cases stopped : stoppedFor s .controller <;> simp [demanded]

theorem resumeReq_taken (h : stoppedFor s .controller = true) (hd : s.coll.demanded = .none) :
    resumeReq s = ⟨takeExit s .controller, .done, .none⟩ := checked_pass (by simp [h, hd])

/-- An exit with schedule mode PLAN and no demand ends in a start-up mode with its timer started. -/
theorem takeExit_started {r : Reason} (h : s.jm.schedMode = .plan) (hd : demandedNow s = .none) :
    (takeExit s r).jm.reason = r ∧ (takeExit s r).jm.timer = 0 ∧ (takeExit s r).jm.mode =
      if s.jm.mode = .flash ∨ s.tables.startUp.startFlash = 0 then .startRed else .startFlash := by
  rw [takeExit_plan h]
  by_cases flash : s.jm.mode = .flash
  · obtain ⟨reason, mode⟩ := enterMode_jm (m := .startRed) (r := r) (belowDemand_none hd)
    rw [if_pos flash, if_pos (.inl flash)]
    exact ⟨reason, enterMode_timer (belowDemand_none hd) (.inr rfl), mode⟩
  · obtain ⟨reason, mode⟩ := enterMode_jm (m := .startFlash) (r := r) (belowDemand_none hd)
    rw [if_neg flash]
    refine ⟨reason, enterMode_timer (belowDemand_none hd) (.inl rfl), mode.trans ?_⟩
    simp [flash]

theorem enterOrKeep_other {m : Mode} {r : Reason} (h : s.jm.mode ≠ m) : enterOrKeep s m r = enterMode s m r := if_neg h

theorem enterOrKeep_same {m : Mode} {r : Reason} (h : s.jm.mode = m) :
    enterOrKeep s m r = { s with jm := { s.jm with reason := r } } := if_pos h

end Resume

/-- Settles O12, by what an entry does to the mode record, the collector and each group in use. -/
theorem modeEntry : Obligations.ModeEntry := by
  refine ⟨fun s m r hm => ⟨fun hb hz => ?_, fun hb hz => ?_, fun hb d hd => ⟨fun met => ?_, fun new => ?_⟩⟩,
    fun s tag hs => ⟨fun h => congrArg Host.Outcome.next (serve_of hs (resumeReq_refused h)),
      fun reason handed free stopped => ?_⟩⟩
  · have plain : m ≠ .plan ∧ m ≠ .directDrive := by rcases hm with rfl | rfl | rfl | rfl <;> decide
    obtain ⟨mode, why, departure, -⟩ := takeMode_jm s m r
    have eng := takeMode_eng s m r
    rw [enterMode_free hb hz]
    refine ⟨mode, why, departure, by rw [eng]; rfl, by rw [eng]; rfl, by rw [eng]; rfl, takeMode_coll s m r,
      takeMode_provingTimeout s m r, fun h => (takeMode_timer s m r h).1, fun h => ?_, fun g hl => ?_⟩
    · rw [takeMode_junctionRun, if_pos h.symm, newRun]
    · obtain ⟨target, aspect, retimed⟩ := takeMode_live m r plain.1 plain.2 hl
      refine ⟨target.trans ?_, aspect.trans ?_, retimed⟩ <;> rcases hm with rfl | rfl | rfl | rfl <;> rfl
  · obtain ⟨mode, why, -⟩ := takeMode_jm (takeMode s .startFlash r) .startRed r
    have first : (takeMode s .startFlash r).jm.mode = .startFlash := (takeMode_jm s .startFlash r).1
    rw [enterMode_startFlash_zero hb hz]
    refine ⟨mode, why, (takeMode_timer _ _ _ (.inr rfl)).1, ?_, ?_⟩
    · rw [takeMode_provingTimeout, if_pos (.inr rfl)]
    · rw [takeMode_coll, leftColl_of_ne (by rw [first]; decide), takeMode_coll, leftColl_other (by decide)]
  · exact enterMode_met hb hd met
  · have severe := demandMode_eq_some hd
    have plain : d ≠ .plan ∧ d ≠ .directDrive ∧ d ≠ .startRed := by rcases severe with rfl | rfl <;> decide
    obtain ⟨mode, why, departure, -⟩ := takeMode_jm s d .fault
    have eng := takeMode_eng s d .fault
    rw [enterMode_demanded hb hd new]
    refine ⟨mode, why, departure, by rw [eng]; rfl, by rw [eng]; rfl, ?_, ?_, fun g hl => ?_⟩
    · rw [takeMode_coll, leftColl_other plain.2.2]
    · rw [takeMode_provingTimeout]
      simp only [plain.2.2, or_false]
    · obtain ⟨target, aspect, retimed⟩ := takeMode_live d .fault plain.1 plain.2.1 hl
      refine ⟨target.trans ?_, aspect.trans ?_, retimed⟩ <;> rcases severe with rfl | rfl <;> simp [modeTarget, targetAspect]
  · have exit := resumeReq_taken (stoppedFor_iff.2 ⟨stopped, reason⟩) handed
    refine ⟨_, congrArg Host.Outcome.next (serve_of hs exit), ?_⟩
    rw [← taken_schedMode 0x12 tag s, ← taken_tables 0x12 tag s]
    refine ⟨fun plan => takeExit_started plan free, fun m hm => ?_⟩
    rw [takeExit_target hm (by decide)]
    exact ⟨enterOrKeep_other, enterOrKeep_same⟩

end Sys2Proof.Machine

namespace Sys2Proof.Machine

open Sys2Proof

/-! ## A departure set from DIRECT_DRIVE (R82) -/

section DirectDeparture

variable {s : State} {d : Dest} {r : Reason}

theorem setDeparture_directDrive (h : s.jm.mode = .directDrive) :
    setDeparture s d r = handAll (setMode s fun j => { j with departure := some ⟨d, r⟩ }) .stop := by
  simp only [setDeparture, h]

/-- From DIRECT_DRIVE a departure hands STOP to every group and leaves the rest. -/
theorem setDeparture_directDrive_frame (h : s.jm.mode = .directDrive) : setDeparture s d r = { s with
    jm := { s.jm with departure := some ⟨d, r⟩ }
    groups := (setDeparture s d r).groups, clearRuns := (setDeparture s d r).clearRuns } := by
  rw [setDeparture_directDrive h, handAll_frame]
  rfl

theorem setDeparture_directDrive_each (h : s.jm.mode = .directDrive) (g : Fin 32) :
    (setDeparture s d r).groups[g] = (handTarget s g .stop).groups[g] ∧
      (setDeparture s d r).clearRuns[g] = (handTarget s g .stop).clearRuns[g] := by
  rw [setDeparture_directDrive h, (handAll_each _).1, (handAll_each _).2]
  exact handTarget_local _ rfl rfl rfl rfl

end DirectDeparture

/-! ## DIRECT_ENTER and DIRECT_EXIT (R85, R86) -/

section DirectDrive

variable {s : State}

theorem directEnterReq_refused (h : s.jm.mode ≠ .plan ∨ s.jm.departure ≠ none) : directEnterReq s = ⟨s, .badState, .none⟩ := by
  refine checked_refuse ?_
  rcases h with mode | departure
  · simp [mode]
  · obtain ⟨d, hd⟩ := Option.ne_none_iff_exists'.1 departure
    simp [hd]

theorem directEnterReq_taken (h : s.jm.mode = .plan) (hd : s.jm.departure = none) (free : demandedNow s = .none) :
    directEnterReq s = ⟨takeMode s .directDrive .controller, .done, .none⟩ := by
  rw [← enterMode_free (belowDemand_none free) (fun other => by cases other)]
  exact checked_pass (by simp [h, hd])

/-- Direct drive is entered from PLAN with the mode and reason alone changed in the mode record. -/
theorem takeMode_directDrive_jm {r : Reason} (h : s.jm.mode = .plan) (hd : s.jm.departure = none) :
    (takeMode s .directDrive r).jm = { s.jm with mode := .directDrive, reason := r } := by
  have written : (takeMode s .directDrive r).jm = (writeMode s .directDrive r).jm := rfl
  rw [written, writeMode_jm, ← hd]
  simp [h]

theorem directExitReq_outside (h : s.jm.mode ≠ .directDrive) : directExitReq s = ⟨s, .badState, .none⟩ :=
  checked_refuse (by simp [h])

/-- A departure that waits is confirmed where it leads to START_RED, and otherwise refuses the request. -/
theorem directExitReq_waiting {d : Departure} (h : s.jm.mode = .directDrive) (hd : s.jm.departure = some d) :
    directExitReq s = ⟨s, if d.dest = .startRed then .done else .badState, .none⟩ := by
  by_cases back : d.dest = .startRed
  · have pass : directExitReq s = done (if s.jm.departure.isSome then s else setDeparture s .startRed .controller) :=
      checked_pass (by simp [stopDeparture, h, hd, back])
    rw [pass, hd, if_pos back]
    rfl
  · rw [if_neg back]
    exact checked_refuse (by simp [stopDeparture, h, hd, back])

theorem directExitReq_taken (h : s.jm.mode = .directDrive) (hd : s.jm.departure = none) :
    directExitReq s = ⟨setDeparture s .startRed .controller, .done, .none⟩ := by
  have pass : directExitReq s = done (if s.jm.departure.isSome then s else setDeparture s .startRed .controller) :=
    checked_pass (by simp [stopDeparture, h, hd])
  rw [pass, hd]
  rfl

end DirectDrive

/-! ## Departures completed (R82) -/

section Departures

variable {s : State} {d : Departure}

theorem allRed_iff : allRed s = true ↔ ∀ g : Fin 32, live s g = true → s.groups[g].aspect = .red := by
  simp only [allRed, List.all_eq_true, idx, List.mem_finRange, true_imp_iff, Bool.or_eq_true, Bool.not_eq_true', decide_eq_true_eq,
    ← Bool.not_eq_true, or_iff_not_imp_left, not_not]

theorem judgeDeparture_waits (h : s.jm.departure = none ∨ ∃ g : Fin 32, live s g = true ∧ s.groups[g].aspect ≠ .red) :
    judgeDeparture s = s := by
  unfold judgeDeparture
  split
  next d hd =>
    obtain ⟨g, hl, ha⟩ := h.resolve_left (by rw [hd]; exact Option.some_ne_none d)
    exact if_neg fun red => ha (allRed_iff.1 red g hl)
  next => rfl

theorem judgeDeparture_completes (h : s.jm.departure = some d) (red : ∀ g : Fin 32, live s g = true → s.groups[g].aspect = .red) :
    judgeDeparture s = completeDeparture s d := by
  unfold judgeDeparture
  rw [h]
  exact if_pos (allRed_iff.2 red)

theorem enterMode_schedMode (s : State) (m : Mode) (r : Reason) : (enterMode s m r).jm.schedMode = s.jm.schedMode :=
  enterMode_inv (fun s => s.jm.schedMode) (fun _ _ => rfl) (fun s m r => by
    obtain ⟨-, -, -, -, schedMode, -⟩ := takeMode_jm s m r
    exact schedMode) s m r

end Departures

/-- Settles O20, by the departure that waits and the mode the requests find. -/
theorem directDriveEntered : Obligations.DirectDriveEntered := by
  refine ⟨fun s tag hs => ⟨fun h => congrArg Host.Outcome.next (serve_of hs (directEnterReq_refused h)), fun plan departure free => ?_,
    fun outside => congrArg Host.Outcome.next (serve_of hs (directExitReq_outside outside)),
    fun d driven waits => congrArg Host.Outcome.next (serve_of hs (directExitReq_waiting driven waits)), fun driven departure => ?_⟩,
    fun s w d => ⟨judgeDeparture_waits, fun departure red hw => ?_⟩⟩
  · have eng := takeMode_eng (taken 0x13 tag s) .directDrive .controller
    have frame := takeMode_frame (taken 0x13 tag s) .directDrive .controller
    refine ⟨_, congrArg Host.Outcome.next (serve_of hs (directEnterReq_taken plan departure free)),
      takeMode_directDrive_jm plan departure, by rw [eng]; rfl, by rw [eng]; rfl, by rw [eng], by rw [frame],
      (takeMode_groups_kept _ _ _ (.inr rfl)).1, ?_⟩
    rw [← taken_inputs 0x13 tag s, frame]
  · refine ⟨_, congrArg Host.Outcome.next (serve_of hs (directExitReq_taken driven departure)), ?_, fun g hl => ?_⟩
    · rw [setDeparture_directDrive_frame driven]
    · rw [(setDeparture_directDrive_each driven g).1]
      exact (handTarget_aspect _ (by rwa [taken_live])).1
  · have entered : enterMode s (destMode d.dest) d.reason = w := by rw [hw]; cases d.dest <;> rfl
    have schedMode : w.jm.schedMode = s.jm.schedMode := by rw [hw, enterMode_schedMode]
    rw [judgeDeparture_completes departure red, completeDeparture, entered]
    refine ⟨fun scheduled plan stopped reason => ?_, fun other => if_neg fun due => ?_⟩
    · rw [if_pos ⟨scheduled, plan, stoppedFor_iff.2 ⟨stopped, reason⟩⟩, takeExit_plan (schedMode.trans plan)]
    · obtain ⟨scheduled, plan, stopped⟩ := due
      exact other ⟨scheduled, plan, (stoppedFor_iff.1 stopped).1, (stoppedFor_iff.1 stopped).2⟩

end Sys2Proof.Machine

namespace Sys2Proof.Machine

open Sys2Proof

/-! ## The orderly stop (R72) -/

section OrderlyStop

variable {s t : State} {g : Fin 32}

/-- A group that an orderly stop in an INTERSTAGE stops at once: served, and not GREEN. -/
abbrev StoppedAtOnce (s : State) (g : Fin 32) : Prop := mem s.eng.served g = true ∧ s.groups[g].aspect ≠ .green

/-- What an orderly stop in an INTERSTAGE does to one group. -/
def orderlyGroup (s : State) (g : Fin 32) : State :=
  if mem s.eng.served g && decide (s.groups[g].aspect ≠ .green) then
    setEng (handTarget s g .stop) fun e => { e with served := del e.served g, gaining := del e.gaining g }
  else s

theorem orderlyStop_interstage (h : s.eng.sub = .interstage) :
    orderlyStop s = (idx 32).foldl orderlyGroup (setEng s fun e => { e with orderly := true }) := if_pos h

theorem orderlyStop_elsewhere (h : s.eng.sub ≠ .interstage) : orderlyStop s = setEng s fun e => { e with orderly := true } := if_neg h

theorem orderlyGroup_stopped (h : StoppedAtOnce s g) : orderlyGroup s g = { s with
    groups := (handTarget s g .stop).groups, clearRuns := (handTarget s g .stop).clearRuns
    eng := { s.eng with served := del s.eng.served g, gaining := del s.eng.gaining g } } := by
  have due : (mem s.eng.served g && decide (s.groups[g].aspect ≠ .green)) = true := by
    simpa only [Bool.and_eq_true, decide_eq_true_eq] using h
  rw [orderlyGroup, if_pos due, handTarget_frame]
  rfl

theorem orderlyGroup_passed (h : ¬ StoppedAtOnce s g) : orderlyGroup s g = s := by
  refine if_neg fun due => h ?_
  simpa only [Bool.and_eq_true, decide_eq_true_eq] using due

/-- What an orderly stop touches. -/
def OrderlyFrame (s t : State) : Prop :=
  t = { s with
    groups := t.groups, clearRuns := t.clearRuns
    eng := { s.eng with served := t.eng.served, gaining := t.eng.gaining } }

theorem orderlyGroup_frame (s : State) (g : Fin 32) : OrderlyFrame s (orderlyGroup s g) := by
  by_cases h : StoppedAtOnce s g
  · rw [orderlyGroup_stopped h]; rfl
  · rw [orderlyGroup_passed h]; rfl

theorem orderlyGroups_frame (l : List (Fin 32)) (s : State) : OrderlyFrame s (l.foldl orderlyGroup s) := by
  induction l generalizing s with
  | nil => rfl
  | cons g l ih =>
    have rest := ih (orderlyGroup s g)
    have first := orderlyGroup_frame s g
    rw [List.foldl_cons]
    unfold OrderlyFrame at rest first ⊢
    rw [rest, first]

/-- A group's record, its clearance run and its places in the served and the gaining set. -/
def placeOf (s : State) (g : Fin 32) : GroupRec × Option Run × Bool × Bool :=
  (s.groups[g], s.clearRuns[g], mem s.eng.served g, mem s.eng.gaining g)

theorem placeOf_orderlyGroup_self (s : State) (g : Fin 32) : placeOf (orderlyGroup s g) g =
    if StoppedAtOnce s g then ((handTarget s g .stop).groups[g], (handTarget s g .stop).clearRuns[g], false, false) else placeOf s g := by
  by_cases h : StoppedAtOnce s g
  · rw [if_pos h, orderlyGroup_stopped h]
    simp only [placeOf, mem_del, ne_eq, not_true_eq_false, decide_false, Bool.and_false]
  · rw [if_neg h, orderlyGroup_passed h]

theorem placeOf_orderlyGroup_other {a b : Fin 32} (hab : a ≠ b) : placeOf (orderlyGroup s a) b = placeOf s b := by
  have apart : a.val ≠ b.val := fun e => hab (Fin.ext e)
  by_cases h : StoppedAtOnce s a
  · rw [orderlyGroup_stopped h]
    simp only [placeOf, (handTarget_of_ne s a b .stop hab).1, (handTarget_of_ne s a b .stop hab).2, mem_del, ne_eq, apart,
      not_false_eq_true, decide_true, Bool.and_true]
  · rw [orderlyGroup_passed h]

/-- What becomes of a group is read from its place, the tables and the pulse. -/
theorem placeOf_orderlyGroup_local (hc : (s.tables, s.inPulse) = (t.tables, t.inPulse)) (hv : placeOf s g = placeOf t g) :
    placeOf (orderlyGroup s g) g = placeOf (orderlyGroup t g) g := by
  have place := hv
  obtain ⟨tables, pulse⟩ := Prod.mk.inj hc
  obtain ⟨group, rest⟩ := Prod.mk.inj hv
  obtain ⟨run, sets⟩ := Prod.mk.inj rest
  obtain ⟨served, -⟩ := Prod.mk.inj sets
  obtain ⟨handed, cleared⟩ := handTarget_local .stop tables pulse group run
  have same : StoppedAtOnce s g ↔ StoppedAtOnce t g := by rw [StoppedAtOnce, StoppedAtOnce, served, group]
  rw [placeOf_orderlyGroup_self, placeOf_orderlyGroup_self, handed, cleared, place]
  simp only [same]

/-- An orderly stop in an INTERSTAGE stops each served group that is not GREEN, as the stop finds it (R72). -/
theorem placeOf_orderlyStop (h : s.eng.sub = .interstage) (g : Fin 32) : placeOf (orderlyStop s) g =
    if StoppedAtOnce s g then ((handTarget s g .stop).groups[g], (handTarget s g .stop).clearRuns[g], false, false) else placeOf s g := by
  have each := foldl_local orderlyGroup placeOf (fun s => (s.tables, s.inPulse)) (fun s a b => placeOf_orderlyGroup_other)
    (fun s a => by rw [orderlyGroup_frame s a]) (fun s t a => placeOf_orderlyGroup_local) (idx 32) (List.nodup_finRange 32)
    (setEng s fun e => { e with orderly := true }) g
  rw [if_pos (List.mem_finRange g), placeOf_orderlyGroup_self] at each
  obtain ⟨handed, cleared⟩ := handTarget_local (s := setEng s fun e => { e with orderly := true }) (t := s) (g := g) .stop rfl rfl rfl rfl
  rw [orderlyStop_interstage h, each, handed, cleared]
  rfl

theorem orderlyStop_frame (s : State) : orderlyStop s = { s with
    groups := (orderlyStop s).groups, clearRuns := (orderlyStop s).clearRuns
    eng := { s.eng with orderly := true, served := (orderlyStop s).eng.served, gaining := (orderlyStop s).eng.gaining } } := by
  by_cases h : s.eng.sub = .interstage
  · rw [orderlyStop_interstage h]
    exact orderlyGroups_frame (idx 32) (setEng s fun e => { e with orderly := true })
  · rw [orderlyStop_elsewhere h]; rfl

theorem setDeparture_plan {d : Dest} {r : Reason} (h : s.jm.mode = .plan) :
    setDeparture s d r = orderlyStop (setMode s fun j => { j with departure := some ⟨d, r⟩ }) := by
  simp only [setDeparture, h]

/-- From PLAN a departure sets the orderly stop, which outside an INTERSTAGE leaves every group and its place. -/
theorem placeOf_setDeparture_plan {d : Dest} {r : Reason} (h : s.jm.mode = .plan) (g : Fin 32) : placeOf (setDeparture s d r) g =
    if s.eng.sub = .interstage ∧ StoppedAtOnce s g then
      ((handTarget s g .stop).groups[g], (handTarget s g .stop).clearRuns[g], false, false)
    else placeOf s g := by
  rw [setDeparture_plan h]
  by_cases hi : s.eng.sub = .interstage
  · rw [placeOf_orderlyStop (by exact hi)]
    obtain ⟨handed, cleared⟩ := handTarget_local (s := setMode s fun j => { j with departure := some ⟨d, r⟩ }) (t := s) (g := g) .stop
      rfl rfl rfl rfl
    simp only [hi, true_and]
    rw [handed, cleared]
    rfl
  · rw [orderlyStop_elsewhere (by exact hi), if_neg fun stopped => hi stopped.1]
    rfl

end OrderlyStop

/-! ## FLASH and DARK (R80, R81) -/

section Stops

variable {s : State} {option : Nat} {m : Mode} {d : Dest}

theorem takeStop_orderly (h : s.jm.mode = .plan ∨ s.jm.mode = .directDrive) : takeStop s m d true = setDeparture s d .controller := by
  rcases h with h | h <;> simp only [takeStop, h, if_true]

theorem takeStop_met (hm : m = .flash ∨ m = .dark) (h : s.jm.mode = m) (orderly : Bool) :
    takeStop s m d orderly = { s with jm := { s.jm with reason := .controller } } := by
  rcases hm with rfl | rfl <;> simp only [takeStop, h, enterOrKeep_same]

theorem takeStop_enters {orderly : Bool} (h : s.jm.mode ≠ m) (ho : ¬ (orderly = true ∧ (s.jm.mode = .plan ∨ s.jm.mode = .directDrive))) :
    takeStop s m d orderly = enterMode s m .controller := by
  unfold takeStop
  cases hm : s.jm.mode with
  | plan => exact if_neg fun o => ho ⟨o, .inl hm⟩
  | directDrive => exact if_neg fun o => ho ⟨o, .inr hm⟩
  | startFlash | startRed => rfl
  | flash | dark => exact enterOrKeep_other h

end Stops

/-- FLASH and DARK as one request. -/
def stopReq (m : Mode) (d : Dest) (option : Nat) (s : State) : Answer :=
  checked [(decide (1 < option), .badValue), (!s.jm.started, .badState), (decide (m = .flash ∧ s.coll.demanded = .dark), .badState)] s
    (done (takeStop s m d (decide (option = 1))))

section StopRequest

variable {s : State} {option : Nat} {m : Mode} {d : Dest}

theorem flashReq_eq (option : Nat) (s : State) : flashReq option s = stopReq .flash .flash option s := by
  simp only [flashReq, stopReq, true_and]

theorem darkReq_eq (option : Nat) (s : State) : darkReq option s = stopReq .dark .dark option s := by
  have last (a b : Bool) : firstRefusal [(a, Result.badValue), (b, .badState), (false, .badState)] =
      firstRefusal [(a, .badValue), (b, .badState)] := by cases a <;> cases b <;> rfl
  simp only [darkReq, stopReq, reduceCtorEq, false_and, decide_false, checked, last]

theorem stopReq_badValue (h : 1 < option) : stopReq m d option s = ⟨s, .badValue, .none⟩ := checked_refuse (by simp [h])

theorem stopReq_badState (ho : option ≤ 1) (h : s.jm.started = false ∨ (m = .flash ∧ s.coll.demanded = .dark)) :
    stopReq m d option s = ⟨s, .badState, .none⟩ := by
  refine checked_refuse ?_
  have low : decide (1 < option) = false := decide_eq_false (Nat.not_lt.2 ho)
  rcases h with stopped | demanded
  · simp [low, stopped]
  · cases started : s.jm.started <;> simp [low, demanded]

theorem stopReq_taken (ho : option ≤ 1) (hs : s.jm.started = true) (h : ¬ (m = .flash ∧ s.coll.demanded = .dark)) :
    stopReq m d option s = ⟨takeStop s m d (decide (option = 1)), .done, .none⟩ := by
  have low : decide (1 < option) = false := decide_eq_false (Nat.not_lt.2 ho)
  exact checked_pass (by simp only [low, hs, h, firstRefusal]; rfl)

end StopRequest

/-- FLASH or DARK with no request in service. -/
theorem exec_stop {s : State} {tag : Byte} {option : Nat} {c : Instr} {k : Byte} {m : Mode} {d : Dest} {u : State} {r : Result}
    (hs : s.port.inService = none) (hc : (c = .flash tag option ∧ k = 0x10 ∧ m = .flash ∧ d = .flash) ∨
      (c = .dark tag option ∧ k = 0x11 ∧ m = .dark ∧ d = .dark))
    (h : stopReq m d option (taken k tag s) = ⟨u, r, .none⟩) : exec c s = .next (answered k tag u r .none) := by
  rcases hc with ⟨rfl, rfl, rfl, rfl⟩ | ⟨rfl, rfl, rfl, rfl⟩
  · exact congrArg Host.Outcome.next (serve_of hs ((flashReq_eq ..).trans h))
  · exact congrArg Host.Outcome.next (serve_of hs ((darkReq_eq ..).trans h))

/-- Settles O19, by the mode the request finds: a departure set, the reason changed, or an entry. -/
theorem stopsTaken : Obligations.StopsTaken := by
  intro s x tag option c k m d hs hc hx
  subst hx
  have mode : m = .flash ∨ m = .dark := hc.imp (fun h => h.2.2.1) fun h => h.2.2.1
  refine ⟨fun high => exec_stop hs hc (stopReq_badValue high),
    fun low stopped => exec_stop hs hc (stopReq_badState low (.inl ((taken_started k tag s).trans stopped))),
    fun low _ flash dark => exec_stop hs hc (stopReq_badState low (.inr ⟨flash, dark⟩)), fun low started free => ?_⟩
  have allowed : ¬ (m = .flash ∧ (taken k tag s).coll.demanded = .dark) := fun h => by
    rcases free with dark | other
    · rw [h.1] at dark; cases dark
    · exact other h.2
  have exec := exec_stop hs hc (stopReq_taken (d := d) low ((taken_started k tag s).trans started) allowed)
  rw [← taken_live k tag s, ← taken_groupType k tag s]
  generalize taken k tag s = x at exec free
  refine ⟨_, exec, fun one driven => ?_, fun one plan => ?_, fun met => takeStop_met mode met _, fun new immediate => ?_⟩
  · rw [decide_eq_true one, takeStop_orderly (.inr driven)]
    exact ⟨setDeparture_directDrive_frame driven, setDeparture_directDrive_each driven⟩
  · rw [decide_eq_true one, takeStop_orderly (.inl plan)]
    refine ⟨?_, fun g => ?_⟩
    · rw [setDeparture_plan plan]
      exact orderlyStop_frame _
    · have place := placeOf_setDeparture_plan (d := d) (r := .controller) plan g
      refine ⟨fun stopped => ?_, fun passed => ?_⟩
      · rw [if_pos stopped] at place
        simpa only [placeOf, Prod.mk.injEq] using place
      · rw [if_neg passed] at place
        simpa only [placeOf, Prod.mk.injEq] using place
  · have enters : takeStop x m d (decide (option = 1)) = enterMode x m .controller :=
      takeStop_enters new (by rwa [decide_eq_true_eq])
    refine ⟨enters, fun demand => ?_⟩
    have reached : belowDemand x m = false := by
      rw [← Bool.not_eq_true, belowDemand_iff]
      rcases mode with rfl | rfl
      · have other := demand.resolve_left (by decide)
        revert other
        cases demandedNow x <;> decide
      · cases demandedNow x <;> decide
    have plain : m ≠ .plan ∧ m ≠ .directDrive ∧ m ≠ .startFlash := by rcases mode with rfl | rfl <;> decide
    obtain ⟨entered, reason, departure, -⟩ := takeMode_jm x m .controller
    have eng := takeMode_eng x m .controller
    rw [enters, enterMode_free reached fun e => absurd e plain.2.2]
    refine ⟨entered, reason, departure, by rw [eng]; rfl, by rw [eng]; rfl, fun g hl => ?_⟩
    obtain ⟨target, aspect, -⟩ := takeMode_live m .controller plain.1 plain.2.1 hl
    refine ⟨target.trans ?_, aspect.trans ?_⟩ <;> rcases mode with rfl | rfl <;> simp [modeTarget, targetAspect]

end Sys2Proof.Machine

namespace Sys2Proof.Machine

open Sys2Proof

/-! ## A raise and the demanded mode (R161, R162, R166) -/

section RaiseDemand

variable {s : State} {k : Kind} {n : Nat} {d : Detail}

/-- A record in force with reaction DARK is held. -/
def DarkHeld (s : State) : Prop :=
  ∃ (i : Fin 64) (r : FaultRec), s.coll.slots[i] = some r ∧ r.inForce = true ∧ r.reaction = .dark

theorem mem_records {r : FaultRec} : r ∈ records s ↔ ∃ i : Fin 64, s.coll.slots[i] = some r := by
  simp only [records, List.mem_filterMap, id_eq, exists_eq_right, Vector.mem_toList_iff, Vector.mem_iff_getElem]
  exact ⟨fun ⟨i, hi, e⟩ => ⟨⟨i, hi⟩, e⟩, fun ⟨i, e⟩ => ⟨i.val, i.isLt, e⟩⟩

theorem demandedNow_dark_iff : demandedNow s = .dark ↔ DarkHeld s ∨ s.coll.overflow = some .dark := by
  have held : ((records s).any fun r => r.inForce && decide (r.reaction = .dark)) = true ↔ DarkHeld s := by
    simp only [List.any_eq_true, mem_records, Bool.and_eq_true, decide_eq_true_eq, DarkHeld, ← exists_and_right]
    exact exists_comm
  rw [← held, ← @decide_eq_true_iff (s.coll.overflow = some .dark), ← Bool.or_eq_true]
  unfold demandedNow
  split
  next h => exact ⟨fun _ => h, fun _ => rfl⟩
  next h => refine ⟨fun dark => ?_, fun dark => absurd dark h⟩; split at dark <;> cases dark

/-- The slot evicted holds a record that may be evicted (R162). -/
theorem evictable_of_evictSlot {i : Fin 64} (h : evictSlot s = some i) : ∃ r, Evictable s i r := by
  have keeps (l : List (Fin 64)) (best : Option (Fin 64 × Stamp)) (hb : ∀ b, best = some b → ∃ r, Evictable s b.1 r) :
      ∀ b, l.foldl (evictStep s) best = some b → ∃ r, Evictable s b.1 r := by
    induction l generalizing best with
    | nil => exact hb
    | cons j l ih =>
      refine ih _ fun b e => ?_
      by_cases hj : ∃ r, Evictable s j r
      · obtain ⟨r, hr⟩ := hj
        rw [evictStep_take s best j r hr] at e
        split at e
        · cases e; exact ⟨r, hr⟩
        · split at e
          · cases e; exact ⟨r, hr⟩
          · exact hb b e
      · rw [evictStep_skip s best j fun r hr => hj ⟨r, hr⟩] at e
        exact hb b e
  obtain ⟨b, hb, rfl⟩ := Option.map_eq_some_iff.1 (show Option.map Prod.fst ((idx 64).foldl (evictStep s) none) = some i from h)
  exact keeps (idx 64) none (fun _ e => by cases e) b hb

/-- A slot rewritten ends no DARK in force, unless the record it held was one and is not followed by one. -/
theorem darkHeld_setSlot {i : Fin 64} {x : Option FaultRec} (h : DarkHeld s)
    (hx : ∀ r, s.coll.slots[i] = some r → r.inForce = true → r.reaction = .dark →
      ∃ r', x = some r' ∧ r'.inForce = true ∧ r'.reaction = .dark) : DarkHeld (setSlot s i x) := by
  obtain ⟨j, r, hr, force, dark⟩ := h
  by_cases e : i = j
  · subst e
    obtain ⟨r', rfl, force', dark'⟩ := hx r hr force dark
    exact ⟨i, r', by rw [setSlot_slots, if_pos rfl], force', dark'⟩
  · exact ⟨j, r, by rw [setSlot_slots, if_neg e, hr], force, dark⟩

theorem raiseLatch_dark (r : Reaction) : raiseLatch (some .dark) r = some .dark := by cases r <;> rfl

/-- A raise leaves DARK demanded: no record in force is evicted, and the latch never falls (R162). -/
theorem demandedNow_takeRaise_dark (h : demandedNow s = .dark) : demandedNow (takeRaise s k n d) = .dark := by
  rw [demandedNow_dark_iff] at h ⊢
  unfold takeRaise
  split
  next i _ =>
    split
    next r hr =>
      have renews (r' : FaultRec) (hk : r'.kind = r.kind) (hd : r'.reaction = r.reaction) (ha : r.isActive = true → r'.isActive = true) :
          DarkHeld (setSlot s i (some r')) ∨ (setSlot s i (some r')).coll.overflow = some .dark := by
        refine h.imp_left fun held => darkHeld_setSlot held fun q hq force dark => ⟨r', rfl, ?_, ?_⟩
        · obtain rfl : q = r := Option.some.inj (hq.symm.trans hr)
          simp only [FaultRec.inForce, Bool.or_eq_true] at force ⊢
          rw [hk]
          exact force.imp_left ha
        · obtain rfl : q = r := Option.some.inj (hq.symm.trans hr)
          exact hd.trans dark
      split
      · exact renews { r with state := .activeUnack, count := bump 255 r.count, last := stamp s, detail := d } rfl rfl fun _ => rfl
      · exact renews { r with last := stamp s } rfl rfl id
    next => exact h
  next =>
    split
    next i hi =>
      have free : s.coll.slots[i] = none := by simpa using List.find?_some hi
      refine h.imp_left fun held => darkHeld_setSlot held fun r hr => ?_
      rw [free] at hr; cases hr
    next =>
      split
      next i hi =>
        obtain ⟨q, hq, cleared, recovers⟩ := evictable_of_evictSlot hi
        refine h.imp_left fun held => darkHeld_setSlot held fun r hr force => ?_
        obtain rfl : r = q := Option.some.inj (hr.symm.trans hq)
        simp [FaultRec.inForce, FaultRec.isActive, cleared, recovers] at force
      next =>
        refine h.imp id fun latch => ?_
        rw [setColl_coll]
        dsimp only
        rw [latch, raiseLatch_dark]

/-- A raise at a pulse. -/
theorem takeRaise_pulsed : takeRaise (pulsed s) k n d = { takeRaise s k n d with inPulse := true } := by
  have found : findSlot (pulsed s) k n = findSlot s k n := rfl
  have empty : emptySlot (pulsed s) = emptySlot s := rfl
  have evict : evictSlot (pulsed s) = evictSlot s := rfl
  unfold takeRaise
  rw [found, empty, evict]
  cases findSlot s k n with
  | some i =>
    dsimp only
    cases s.coll.slots[i] with
    | none => rfl
    | some r => dsimp only; split <;> rfl
  | none =>
    cases emptySlot s with
    | some i => rfl
    | none => cases evictSlot s <;> rfl

end RaiseDemand

/-! ## The engine's start (R55) -/

section EngineStart

variable {s : State} {p : Fin 8}

/-- The state in which the engine starts a plan, before its first interstage (R55). -/
def startedEngine (s : State) (p : Fin 8) : State := { s with eng := { State.reset.eng with
  governing := s.eng.governing, invalidRaised := s.eng.invalidRaised, running := some p, sub := .rest
  lastReading := counter s p, dwell := decide (0 < s.tables.plan[p].cycle) } }

/-- The step with which the engine starts a plan (R55). -/
def startStep (s : State) (p : Fin 8) : Option (Fin 16) := if coordinated s p then holdStep s p else firstWanted s p

theorem engineStart_eq (s : State) (p : Fin 8) : engineStart s p = match startStep (startedEngine s p) p with
    | some b => beginInterstage (startedEngine s p) p b
    | none => startedEngine s p := rfl

theorem wanted_startedEngine : wanted (startedEngine s p) = wanted s := wanted_congr _ _ rfl rfl rfl rfl

theorem startStep_of_firstFrom {h : Option (Fin 16)}
    (hf : FirstFrom (nSteps s p) (fun k => if 0 < s.tables.plan[p].cycle then (stepOf s p k).holdFlag else wanted s p k) h) :
    startStep (startedEngine s p) p = h := by
  by_cases hc : 0 < s.tables.plan[p].cycle
  · simp only [hc, if_true] at hf
    exact (if_pos (coordinated_iff.2 hc)).trans (holdStep_of_firstFrom hf)
  · simp only [hc, if_false] at hf
    refine (if_neg fun c => hc (coordinated_iff.1 c)).trans (firstWanted_of_firstFrom ?_)
    rw [wanted_startedEngine]
    exact hf

/-- The engine starts with the groups, their clearance runs and its own record alone changed. -/
theorem engineStart_frame (s : State) (p : Fin 8) : engineStart s p = { s with
    groups := (engineStart s p).groups, clearRuns := (engineStart s p).clearRuns, eng := (engineStart s p).eng } := by
  rw [engineStart_eq]
  cases startStep (startedEngine s p) p with
  | none => rfl
  | some b => dsimp only; rw [beginInterstage_frame _ _ p b rfl]; rfl

theorem engineStart_eng (s : State) (p : Fin 8) :
    (engineStart s p).eng.running = some p ∧ (engineStart s p).eng.invalidRaised = s.eng.invalidRaised := by
  rw [engineStart_eq]
  cases startStep (startedEngine s p) p with
  | none => exact ⟨rfl, rfl⟩
  | some b => dsimp only; rw [beginInterstage_frame _ _ p b rfl]; exact ⟨rfl, rfl⟩

end EngineStart

/-! ## Entry to PLAN (R79) -/

section PlanEntry

variable {s : State} {p f : Fin 8} {r : Reason}

/-- With no demand, PLAN is entered with the plan running. -/
theorem enterPlan_free (hd : demandedNow s = .none) : enterPlan s p r = engineStart (refreshInhibit (writeMode s .plan r)) p :=
  if_neg (Bool.eq_false_iff.1 (belowDemand_none hd))

theorem enterPlan_jm (hd : demandedNow s = .none) :
    (enterPlan s p r).jm.mode = .plan ∧ (enterPlan s p r).jm.reason = r ∧
      (enterPlan s p r).jm.provingTimeout = (if s.jm.mode = .startRed then false else s.jm.provingTimeout) := by
  have kept : (enterPlan s p r).jm = (writeMode s .plan r).jm := by
    rw [enterPlan_free hd, engineStart_frame]; rfl
  rw [kept, writeMode_jm]
  simp

theorem enterPlan_eng (hd : demandedNow s = .none) :
    (enterPlan s p r).eng.running = some p ∧ (enterPlan s p r).eng.invalidRaised = s.eng.invalidRaised := by
  have written : (refreshInhibit (writeMode s .plan r)).eng = s.eng := by rw [writeMode_frame]; rfl
  rw [enterPlan_free hd, (engineStart_eng _ _).2, written]
  exact ⟨(engineStart_eng _ _).1, rfl⟩

theorem planEntry_target {m : Mode} (h : schedTarget s.jm.schedMode = some m) : planEntry s r = enterMode s m .schedule := by
  simp only [planEntry, h]

theorem planEntry_governing (h : s.jm.schedMode = .plan) (hv : s.tables.plan[s.eng.governing].state = .valid) :
    planEntry s r = enterPlan s s.eng.governing r := by
  simp only [planEntry, h, schedTarget]
  exact if_pos (planValid_iff.2 hv)

theorem planEntry_fallback (h : s.jm.schedMode = .plan) (hv : s.tables.plan[s.eng.governing].state ≠ .valid)
    (hf : s.tables.plan[fallback s].state = .valid) : planEntry s r = enterPlan (raiseInvalid s s.eng.governing) (fallback s) r := by
  simp only [planEntry, h, schedTarget]
  rw [if_neg fun v => hv (planValid_iff.1 v), if_pos (planValid_iff.2 hf)]

theorem planEntry_neither (h : s.jm.schedMode = .plan) (hv : s.tables.plan[s.eng.governing].state ≠ .valid)
    (hf : s.tables.plan[fallback s].state ≠ .valid) :
    planEntry s r = enterMode (raiseBothInvalid s s.eng.governing (fallback s)) .flash .noPlan := by
  simp only [planEntry, h, schedTarget]
  rw [if_neg fun v => hv (planValid_iff.1 v), if_neg fun v => hf (planValid_iff.1 v)]

theorem raiseBothInvalid_raised (s : State) (p f : Fin 8) : mem (raiseBothInvalid s p f).eng.invalidRaised p = true ∧
    mem (raiseBothInvalid s p f).eng.invalidRaised f = true := by
  unfold raiseBothInvalid
  split
  next e => subst e; simp only [raiseInvalid_raised, or_true, and_self]
  next => simp only [raiseInvalid_raised, or_true, true_or, and_self]

/-- A second raise of the same PLAN_INVALID takes no demand for DARK away, so one raise demands DARK only where two do. -/
theorem demandedNow_raiseBothInvalid (h : demandedNow (raiseInvalid (raiseInvalid s p) f) ≠ .dark) :
    demandedNow (raiseBothInvalid s p f) ≠ .dark := by
  unfold raiseBothInvalid
  split
  next e =>
    intro dark
    refine h ?_
    have again : demandedNow (takeRaise (raiseInvalid s p) .planInvalid (num f)
        (.errIndex (invalidDetail (raiseInvalid s p) f))) = .dark := demandedNow_takeRaise_dark dark
    exact again
  next => exact h

theorem raiseBothInvalid_tables (s : State) (p f : Fin 8) : (raiseBothInvalid s p f).tables = s.tables := by
  unfold raiseBothInvalid
  split
  · rw [raiseInvalid_frame]
  · rw [raiseInvalid_frame, raiseInvalid_frame p]

theorem enterMode_invalidRaised (s : State) (m : Mode) (r : Reason) :
    (enterMode s m r).eng.invalidRaised = s.eng.invalidRaised :=
  enterMode_inv (fun s => s.eng.invalidRaised) (fun _ _ => rfl) (fun s m r => by rw [takeMode_eng]) s m r

/-- START_RED left for PLAN: START_PROVING_TIMEOUT cleared where raised, and the mode written with the same reason. -/
theorem writeMode_plan (h : s.jm.mode = .startRed) :
    writeMode s .plan s.jm.reason = { (if s.jm.provingTimeout = true then takeClear s .startProvingTimeout 0 else s) with
      jm := { s.jm with mode := .plan, departure := none, provingTimeout := false } } := by
  unfold writeMode leaveStartRed
  cases ht : s.jm.provingTimeout with
  | true =>
    rw [if_pos ⟨h, by decide, rfl⟩, if_pos rfl, takeClear_frame]
    rfl
  | false =>
    rw [if_neg fun left => Bool.false_ne_true left.2.2, if_neg Bool.false_ne_true, ← ht]
    rfl

end PlanEntry

/-! ## When the mode timers are due (R77, R78, R87) -/

section Timers

variable {s : State}

theorem startFlashDue_iff : startFlashDue s = true ↔ s.jm.mode = .startFlash ∧ s.tables.startUp.startFlash ≤ s.jm.timer := by
  simp only [startFlashDue, Bool.and_eq_true, decide_eq_true_eq]

theorem allProven_iff : allProven s = true ↔
    ∀ g : Fin 32, live s g = true → s.prov.red[g] = .proven ∨ s.prov.red[g] = .degraded := by
  simp only [allProven, List.all_eq_true, idx, List.mem_finRange, true_imp_iff, Bool.or_eq_true, Bool.not_eq_true', decide_eq_true_eq,
    or_assoc, ← Bool.not_eq_true]
  exact forall_congr' fun g => imp_iff_not_or.symm

theorem not_allProven (h : ∃ g : Fin 32, live s g = true ∧ s.prov.red[g] ≠ .proven ∧ s.prov.red[g] ≠ .degraded) :
    allProven s = false := by
  obtain ⟨g, hl, proven, degraded⟩ := h
  exact Bool.eq_false_iff.2 fun all => (allProven_iff.1 all g hl).elim proven degraded

theorem startRedDue_iff : startRedDue s = true ↔
    s.jm.mode = .startRed ∧ s.tables.startUp.startRed ≤ s.jm.timer ∧ allProven s = true := by
  simp only [startRedDue, Bool.and_eq_true, decide_eq_true_eq, and_assoc]

theorem provingTimeoutDue_iff : provingTimeoutDue s = true ↔ s.jm.mode = .startRed ∧ s.jm.provingTimeout = false ∧
    s.tables.startUp.startRed + s.tables.startUp.provingLimit ≤ s.jm.timer ∧ allProven s = false := by
  simp only [provingTimeoutDue, Bool.and_eq_true, Bool.not_eq_true', decide_eq_true_eq, and_assoc]

theorem silentDue_iff : silentDue s = true ↔
    s.jm.mode = .directDrive ∧ s.jm.silent = false ∧ s.tables.startUp.silence ≤ s.jm.silence := by
  simp only [silentDue, Bool.and_eq_true, Bool.not_eq_true', decide_eq_true_eq, and_assoc]

theorem takeStartFlashEnd_pulsed (h : startFlashDue s = true) (hd : demandedNow s = .none) :
    takeStartFlashEnd (pulsed s) = takeMode (pulsed s) .startRed s.jm.reason := by
  have free : belowDemand (pulsed s) .startRed = false := belowDemand_none (s := pulsed s) hd
  exact (if_pos h).trans (enterMode_free free fun other => by cases other)

theorem takeProvingTimeout_pulsed (h : provingTimeoutDue s = true) : takeProvingTimeout (pulsed s) = { s with
    coll := (takeRaise s .startProvingTimeout 0 .absent).coll, jm := { s.jm with provingTimeout := true }, inPulse := true } := by
  refine (if_pos h).trans ?_
  rw [takeRaise_pulsed, takeRaise_frame]
  rfl

/-- The controller is marked silent, before a departure is set (R87). -/
def silenced (s : State) : State := { s with
  coll := (takeRaise s .controllerSilent 0 .absent).coll, jm := { s.jm with silent := true }, inPulse := true }

theorem takeSilent_pulsed (h : silentDue s = true) : takeSilent (pulsed s) =
    if s.jm.departure = none then setDeparture (silenced s) .startRed .controller else silenced s := by
  have mark : (setMode (takeRaise (pulsed s) .controllerSilent 0 .absent) fun j => { j with silent := true }) = silenced s := by
    rw [takeRaise_pulsed, takeRaise_frame]
    rfl
  refine (if_pos h).trans ?_
  dsimp only
  rw [mark]
  cases hd : s.jm.departure with
  | none => exact (if_pos (by rw [silenced, hd]; rfl)).trans (if_pos rfl).symm
  | some d => exact (if_neg (by rw [silenced, hd]; exact Bool.false_ne_true)).trans (if_neg (Option.some_ne_none d)).symm

end Timers

/-- Settles O42, timer by timer, and START_RED_END by the schedule mode and the plans that are VALID. -/
theorem modeTimers : Obligations.ModeTimers := by
  refine ⟨fun s => ⟨fun hp mode timer free => ?_, fun mode timer free proven => ?_, fun hp mode unraised timer unproven => ?_,
    fun hp mode heard timer => ?_, fun idle => ?_, fun idle => ?_, fun idle => ?_, fun idle => ?_⟩, fun s a p h ha hf => ?_⟩
  · have due := startFlashDue_iff.2 ⟨mode, timer⟩
    obtain ⟨entered, reason, -⟩ := takeMode_jm (pulsed s) .startRed s.jm.reason
    obtain ⟨zero, fresh⟩ := takeMode_timer (pulsed s) .startRed s.jm.reason (.inr rfl)
    refine ⟨_, next_atPulse_due hp due (takeStartFlashEnd_pulsed due free), ?_, entered, reason, zero, fresh, fun g hl => ?_⟩
    · rw [takeMode_frame]
    · exact (takeMode_live (s := pulsed s) .startRed _ (by decide) (by decide) hl).1
  · have due := startRedDue_iff.2 ⟨mode, timer, allProven_iff.2 proven⟩
    have ended : takeStartRedEnd s = planEntry s s.jm.reason := if_pos due
    refine ⟨planEntry s s.jm.reason, congrArg (fun u => Host.Outcome.next (finish u)) ended, fun plan valid => ?_,
      fun plan invalid valid undemanded => ?_, fun plan invalid neither => ?_, fun flash => ?_, fun dark => ?_⟩
    · obtain ⟨entered, reason, cleared⟩ := enterPlan_jm (p := s.eng.governing) (r := s.jm.reason) free
      rw [planEntry_governing plan valid]
      refine ⟨entered, reason, (enterPlan_eng free).1, cleared.trans (if_pos mode), _, rfl, ?_⟩
      rw [enterPlan_free free, writeMode_plan mode]
    · obtain ⟨entered, reason, -⟩ := enterPlan_jm (p := fallback s) (r := s.jm.reason) undemanded
      obtain ⟨running, raised⟩ := enterPlan_eng (p := fallback s) (r := s.jm.reason) undemanded
      rw [planEntry_fallback plan invalid valid]
      exact ⟨entered, reason, running, by rw [raised, raiseInvalid_raised]; exact .inr rfl⟩
    · obtain ⟨governing, fallback⟩ := raiseBothInvalid_raised s s.eng.governing (fallback s)
      rw [planEntry_neither plan invalid neither, enterMode_invalidRaised]
      refine ⟨governing, fallback, fun undemanded => ?_⟩
      have reached : belowDemand (raiseBothInvalid s s.eng.governing (Machine.fallback s)) .flash = false := by
        rw [← Bool.not_eq_true, belowDemand_iff]
        have other := demandedNow_raiseBothInvalid undemanded
        revert other
        cases demandedNow (raiseBothInvalid s s.eng.governing (Machine.fallback s)) <;> decide
      obtain ⟨reason, entered⟩ := enterMode_jm (r := .noPlan) reached
      refine ⟨entered, reason, fun g hl => ?_⟩
      rw [enterMode_free reached fun other => by cases other]
      exact (takeMode_live .flash _ (by decide) (by decide) (by rwa [live_congr (raiseBothInvalid_tables _ _ _)])).1
    · obtain ⟨reason, entered⟩ := enterMode_jm (m := .flash) (r := .schedule) (belowDemand_none free)
      rw [planEntry_target (m := .flash) (by rw [flash]; rfl)]
      exact ⟨entered, reason⟩
    · obtain ⟨reason, entered⟩ := enterMode_jm (m := .dark) (r := .schedule) (belowDemand_none free)
      rw [planEntry_target (m := .dark) (by rw [dark]; rfl)]
      exact ⟨entered, reason⟩
  · have due := provingTimeoutDue_iff.2 ⟨mode, unraised, timer, not_allProven unproven⟩
    exact next_atPulse_due hp due (takeProvingTimeout_pulsed due)
  · have due := silentDue_iff.2 ⟨mode, heard, timer⟩
    have driven : (silenced s).jm.mode = .directDrive := mode
    refine ⟨_, next_atPulse_due hp due (takeSilent_pulsed due), ?_⟩
    cases hd : s.jm.departure with
    | none =>
      rw [if_pos rfl]
      refine ⟨?_, ?_, ?_, fun _ g hl => ?_, fun waits => absurd rfl waits⟩
      · rw [setDeparture_directDrive_frame driven]; rfl
      · rw [setDeparture_directDrive_frame driven]; rfl
      · rw [setDeparture_directDrive_frame driven]; rfl
      · rw [(setDeparture_directDrive_each driven g).1]
        exact (handTarget_aspect (s := silenced s) _ hl).1
    | some d =>
      rw [if_neg (Option.some_ne_none d)]
      refine ⟨rfl, rfl, ?_, fun none => absurd none (Option.some_ne_none d), fun _ => rfl⟩
      rw [silenced, Option.getD_some, ← hd]
  · refine next_atPulse_idle (idle.imp_right fun h => ?_)
    rw [← Bool.not_eq_true, startFlashDue_iff]
    grind
  · have idle : startRedDue s = false := by
      rw [← Bool.not_eq_true, startRedDue_iff]
      rintro ⟨mode, timer, proven⟩
      rcases idle with other | short | unproven
      · exact other mode
      · omega
      · rw [not_allProven unproven] at proven; cases proven
    exact congrArg (fun u => Host.Outcome.next (finish u)) (if_neg (Bool.eq_false_iff.1 idle))
  · refine next_atPulse_idle (idle.imp_right fun h => ?_)
    rw [← Bool.not_eq_true, provingTimeoutDue_iff]
    rintro ⟨mode, unraised, timer, unproven⟩
    rcases h with other | raised | short | proven
    · exact other mode
    · rw [raised] at unraised; cases unraised
    · omega
    · rw [allProven_iff.2 proven] at unproven; cases unproven
  · refine next_atPulse_idle (idle.imp_right fun h => ?_)
    rw [← Bool.not_eq_true, silentDue_iff]
    grind
  · subst ha
    exact (engineStart_eq s p).trans (by rw [startStep_of_firstFrom hf]; rfl)

end Sys2Proof.Machine

namespace Sys2Proof.Machine

open Sys2Proof

/-! ## DARK at rest (R75, R77, R167) -/

section Resting

variable {s t u : State}

/-- The mode is DARK for a reason that no demand and no schedule acts on, the engine runs no plan and no departure waits: a lawful state that START
finds. -/
structure Resting (s : State) : Prop where
  mode : s.jm.mode = .dark
  reason : s.jm.reason = .reset ∨ s.jm.reason = .restart ∨ s.jm.reason = .config
  running : s.eng.running = none
  departure : s.jm.departure = none

theorem Lawful.toResting (h : Lawful s) (mode : s.jm.mode = .dark)
    (reason : s.jm.reason = .reset ∨ s.jm.reason = .restart ∨ s.jm.reason = .config) : Resting s := by
  obtain ⟨-, running, departure⟩ := h.darkness mode
  exact ⟨mode, reason, running, departure⟩

theorem Resting.reason_ne (h : Resting s) : s.jm.reason ≠ .fault ∧ s.jm.reason ≠ .schedule ∧ s.jm.reason ≠ .noPlan := by
  rcases h.reason with e | e | e <;> rw [e] <;> decide

/-- A group record but for the inhibit set and the UNEXPECTED_GREEN flag. -/
def unmarked (r : GroupRec) : GroupRec := { r with inhibited := false, raised := false }

theorem eq_of_unmarked {a b : GroupRec} (h : unmarked a = unmarked b) : { a with inhibited := b.inhibited, raised := b.raised } = b :=
  congrArg (fun r : GroupRec => { r with inhibited := b.inhibited, raised := b.raised }) h

/-- From `s` to `t` the collector, the port and, of the groups, the inhibit set and the UNEXPECTED_GREEN flags alone may have changed. -/
structure HandedOn (s t : State) : Prop where
  frame : t = { s with coll := t.coll, port := t.port, groups := t.groups }
  groups : ∀ g : Fin 32, unmarked t.groups[g] = unmarked s.groups[g]

theorem HandedOn.refl (s : State) : HandedOn s s := ⟨rfl, fun _ => rfl⟩

theorem HandedOn.trans (h : HandedOn s t) (h' : HandedOn t u) : HandedOn s u :=
  ⟨by rw [h'.frame, h.frame], fun g => (h'.groups g).trans (h.groups g)⟩

theorem handedOn_setColl (s : State) (f : Collector → Collector) : HandedOn s (setColl s f) := ⟨rfl, fun _ => rfl⟩

theorem handedOn_setPort (s : State) (f : Port → Port) : HandedOn s (setPort s f) := ⟨rfl, fun _ => rfl⟩

theorem handedOn_refreshInhibit (s : State) : HandedOn s (refreshInhibit s) :=
  ⟨rfl, fun g => by rw [refreshInhibit, getElem_tab]; rfl⟩

theorem handedOn_handInhibit (s : State) : HandedOn s (handInhibit s) :=
  (handedOn_setColl s _).trans (handedOn_refreshInhibit _)

/-- The mode record of a state that hears a request (R87). -/
def heardJm (s : State) : ModeRec := { s.jm with silence := 0, silenceFresh := !s.inPulse, silent := false }

namespace Resting

theorem of_handedOn (h : Resting s) (ht : HandedOn s t) : Resting t := by
  refine ⟨?_, ?_, ?_, ?_⟩ <;> rw [ht.frame]
  · exact h.mode
  · exact h.reason
  · exact h.running
  · exact h.departure

/-- No demand is more severe than DARK, and none falls for a reason that is not FAULT (R88). -/
theorem obeyDemand_rests (h : Resting s) (old : Demanded) : obeyDemand s old = s := by
  have least (d : Demanded) : ¬ Mode.dark.severity < d.severity := by cases d <;> decide
  rw [obeyDemand, if_neg, if_neg fun e => h.reason_ne.1 e.2]
  rw [h.mode]
  exact least _

theorem handDemand_rests (h : Resting s) : HandedOn s (handDemand s) := by
  have recorded := handedOn_setColl s fun c => { c with demanded := demandedNow s }
  unfold handDemand
  dsimp only
  split
  · exact .refl s
  · rw [(h.of_handedOn recorded).obeyDemand_rests]
    exact recorded

theorem settleOnce_rests (h : Resting s) : HandedOn s (settleOnce s) := by
  have inhibited := handedOn_handInhibit s
  have handed := (inhibited.trans (h.of_handedOn inhibited).handDemand_rests).trans (handedOn_refreshInhibit _)
  obtain ⟨mode, -, running, departure⟩ := h.of_handedOn handed
  rw [settleOnce]
  generalize refreshInhibit (handDemand (handInhibit s)) = x at handed mode running departure ⊢
  have progress : interstageProgress x = x := by rw [interstageProgress, running]
  have departed : judgeDeparture x = x := judgeDeparture_waits (.inl departure)
  have startRed : takeStartRedEnd x = x := by rw [takeStartRedEnd, startRedDue, mode]; rfl
  have sub : refreshSub x = x := by rw [refreshSub, running]
  rw [progress, departed, startRed, sub]
  exact handed

theorem settleN_rests (n : Nat) (h : Resting s) : HandedOn s (settleN n s) := by
  induction n generalizing s with
  | zero => exact .refl s
  | succ n ih => exact h.settleOnce_rests.trans (ih (h.of_handedOn h.settleOnce_rests))

/-- The hand-overs of a change find nothing to act on. -/
theorem settle_rests (h : Resting s) : HandedOn s (settle s) := by
  rw [settle, refreshSummary, handAlarm]
  exact ((h.settleN_rests 4).trans (handedOn_setColl _ _)).trans (handedOn_setPort _ _)

/-- A request received restarts the silence timer (R87). -/
theorem taken_rests (h : Resting s) (kind tag : Byte) :
    HandedOn { s with jm := heardJm s, moment := .between } (taken kind tag s) := by
  have heard : HandedOn { s with jm := heardJm s, moment := .between }
      (heardRequest (setPort (between s) fun p => { p with receiver := .hunting })) := by
    unfold heardRequest
    dsimp only
    split
    · rw [takeClear_frame]; exact ⟨rfl, fun _ => rfl⟩
    · exact ⟨rfl, fun _ => rfl⟩
  have silenced : Resting { s with jm := heardJm s, moment := .between } := ⟨h.mode, h.reason, h.running, h.departure⟩
  exact (heard.trans (silenced.of_handedOn heard).settle_rests).trans (handedOn_setPort _ _)

end Resting

end Resting

/-! ## The schedule evaluated by START (R66, R83, R103) -/

section Formed

variable {s : State}

/-- The state with the schedule results recorded (R103). -/
abbrev withResults (s : State) : State :=
  { s with sched := { s.sched with mode := schedModeNow s, plan := schedPlanNow s, dim := schedDimNow s } }

/-- The effective governing plan as START forms it (R66, R104). -/
abbrev effPlanNow (s : State) : Fin 8 := s.sched.planOverride.getD (schedPlanNow s)

/-- The schedule mode handed on at START. -/
abbrev modeNamed (s : State) : State := settle (nameSchedule (withResults s) (schedModeNow s))

/-- START hands the schedule mode and the governing plan on whether or not they have changed. -/
theorem formResults_always (s : State) : formResults true s = handDim (handPlan true (modeNamed s)) := rfl

theorem kept_modeNamed (s : State) : kept (modeNamed s) = { kept (withResults s) with schedMode := schedModeNow s } := by
  rw [modeNamed, kept_settle, kept_nameSchedule]

theorem modeNamed_sched (s : State) : (modeNamed s).sched = (withResults s).sched := sched_eq_of_kept (kept_modeNamed s)

theorem modeNamed_effPlan (s : State) : (modeNamed s).sched.planOverride.getD (modeNamed s).sched.plan = effPlanNow s := by
  rw [modeNamed_sched]

/-- The governing plan handed on at START. -/
theorem handPlan_always (s : State) : handPlan true s =
    noPlanExit (nameGoverning { s with sched := { s.sched with effPlan := s.sched.planOverride.getD s.sched.plan } }
      (s.sched.planOverride.getD s.sched.plan)) := rfl

theorem noPlanExit_governing (s : State) : (noPlanExit s).eng.governing = s.eng.governing := by
  have entered := enterMode_inv (fun s => s.eng.governing) (fun _ _ => rfl) fun s m r => by rw [takeMode_eng]
  unfold noPlanExit takeExit enterOrKeep
  repeat' split
  · exact entered ..
  · rfl
  · exact entered ..
  · exact entered ..
  · rfl

theorem queue_of_held {a b : State} (h : held a = held b) : a.bus.queue = b.bus.queue := congrArg (fun x => x.2.1) h

/-- Naming the schedule mode holds what recording it holds. -/
theorem held_nameSchedule (s : State) (m : SchedMode) : held (nameSchedule s m) = held (noteSchedule s m) := by
  unfold nameSchedule
  dsimp only
  repeat' split
  all_goals simp

theorem modeNamed_queue (s : State) : (modeNamed s).bus.queue = s.bus.queue := by
  rw [modeNamed, settle_queue, queue_of_held (held_nameSchedule _ _)]
  rfl

/-- What START's evaluation of the schedule leaves in `v` of a state `s`, whatever the mode (R66, R83, R103). -/
structure Evaluated (s v : State) : Prop where
  kept : kept v = kept { s with sched := formedSched s, jm := { s.jm with schedMode := schedModeNow s } }
  queue : v.bus.queue = s.bus.queue
  governing : v.eng.governing = effPlanNow s

theorem evaluated_formResults (s : State) : Evaluated s (formResults true s) where
  kept := by
    rw [kept_formResults]
    simp only [true_or, if_true]
    rfl
  queue := by
    have handed : (handPlan true (modeNamed s)).bus.queue = (modeNamed s).bus.queue := by
      rw [handPlan_always, queue_of_held (held_noPlanExit _), queue_of_held (held_nameGoverning _ _)]
    exact handed.trans (modeNamed_queue s)
  governing := by
    have handed : (handPlan true (modeNamed s)).eng.governing = effPlanNow s := by
      rw [handPlan_always, noPlanExit_governing, nameGoverning_frame, modeNamed_effPlan]
    exact handed

/-- In DARK at rest the evaluation names the schedule mode and the governing plan, and changes nothing else of the mode record, the engine but for
its PLAN_INVALID flags, the demands and the flash runs. -/
structure Named (s v : State) : Prop where
  jm : v.jm = { s.jm with schedMode := v.jm.schedMode }
  eng : v.eng = { s.eng with governing := v.eng.governing, invalidRaised := v.eng.invalidRaised }
  latched : v.latched = s.latched
  clearRuns : v.clearRuns = s.clearRuns
  junctionRun : v.junctionRun = s.junctionRun
  groups : ∀ g : Fin 32, unmarked v.groups[g] = unmarked s.groups[g]

theorem Resting.modeNamed_rests (h : Resting s) :
    HandedOn (noteSchedule (withResults s) (schedModeNow s)) (modeNamed s) := by
  have noted : nameSchedule (withResults s) (schedModeNow s) = noteSchedule (withResults s) (schedModeNow s) := by
    have mode : (withResults s).jm.mode = .dark := h.mode
    obtain ⟨-, schedule, noPlan⟩ := h.reason_ne
    refine nameSchedule_noted (fun plan => ?_) fun due => ?_
    · rw [mode] at plan; cases plan.1
    · exact due.2.2.elim schedule fun e => noPlan e.2
  have rests : Resting (noteSchedule (withResults s) (schedModeNow s)) := ⟨h.mode, h.reason, h.running, h.departure⟩
  rw [modeNamed, noted]
  exact rests.settle_rests

/-- At rest the governing plan is recorded, and leaves no mode (R66, R84). -/
theorem Resting.handPlan_rests (h : Resting s) : handPlan true s =
    governed { s with sched := { s.sched with effPlan := s.sched.planOverride.getD s.sched.plan } }
      (s.sched.planOverride.getD s.sched.plan) := by
  rw [handPlan_always, nameGoverning_idle (by exact h.running)]
  refine noPlanExit_idle fun due => h.reason_ne.2.2 ?_
  rw [governed_frame] at due
  exact due.2

theorem Resting.named (h : Resting s) : Named s (formResults true s) := by
  have handed := h.modeNamed_rests
  have rests : Resting (noteSchedule (withResults s) (schedModeNow s)) := ⟨h.mode, h.reason, h.running, h.departure⟩
  rw [formResults_always, (rests.of_handedOn handed).handPlan_rests, governed_frame]
  have frame := handed.frame
  have groups := handed.groups
  generalize modeNamed s = x at frame groups ⊢
  exact ⟨by rw [frame]; rfl, by rw [frame]; rfl, by rw [frame]; rfl, by rw [frame]; rfl, by rw [frame]; rfl, groups⟩

end Formed

/-! ## START past its checks (R77) -/

section Begun

variable {s : State}

/-- UNEXPECTED_GREEN cleared for each group now UNUSED (R41). -/
def greenDropped (s : State) : State := (idx 32).foldl dropGreen s

theorem dropGreen_cleared {g : Fin 32} (hl : live s g = false) (hr : s.groups[g].raised = true) : dropGreen s g =
    { s with coll := (takeClear s .unexpectedGreen (num g)).coll, groups := put s.groups g { s.groups[g] with raised := false } } := by
  rw [dropGreen, if_pos (by rw [hl, hr]; rfl), takeClear_frame]
  rfl

theorem dropGreen_kept {g : Fin 32} (h : live s g = true ∨ s.groups[g].raised = false) : dropGreen s g = s := by
  refine if_neg ?_
  rcases h with used | quiet
  · rw [used]; exact Bool.false_ne_true
  · rw [quiet, Bool.and_false]; exact Bool.false_ne_true

theorem dropGreen_cases (s : State) (g : Fin 32) :
    (live s g = false ∧ s.groups[g].raised = true) ∨ live s g = true ∨ s.groups[g].raised = false := by
  cases live s g <;> cases s.groups[g].raised <;> simp

theorem dropGreen_frame (s : State) (g : Fin 32) :
    dropGreen s g = { s with coll := (dropGreen s g).coll, groups := (dropGreen s g).groups } := by
  rcases dropGreen_cases s g with ⟨unused, raised⟩ | kept
  · rw [dropGreen_cleared unused raised]
  · rw [dropGreen_kept kept]

theorem dropGreen_self (s : State) (g : Fin 32) : (dropGreen s g).groups[g] =
    if live s g = true then s.groups[g] else { s.groups[g] with raised := false } := by
  rcases dropGreen_cases s g with ⟨unused, raised⟩ | kept
  · rw [dropGreen_cleared unused raised, if_neg (by rw [unused]; decide), getElem_put_self]
  · rw [dropGreen_kept kept]
    split
    next => rfl
    next unused => rw [← kept.resolve_left unused]

theorem dropGreen_other {a b : Fin 32} (h : a ≠ b) : (dropGreen s a).groups[b] = s.groups[b] := by
  rcases dropGreen_cases s a with ⟨unused, raised⟩ | kept
  · rw [dropGreen_cleared unused raised]
    exact getElem_put_of_ne _ _ _ _ h
  · rw [dropGreen_kept kept]

theorem greenDropped_frame (s : State) :
    greenDropped s = { s with coll := (greenDropped s).coll, groups := (greenDropped s).groups } := by
  unfold greenDropped
  generalize idx 32 = l
  induction l generalizing s with
  | nil => rfl
  | cons g l ih =>
    rw [List.foldl_cons, ih, dropGreen_frame]

/-- A group in use keeps its record, and another its record but for the flag (R41). -/
theorem greenDropped_groups (s : State) (g : Fin 32) : (greenDropped s).groups[g] =
    if live s g = true then s.groups[g] else { s.groups[g] with raised := false } := by
  have each := foldl_local dropGreen (fun s g => s.groups[g]) (fun s => s.tables) (fun s a b => dropGreen_other)
    (fun s a => by rw [dropGreen_frame])
    (fun s t a tables group => by simp only [dropGreen_self, live_congr tables, group]) (idx 32) (List.nodup_finRange 32) s g
  rw [if_pos (List.mem_finRange g)] at each
  exact each.trans (dropGreen_self s g)

/-- The plans validated, and PLAN_INVALID cleared where it no longer stands (R45, R77). -/
abbrev plansValidated (s : State) : State := refreshInvalid (validateAll s)

theorem plansValidated_frame (s : State) : plansValidated s = { s with
    tables := (validateAll s).tables, coll := (plansValidated s).coll
    eng := { s.eng with invalidRaised := (plansValidated s).eng.invalidRaised } } := by
  rw [plansValidated, refreshInvalid_frame]
  rfl

/-- Configuration closed, the types acting and the circuit map built (R15, R77). -/
def mapBuilt (s : State) : State :=
  { setPort s fun p => { p with configOpen := false } with acting := liveSet s, map := some (buildMap s) }

/-- What an accepted START does after the validation of the plans, up to the evaluation of the schedule (R77). -/
def begunFrom (s : State) : State :=
  dueTests (expectUnits (setMode (greenDropped (mapBuilt s)) fun j => { j with started := true }))

/-- An accepted START up to the evaluation of the schedule (R77). -/
def begun (s : State) : State := begunFrom (plansValidated s)

/-- The state of an accepted START in which START_FLASH is entered. -/
abbrev readied (s : State) : State := formResults true (begun s)

theorem startValidated_accepted (h : structuralErrors s = []) : startValidated s =
    ⟨enterMode (readied s) .startFlash .controller, .done, .errors (planEntries (plansValidated s))⟩ := by
  rw [startValidated, if_pos (by rw [h]; rfl)]
  rfl

/-- The bus at an accepted START (R107). -/
def expectedBus (s : State) : Bus := { s.bus with
  units := tab fun u => { s.bus.units[u] with state := if present s u then .expected else .unused }
  sinceRoll := 60, round := State.reset.bus.round }

/-- The cable records at an accepted START (R146). -/
def dueCable (s : State) : Cable :=
  { s.cable with circuits := tab fun c => { s.cable.circuits[c] with sinceTest := 65535 } }

theorem begunFrom_frame (s : State) : begunFrom s = { s with
    port := { s.port with configOpen := false }, acting := liveSet s, map := some (buildMap s)
    coll := (begunFrom s).coll, groups := (begunFrom s).groups, jm := { s.jm with started := true }
    bus := expectedBus s, cable := dueCable s } := by
  have frame := greenDropped_frame (mapBuilt s)
  unfold begunFrom
  generalize greenDropped (mapBuilt s) = d at frame ⊢
  rw [frame]
  rfl

theorem begunFrom_groups (s : State) (g : Fin 32) : (begunFrom s).groups[g] =
    if live s g = true then s.groups[g] else { s.groups[g] with raised := false } := by
  have dropped := greenDropped_groups (mapBuilt s) g
  unfold begunFrom
  generalize greenDropped (mapBuilt s) = d at dropped ⊢
  exact dropped

/-- The circuit map and the groups in use are not read from the plans. -/
theorem of_validateAll {t : State} (ht : t.tables = (validateAll s).tables) (hm : t.map = s.map) :
    buildMap t = buildMap s ∧ liveSet t = liveSet s ∧ present t = present s :=
  ⟨(buildMap_congr (b := validateAll s) ht hm).trans rfl, congrArg (fun f : Fin 32 → Bool => (idx 32).foldl
    (fun (acc : GroupSet) (g : Fin 32) => if f g then ins acc g else acc) 0) ((live_congr (b := validateAll s) ht).trans rfl),
    (present_congr (b := validateAll s) ht).trans rfl⟩

/-- What an accepted START has done in `b` to a state `s` before it evaluates the schedule (R15, R41, R45, R77, R107, R146). -/
structure Begun (s b : State) : Prop where
  tables : b.tables = (validateAll s).tables
  configOpen : b.port.configOpen = false
  identity : b.port.identity = s.port.identity
  acting : b.acting = liveSet s
  map : b.map = some (buildMap s)
  jm : b.jm = { s.jm with started := true }
  eng : b.eng = { s.eng with invalidRaised := b.eng.invalidRaised }
  bus : b.bus = expectedBus s
  cable : b.cable = dueCable s
  prov : b.prov = s.prov
  inputs : b.inputs = s.inputs
  clock : b.clock = s.clock
  mains : b.mains = s.mains
  sched : b.sched = s.sched
  latched : b.latched = s.latched
  clearRuns : b.clearRuns = s.clearRuns
  junctionRun : b.junctionRun = s.junctionRun
  groups : ∀ g : Fin 32, b.groups[g] = if live s g = true then s.groups[g] else { s.groups[g] with raised := false }

theorem begun_begun (s : State) : Begun s (begun s) := by
  have valid := plansValidated_frame s
  have frame := begunFrom_frame (plansValidated s)
  have dropped := begunFrom_groups (plansValidated s)
  unfold begun
  generalize plansValidated s = w at valid frame dropped ⊢
  have tables : w.tables = (validateAll s).tables := by rw [valid]
  have groups : w.groups = s.groups := by rw [valid]
  have used : live w = live s := live_congr (b := validateAll s) tables
  obtain ⟨map, acting, units⟩ := of_validateAll (s := s) (t := w) tables (by rw [valid])
  generalize begunFrom w = b at frame dropped ⊢
  constructor
  case tables => rw [frame, tables]
  case acting => rw [frame, acting]
  case map => rw [frame, map]
  case bus => rw [frame, expectedBus, expectedBus, units, valid]
  case groups =>
    intro g
    have record := dropped g
    rw [used, groups] at record
    exact record
  all_goals rw [frame, valid]
  case cable => rfl

theorem Begun.resting {b : State} (hb : Begun s b) (h : Resting s) : Resting b := by
  refine ⟨?_, ?_, ?_, ?_⟩
  · rw [hb.jm]; exact h.mode
  · rw [hb.jm]; exact h.reason
  · rw [hb.eng]; exact h.running
  · rw [hb.jm]; exact h.departure

/-- The first errors of the plans are read from the plans alone. -/
theorem planEntries_congr {a b : State} (h : a.tables.plan = b.tables.plan) : planEntries a = planEntries b := by
  simp only [planEntries, h]

/-- The plans are validated by the tables and the circuit map alone. -/
theorem validateAll_congr {a b : State} (h : a.tables = b.tables) (hm : a.map = b.map) :
    (validateAll a).tables = (validateAll b).tables := by
  have tables (x : State) : (validateAll x).tables = { x.tables with
      plan := tab fun p => if x.tables.plan[p].state = .empty then x.tables.plan[p] else validated x x.tables.plan[p] } := rfl
  rw [tables, tables, h]
  simp only [validated, planErrors_congr h hm]

end Begun

/-! ## START requested (R77, R180) -/

section StartRequest

variable {s : State}

theorem startUnfit_iff : startUnfit s = false ↔
    s.jm.mode = .dark ∧ (s.port.configOpen = true ∨ s.jm.reason = .restart) := by
  simp only [startUnfit, Bool.not_eq_false', Bool.and_eq_true, Bool.or_eq_true, decide_eq_true_eq]

theorem startReq_unfit (h : ¬ (s.jm.mode = .dark ∧ (s.port.configOpen = true ∨ s.jm.reason = .restart))) :
    startReq s = ⟨s, .badState, .none⟩ := by
  have unfit : startUnfit s = true := by rw [← Bool.not_eq_false, startUnfit_iff]; exact h
  exact checked_refuse (by rw [unfit]; rfl)

theorem startReq_blank (fit : startUnfit s = false) (h : effSlot s = 0) : startReq s = ⟨s, .blankIdentity, .none⟩ :=
  checked_refuse (by rw [fit, blankIdentity, h]; rfl)

theorem startReq_accepted (fit : startUnfit s = false) (named : effSlot s ≠ 0) (h : structuralErrors s = []) : startReq s =
    ⟨enterMode (readied s) .startFlash .controller, .done, .errors (planEntries (plansValidated s))⟩ := by
  rw [← startValidated_accepted h]
  exact checked_pass (by rw [fit, blankIdentity, decide_eq_false named]; rfl)

end StartRequest

/-! ## What an accepted START leaves at its entry (R77) -/

section Accepted

variable {x b v : State}

/-- What an accepted START of the state `x` has kept, set and evaluated in `v`, in which it enters START_FLASH. -/
structure Accepted (x v : State) : Prop where
  tables : v.tables = (validateAll x).tables
  configOpen : v.port.configOpen = false
  identity : v.port.identity = x.port.identity
  started : v.jm.started = true
  acting : v.acting = liveSet x
  map : v.map = some (buildMap x)
  bus : v.bus = expectedBus x
  cable : v.cable = dueCable x
  prov : v.prov = x.prov
  inputs : v.inputs = x.inputs
  clock : v.clock = x.clock
  mains : v.mains = x.mains
  sched : v.sched = { x.sched with
    mode := schedModeNow v, plan := schedPlanNow v, dim := schedDimNow v
    effPlan := x.sched.planOverride.getD (schedPlanNow v), effDim := x.sched.dimOverride.getD (schedDimNow v) }
  schedMode : v.jm.schedMode = v.sched.mode
  governing : v.eng.governing = v.sched.effPlan
  marks : ∀ g : Fin 32, marksOf v.groups[g] =
    if live x g = true then marksOf x.groups[g] else { marksOf x.groups[g] with raised := false }

theorem accepted (hb : Begun x b) (hv : Evaluated b v) : Accepted x v where
  tables := (tables_of_kept hv.kept).trans hb.tables
  configOpen := (configOpen_of_kept hv.kept).trans hb.configOpen
  identity := (identity_of_kept hv.kept).trans hb.identity
  started := (started_of_kept hv.kept).trans (congrArg ModeRec.started hb.jm)
  acting := (congrArg Kept.acting hv.kept).trans hb.acting
  map := (map_of_kept hv.kept).trans hb.map
  bus := by
    have rest : v.bus = { b.bus with queue := v.bus.queue } := bus_eq_of_kept_queue hv.kept rfl
    rw [rest, hv.queue, hb.bus]
  cable := (cable_of_kept hv.kept).trans hb.cable
  prov := (prov_of_kept hv.kept).trans hb.prov
  inputs := (inputs_of_kept hv.kept).trans hb.inputs
  clock := (clock_of_kept hv.kept).trans hb.clock
  mains := (mains_of_kept hv.kept).trans hb.mains
  sched := by
    obtain ⟨mode, plan, dim⟩ := schedResults_congr (tables_of_kept hv.kept) (clock_of_kept hv.kept)
    have formed : v.sched = formedSched b := sched_of_kept hv.kept
    rw [formed, formedSched, hb.sched, mode, plan, dim]
    rfl
  schedMode := (schedMode_of_kept hv.kept).trans (congrArg SchedRec.mode (sched_of_kept hv.kept)).symm
  governing := hv.governing.trans (congrArg SchedRec.effPlan (sched_of_kept hv.kept)).symm
  marks g := by
    refine (marks_of_kept hv.kept g).trans ((congrArg marksOf (hb.groups g)).trans ?_)
    split <;> rfl

/-- A state in which a request has been taken, as far as START reads it. -/
structure TakenFrom (s x : State) : Prop where
  tables : x.tables = s.tables
  map : x.map = s.map
  identity : x.port.identity = s.port.identity
  bus : x.bus = s.bus
  cable : x.cable = s.cable
  prov : x.prov = s.prov
  inputs : x.inputs = s.inputs
  clock : x.clock = s.clock
  mains : x.mains = s.mains
  sched : x.sched = s.sched
  marks : ∀ g : Fin 32, marksOf x.groups[g] = marksOf s.groups[g]

theorem takenFrom (kind tag : Byte) (s : State) : TakenFrom s (taken kind tag s) where
  tables := taken_tables ..
  map := taken_map ..
  identity := taken_identity ..
  bus := by
    have rest : (taken kind tag s).bus = { s.bus with queue := (taken kind tag s).bus.queue } :=
      bus_eq_of_kept_queue (kept_taken s kind tag) rfl
    have queue : (taken kind tag s).bus.queue = s.bus.queue := by
      rw [taken, setPort_bus, received, settle_queue, queue_of_held (held_heardRequest _)]
      rfl
    rw [rest, queue]
  cable := taken_cable ..
  prov := taken_prov ..
  inputs := taken_inputs ..
  clock := taken_clock ..
  mains := taken_mains ..
  sched := taken_sched ..
  marks := marks_of_kept (b := { s with
    port := { s.port with receiver := .hunting, inService := some (kind, tag) }, moment := .between }) (kept_taken s kind tag)

/-- An accepted START leaves of the state before the request what it leaves of the state in which the request is taken. -/
theorem Accepted.of_taken {s : State} (h : Accepted x v) (ht : TakenFrom s x) : Accepted s v where
  tables := h.tables.trans (validateAll_congr ht.tables ht.map)
  configOpen := h.configOpen
  identity := h.identity.trans ht.identity
  started := h.started
  acting := by rw [h.acting, liveSet, liveSet, live_congr ht.tables]
  map := by rw [h.map, buildMap_congr ht.tables ht.map]
  bus := by rw [h.bus, expectedBus, expectedBus, ht.bus, present_congr ht.tables]
  cable := by rw [h.cable, dueCable, dueCable, ht.cable]
  prov := h.prov.trans ht.prov
  inputs := h.inputs.trans ht.inputs
  clock := h.clock.trans ht.clock
  mains := h.mains.trans ht.mains
  sched := by
    have sched := h.sched
    rw [ht.sched] at sched
    exact sched
  schedMode := h.schedMode
  governing := h.governing
  marks g := by rw [h.marks, ht.marks, live_congr ht.tables]

theorem Named.of_begun {s : State} (h : Named b v) (hb : Begun x b) (hx : HandedOn s x) : Named { s with jm := { s.jm with started := true } } v where
  jm := h.jm.trans (by rw [hb.jm, hx.frame])
  eng := h.eng.trans (by rw [hb.eng, hx.frame])
  latched := h.latched.trans (hb.latched.trans (by rw [hx.frame]))
  clearRuns := h.clearRuns.trans (hb.clearRuns.trans (by rw [hx.frame]))
  junctionRun := h.junctionRun.trans (hb.junctionRun.trans (by rw [hx.frame]))
  groups g := by
    refine (h.groups g).trans (Eq.trans ?_ (hx.groups g))
    rw [hb.groups g]
    split <;> rfl

theorem planEntries_plansValidated {s : State} (ht : TakenFrom s x) : planEntries (plansValidated x) = planEntries (validateAll s) := by
  have frame := plansValidated_frame x
  generalize plansValidated x = w at frame ⊢
  exact planEntries_congr (congrArg Tables.plan ((congrArg State.tables frame).trans (validateAll_congr ht.tables ht.map)))

end Accepted

theorem accepted_readied (kind tag : Byte) (s : State) : Accepted s (readied (taken kind tag s)) :=
  (accepted (begun_begun _) (evaluated_formResults _)).of_taken (takenFrom kind tag s)

/-- In a lawful DARK the mode record, the engine, the demands, the flash runs and the groups stand as they were at START (R77). -/
theorem Resting.readied {s : State} (h : Resting s) (kind tag : Byte) :
    Named { s with jm := { heardJm s with started := true }, moment := .between } (readied (taken kind tag s)) := by
  have heard := h.taken_rests kind tag
  have rests : Resting (taken kind tag s) :=
    of_handedOn (s := { s with jm := heardJm s, moment := .between }) ⟨h.mode, h.reason, h.running, h.departure⟩ heard
  have hb := begun_begun (taken kind tag s)
  exact (hb.resting rests).named.of_begun hb heard

/-- Settles O11, by the checks of START and, for an accepted one, by what its stages leave up to the entry. -/
theorem startTaken : Obligations.StartTaken := by
  intro s tag hs
  have configOpen := taken_configOpen 0x05 tag s
  refine ⟨fun unfit => ?_, fun mode begins => ?_⟩
  · rw [← configOpen] at unfit
    exact congrArg Host.Outcome.next (serve_of hs (startReq_unfit unfit))
  have fit : startUnfit (taken 0x05 tag s) = false := startUnfit_iff.2 ⟨mode, by rw [configOpen]; exact begins⟩
  have entries : planEntries (plansValidated (taken 0x05 tag s)) = planEntries (validateAll s) := planEntries_plansValidated (takenFrom 0x05 tag s)
  refine ⟨fun blank => ?_, fun named errors => ?_, fun named sound => ?_⟩
  · exact congrArg Host.Outcome.next (serve_of hs (startReq_blank fit ((taken_effSlot ..).trans blank)))
  · have refused := startReq_structural fit (decide_eq_false (by rw [taken_effSlot]; exact named)) (by rw [taken_structuralErrors]; exact errors)
    rw [taken_structuralErrors, entries] at refused
    have frame := plansValidated_frame (taken 0x05 tag s)
    have tables : (validateAll (taken 0x05 tag s)).tables = (validateAll s).tables :=
      validateAll_congr (taken_tables ..) (taken_map ..)
    refine ⟨_, congrArg Host.Outcome.next (serve_of hs refused), (congrArg State.tables frame).trans tables, ?_⟩
    rw [← congrArg State.tables frame] at frame
    exact frame
  · have taking := startReq_accepted fit (by rw [taken_effSlot]; exact named) ((taken_structuralErrors 0x05 tag s).trans sound)
    rw [entries] at taking
    have left := accepted_readied 0x05 tag s
    have rest (h : Resting s) := h.readied 0x05 tag
    refine ⟨_, congrArg Host.Outcome.next (serve_of hs taking), left.tables, left.configOpen, left.started, left.map, ?_⟩
    generalize readied (taken 0x05 tag s) = v at left rest ⊢
    refine ⟨by rw [left.bus]; rfl, fun g => by rw [left.acting, mem_liveSet], fun k => by rw [left.bus, expectedBus, getElem_tab],
      by rw [left.bus]; rfl, fun c => by rw [left.cable, dueCable, getElem_tab], by rw [left.cable]; rfl, left.prov, left.inputs,
      left.clock, left.mains, left.identity, left.sched, left.schedMode, left.governing, left.marks, fun lawful dark reason => ?_⟩
    obtain ⟨jm, eng, latched, clearRuns, junctionRun, groups⟩ := rest (lawful.toResting dark reason)
    rw [left.schedMode] at jm
    rw [left.governing] at eng
    exact ⟨jm, eng, latched, clearRuns, junctionRun, fun g => eq_of_unmarked (groups g)⟩

end Sys2Proof.Machine

namespace Sys2Proof.Machine

open Sys2Proof

variable {s : State}

/-! ## The faults of the mains supervisor (R94 to R96) -/

theorem freqRaiseDue_iff : freqRaiseDue s = true ↔ s.mains.freqRaised = false ∧ 25 ≤ s.mains.outOfBand := by
  simp [freqRaiseDue]

theorem freqClearDue_iff : freqClearDue s = true ↔ s.mains.freqRaised = true ∧ 250 ≤ s.mains.inBand := by
  simp [freqClearDue]

theorem interruptionClearDue_iff : interruptionClearDue s = true ↔
    s.mains.interRaised = true ∧ ∃ n : Nat, s.mains.sinceGap = some n ∧ 50 ≤ n := by
  unfold interruptionClearDue
  cases s.mains.sinceGap <;> simp

theorem takeFreqRaise_due (h : freqRaiseDue s = true) : takeFreqRaise s = raise { s with mains := { s.mains with
    freqRaised := true, timebase := .substitute
    subPhase := if s.mains.timebase = .locked then 0 else s.mains.subPhase } } .mainsFrequency 0 .absent := if_pos h

theorem takeFreqClear_due (h : freqClearDue s = true) : takeFreqClear s = clear { s with mains := { s.mains with
    freqRaised := false, timebase := if s.mains.gap = true then .substitute else .locked } } .mainsFrequency 0 := if_pos h

theorem takeInterruption_gap (h : s.mains.gap = true) : takeInterruption s =
    raise { s with mains := { s.mains with interRaised := true } } .mainsInterruption 0 .absent := if_pos h

theorem takeInterruptionClear_due (h : interruptionClearDue s = true) : takeInterruptionClear s =
    clear { s with mains := { s.mains with interRaised := false, sinceGap := none } } .mainsInterruption 0 := if_pos h

/-- Settles O28: each command's moment is due by the counts named, and takes the record as written. -/
theorem mainsFaults : Obligations.MainsFaults := by
  refine fun s => ⟨fun out clear => ?_, fun band raised => ?_, fun gap => ?_, fun n raised counted due => ?_⟩
  · exact congrArg (fun t => Host.Outcome.next (finish t)) (takeFreqRaise_due (freqRaiseDue_iff.2 ⟨clear, out⟩))
  · exact congrArg (fun t => Host.Outcome.next (finish t)) (takeFreqClear_due (freqClearDue_iff.2 ⟨raised, band⟩))
  · exact congrArg (fun t => Host.Outcome.next (finish t)) (takeInterruption_gap gap)
  · exact congrArg (fun t => Host.Outcome.next (finish t))
      (takeInterruptionClear_due (interruptionClearDue_iff.2 ⟨raised, n, counted, due⟩))

end Sys2Proof.Machine

namespace Sys2Proof.Machine

open Sys2Proof

variable {s : State}

/-! ## Overrides (R104, R105) -/

/-- A state with its plan override set and the effective governing plan formed from it (R104). -/
def planOverridden (s : State) (o : Option (Fin 8)) : State :=
  { s with sched := { s.sched with planOverride := o, effPlan := o.getD s.sched.plan } }

/-- A governing plan as before is not handed on. -/
theorem handPlan_same {o : Option (Fin 8)} (h : o.getD s.sched.plan = s.sched.effPlan) :
    handPlan false { s with sched := { s.sched with planOverride := o } } = planOverridden s o := by
  unfold handPlan planOverridden
  simp [h]

/-- A new governing plan is named to the engine, and to the mode machine as the NO_PLAN trigger (R66, R84). -/
theorem handPlan_changed {o : Option (Fin 8)} (h : o.getD s.sched.plan ≠ s.sched.effPlan) :
    handPlan false { s with sched := { s.sched with planOverride := o } } =
      noPlanExit (nameGoverning (planOverridden s o) (o.getD s.sched.plan)) := by
  unfold handPlan planOverridden
  simp [h]

/-- What handing on the governing plan after an override makes of a request's state, in the terms of the state before the request (R66, R104). -/
theorem handPlan_taken (kind tag : Byte) (s : State) (o : Option (Fin 8)) (k : Fin 8) (hk : o.getD s.sched.plan = k) :
    let u := handPlan false { taken kind tag s with sched := { (taken kind tag s).sched with planOverride := o } }
    u.sched = { s.sched with planOverride := o, effPlan := k } ∧
    (k ≠ s.sched.effPlan → u.eng.governing = k ∧
      u = noPlanExit (nameGoverning { taken kind tag s with sched := u.sched } k)) ∧
    (k = s.sched.effPlan → u = { taken kind tag s with sched := u.sched }) := by
  subst hk
  intro u
  have sched : u.sched = { s.sched with planOverride := o, effPlan := o.getD s.sched.plan } := by
    rw [sched_eq_of_kept (kept_handPlan _ false), taken_sched]
  have overridden : planOverridden (taken kind tag s) o = { taken kind tag s with sched := u.sched } := by
    rw [planOverridden, sched, taken_sched]
  refine ⟨sched, fun changed => ?_, fun same => ?_⟩
  · have handed : u = noPlanExit (nameGoverning { taken kind tag s with sched := u.sched } (o.getD s.sched.plan)) := by
      rw [← overridden, ← taken_sched kind tag s]
      exact handPlan_changed (by rw [taken_sched]; exact changed)
    refine ⟨?_, handed⟩
    rw [handed, noPlanExit_governing, nameGoverning_frame]
  · rw [← overridden]
    exact handPlan_same (by rw [taken_sched]; exact same)

theorem setDimReq_coded {code : Nat} {t : Tap} (h : Tap.ofCode code = some t) : setDimReq code s =
    ⟨{ s with sched := { s.sched with dimOverride := some t, effDim := t } }, .done, .none⟩ := by
  rw [setDimReq, h]; rfl

theorem setDimReq_uncoded {code : Nat} (h : Tap.ofCode code = none) : setDimReq code s = ⟨s, .badValue, .none⟩ := by
  rw [setDimReq, h]; rfl

theorem releaseDimReq_eq (s : State) : releaseDimReq s =
    ⟨{ s with sched := { s.sched with dimOverride := none, effDim := s.sched.dim } }, .done, .none⟩ := rfl

/-- Settles O16: each request sets its override, and the effective values are formed from it. -/
theorem overridesSet : Obligations.OverridesSet := by
  refine ⟨fun s tag p hs => ⟨fun out => ?_, fun k hk => ?_, ?_⟩, fun s tag code hs => ⟨fun t ht => ?_, fun out => ?_, ?_⟩⟩
  · exact congrArg Host.Outcome.next (serve_of hs (by rw [selectPlanReq, out]; rfl))
  · exact ⟨_, congrArg Host.Outcome.next (serve_of hs (by rw [selectPlanReq, hk]; rfl)), handPlan_taken 0x08 tag s (some k) k rfl⟩
  · exact ⟨_, congrArg Host.Outcome.next (serve_of hs (by rw [releasePlanReq]; rfl)), handPlan_taken 0x09 tag s none _ rfl⟩
  · exact congrArg Host.Outcome.next (serve_of hs (by rw [setDimReq_coded ht, taken_sched]))
  · exact congrArg Host.Outcome.next (serve_of hs (setDimReq_uncoded out))
  · exact congrArg Host.Outcome.next (serve_of hs (by rw [releaseDimReq_eq, taken_sched]))

end Sys2Proof.Machine

namespace Sys2Proof.Machine

open Sys2Proof

/-! ## A time set while a departure is due (R64, R82, R101) -/

/-- The big-step mark that a command leaves in the engine record. -/
def bigStepOf (o : Out) : Option Bool :=
  match o with
  | .next t => some t.eng.bigStep
  | .fault _ | .refused _ => none

/-- What O26 says SET_TIME to 00:00:03 leaves of a state `x` of `departing` with the request taken, before the schedule is evaluated: a big step is
marked. -/
def bigStepMarked (x : State) : State :=
  { x with
    clock := { departing.clock with weekday := 0, ms := 3000, unset := false }
    eng := { x.eng with bigStep := true, resync := x.eng.resync || decide (0 < departing.tables.plan[(1 : Fin 8)].cycle) } }

/-- The request finds the engine idle: the departure has completed as the request was received, and no step is marked. -/
theorem setTime_departing : bigStepOf (exec (.setTime 1 0 3000) departing) = some false := by decide +kernel

theorem answered_bigStepMarked :
    bigStepOf (.next (answered 0x1E 1 (evaluate (bigStepMarked (taken 0x1E 1 departing))) .done .none)) = some true := by decide +kernel

/-- Refutes O26: that the engine runs a plan is said there of the state before the request, and the model asks it of the state in which the request is
taken. From `departing` the departure completes between the two, so that the step of 3 s marks nothing. -/
theorem not_clockSet : ¬ Obligations.ClockSet := by
  intro h
  obtain ⟨-, taking, -⟩ := h
  obtain ⟨t, u, v, left, hu, -, running, -⟩ := (taking departing 1 0 3000 rfl).2 (by decide) (by decide)
  have marked : v = bigStepMarked (taken 0x1E 1 departing) := by
    have big : 2000 < timeStep departing 0 3000 := by decide +kernel
    rw [(running 1 rfl).1 (.inr big), hu]
    generalize taken 0x1E 1 departing = x
    rfl
  have same := congrArg bigStepOf left
  rw [marked, answered_bigStepMarked, setTime_departing] at same
  cases same

end Sys2Proof.Machine

namespace Sys2Proof.Machine

open Sys2Proof

variable {s : State}

/-! ## The entry that came last (R103) -/

/-- The least of the values seen, none before the first. -/
def keepLeast (p : Nat → Bool) (f : Nat → Nat) (best : Option Nat) (d : Nat) : Option Nat :=
  if p d then
    match best with
    | some b => some (min b (f d))
    | none => some (f d)
  else best

theorem foldl_keepLeast_some (p : Nat → Bool) (f : Nat → Nat) (l : List Nat) (b : Nat) :
    l.foldl (keepLeast p f) (some b) = some (((l.filter p).map f).foldl min b) := by
  induction l generalizing b with
  | nil => rfl
  | cons d l ih =>
    rw [List.foldl_cons]
    cases h : p d <;> simp [keepLeast, h, ih]

/-- A fold that keeps the least gives the least of what it sees. -/
theorem foldl_keepLeast (p : Nat → Bool) (f : Nat → Nat) (l : List Nat) :
    l.foldl (keepLeast p f) none = ((l.filter p).map f).min? := by
  induction l with
  | nil => rfl
  | cons d l ih =>
    rw [List.foldl_cons]
    cases h : p d with
    | false => simpa [keepLeast, h] using ih
    | true =>
      rw [List.filter_cons_of_pos h, List.map_cons, List.min?_cons', ← foldl_keepLeast_some]
      simp [keepLeast, h]

theorem age_eq (s : State) (e : SchedEntry) : age s e =
    (((List.range 7).filter fun d => mem e.weekdays d).map (ageOn s e)).min? := foldl_keepLeast ..

/-- Bit 7 of a day set takes part in nothing. -/
theorem mem_weekdays (e : SchedEntry) {d : Nat} (h : d < 7) : mem e.weekdays d = mem e.days d := by
  simp [SchedEntry.weekdays, mem, h]

/-- The ages an entry is judged by are those on the weekdays of its set. -/
theorem mem_ages {e : SchedEntry} {a : Nat} : a ∈ ((List.range 7).filter fun d => mem e.weekdays d).map (ageOn s e) ↔
    ∃ d : Nat, d < 7 ∧ mem e.days d = true ∧ ageOn s e d = a := by
  simp only [List.mem_map, List.mem_filter, List.mem_range, and_assoc]
  exact exists_congr fun d => and_congr_right fun hd => by rw [mem_weekdays e hd]

theorem age_eq_some {e : SchedEntry} {a : Nat} : age s e = some a ↔
    (∃ d : Nat, d < 7 ∧ mem e.days d = true ∧ ageOn s e d = a) ∧
      ∀ d : Nat, d < 7 → mem e.days d = true → a ≤ ageOn s e d := by
  rw [age_eq, List.min?_eq_some_iff, mem_ages]
  refine and_congr_right fun _ => ⟨fun h d hd on => h _ (mem_ages.2 ⟨d, hd, on, rfl⟩), fun h b hb => ?_⟩
  obtain ⟨d, hd, on, rfl⟩ := mem_ages.1 hb
  exact h d hd on

theorem age_eq_none {e : SchedEntry} : age s e = none ↔ ∀ d : Nat, d < 7 → mem e.days d = false := by
  rw [age_eq, List.min?_eq_none_iff, List.eq_nil_iff_forall_not_mem]
  simp only [mem_ages]
  refine ⟨fun h d hd => ?_, fun h a ⟨d, hd, on, _⟩ => ?_⟩
  · exact Bool.eq_false_iff.2 fun on => h _ ⟨d, hd, on, rfl⟩
  · rw [h d hd] at on; cases on

/-- A fold whose steps leave what it starts with leaves it. -/
theorem foldl_stays {α β : Type} (f : β → α → β) (b : β) (l : List α) (h : ∀ a ∈ l, f b a = b) : l.foldl f b = b := by
  induction l with
  | nil => rfl
  | cons a l ih => rw [List.foldl_cons, h a List.mem_cons_self, ih fun a' ha' => h a' (List.mem_cons_of_mem _ ha')]

/-- What looking at one more entry makes of the latest found (R103). -/
def keepLatest (s : State) (cls : SchedEntry → Bool) (best : Option (SchedEntry × Nat)) (e : SchedEntry) : Option (SchedEntry × Nat) :=
  if cls e then
    match age s e, best with
    | some a, some (_, b) => if a < b then some (e, a) else best
    | some a, none => some (e, a)
    | none, _ => best
  else best

theorem latest_eq (s : State) (cls : SchedEntry → Bool) : latest s cls =
    (s.tables.sched.toList.foldl (keepLatest s cls) none).map Prod.fst := rfl

section Search

variable {cls : SchedEntry → Bool} {l : List SchedEntry} {best : Option (SchedEntry × Nat)} {e x : SchedEntry} {a b : Nat}

/-- An entry not of the class, or not in use, is passed over. -/
theorem keepLatest_skip (h : cls e = true → age s e = none) : keepLatest s cls best e = best := by
  unfold keepLatest
  split
  · rw [h ‹_›]
  · rfl

/-- An entry that came since all found before it is taken. -/
theorem keepLatest_take (class_e : cls e = true) (aged : age s e = some a) (h : ∀ y ∈ best, a < y.2) :
    keepLatest s cls best e = some (e, a) := by
  unfold keepLatest
  rw [if_pos class_e, aged]
  cases best with
  | none => rfl
  | some y => exact if_pos (h y rfl)

/-- An entry that did not come since the one found leaves it. -/
theorem keepLatest_keep (class_e : cls e = true) (aged : age s e = some b) (h : a ≤ b) :
    keepLatest s cls (some (x, a)) e = some (x, a) := by
  unfold keepLatest
  rw [if_pos class_e, aged]
  exact if_neg (Nat.not_lt.2 h)

/-- An entry is looked at in one of three ways. -/
theorem keepLatest_cases (s : State) (cls : SchedEntry → Bool) (best : Option (SchedEntry × Nat)) (e : SchedEntry) :
    keepLatest s cls best e = best ∨ ∃ b, cls e = true ∧ age s e = some b ∧ keepLatest s cls best e = some (e, b) := by
  unfold keepLatest
  repeat' split
  · exact .inr ⟨_, ‹_›, ‹_›, rfl⟩
  · exact .inl rfl
  · exact .inr ⟨_, ‹_›, ‹_›, rfl⟩
  · exact .inl rfl
  · exact .inl rfl

/-- Entries that came before a moment leave the search with nothing that came since. -/
theorem keepLatest_before (h : ∀ e ∈ l, ∀ b, cls e = true → age s e = some b → a < b) (hb : ∀ y ∈ best, a < y.2) :
    ∀ y ∈ l.foldl (keepLatest s cls) best, a < y.2 := by
  induction l generalizing best with
  | nil => exact hb
  | cons e l ih =>
    refine ih (fun e' he' => h e' (List.mem_cons_of_mem _ he')) fun y hy => ?_
    rcases keepLatest_cases s cls best e with same | ⟨b, class_e, aged, took⟩
    · exact hb y (by rwa [same] at hy)
    · rw [took] at hy
      obtain rfl := Option.mem_some.1 hy
      exact h e List.mem_cons_self b class_e aged

/-- The entry found stays while no other entry came since. -/
theorem keepLatest_after (h : ∀ e ∈ l, ∀ b, cls e = true → age s e = some b → a ≤ b) :
    l.foldl (keepLatest s cls) (some (x, a)) = some (x, a) := by
  refine foldl_stays _ _ l fun e he => ?_
  by_cases class_e : cls e = true
  · cases aged : age s e with
    | none => exact keepLatest_skip fun _ => aged
    | some b => exact keepLatest_keep class_e aged (h e he b class_e aged)
  · exact keepLatest_skip fun c => absurd c class_e

end Search

/-- Entry `i` is of the class of actions `p` and came last of its entries, the lower-numbered counting of two that came at one moment (R102, R103). -/
def CameLast (s : State) (p : Nat → Prop) (i : Fin 48) : Prop :=
  p s.tables.sched[i].action ∧ ∃ d : Nat, d < 7 ∧ mem s.tables.sched[i].days d = true ∧
    ∀ (j : Fin 48) (d' : Nat), p s.tables.sched[j].action → d' < 7 → mem s.tables.sched[j].days d' = true →
      ageOn s s.tables.sched[i] d < ageOn s s.tables.sched[j] d' ∨
        (ageOn s s.tables.sched[i] d = ageOn s s.tables.sched[j] d' ∧ i ≤ j)

section Class

variable {cls : SchedEntry → Bool} {p : Nat → Prop} (hc : ∀ e, cls e = true ↔ p e.action)

include hc

/-- The search finds the entry of the class that came last (R103). -/
theorem latest_of_cameLast {i : Fin 48} (h : CameLast s p i) : latest s cls = some s.tables.sched[i] := by
  obtain ⟨class_i, d, hd, on, last⟩ := h
  have aged : age s s.tables.sched[i] = some (ageOn s s.tables.sched[i] d) :=
    age_eq_some.2 ⟨⟨d, hd, on, rfl⟩, fun d' hd' on' => (last i d' class_i hd' on').elim Nat.le_of_lt fun e => e.1.le⟩
  have others (j : Fin 48) (b : Nat) (class_j : cls s.tables.sched[j] = true) (hb : age s s.tables.sched[j] = some b) :
      ageOn s s.tables.sched[i] d < b ∨ (ageOn s s.tables.sched[i] d = b ∧ i ≤ j) := by
    obtain ⟨⟨d', hd', on', rfl⟩, -⟩ := age_eq_some.1 hb
    exact last j d' ((hc _).1 class_j) hd' on'
  have len : i.val < s.tables.sched.toList.length := by simp
  have parts : s.tables.sched.toList =
      s.tables.sched.toList.take i ++ s.tables.sched[i] :: s.tables.sched.toList.drop (i + 1) := by
    have here : s.tables.sched[i] = s.tables.sched.toList[i.val] := by simp
    rw [here, List.getElem_cons_drop, List.take_append_drop]
  have before : ∀ y ∈ (s.tables.sched.toList.take i).foldl (keepLatest s cls) none, ageOn s s.tables.sched[i] d < y.2 := by
    refine keepLatest_before (fun e he b class_e hb => ?_) (by simp)
    obtain ⟨j, hj, rfl⟩ := List.mem_take_iff_getElem.1 he
    have lt : j < i.val := by omega
    simp only [Vector.getElem_toList] at class_e hb
    rcases others ⟨j, by omega⟩ b class_e hb with h | ⟨-, h⟩
    · exact h
    · exact absurd h (by rw [Fin.le_def]; exact Nat.not_le.2 lt)
  rw [latest_eq, parts, List.foldl_append, List.foldl_cons, keepLatest_take ((hc _).2 class_i) aged before, keepLatest_after]
  · rfl
  · intro e he b class_e hb
    obtain ⟨j, hj, rfl⟩ := List.mem_iff_getElem.1 (List.mem_of_mem_drop he)
    simp only [Vector.getElem_toList] at class_e hb
    rcases others ⟨j, by simpa using hj⟩ b class_e hb with h | ⟨h, -⟩ <;> omega

/-- With no entry of the class in use the search finds none (R103). -/
theorem latest_eq_none (h : ∀ (i : Fin 48) (d : Nat), d < 7 → p s.tables.sched[i].action → mem s.tables.sched[i].days d = false) :
    latest s cls = none := by
  rw [latest_eq, foldl_stays]
  · rfl
  · intro e he
    obtain ⟨j, hj, rfl⟩ := List.mem_iff_getElem.1 he
    have lt : j < 48 := by simpa using hj
    simp only [Vector.getElem_toList]
    exact keepLatest_skip fun class_e => age_eq_none.2 fun d hd => h ⟨j, lt⟩ d hd ((hc _).1 class_e)

end Class

theorem modeClass_iff (e : SchedEntry) : modeClass e = true ↔ e.action ≤ 2 := by simp [modeClass]

theorem planClass_iff (e : SchedEntry) : planClass e = true ↔ e.action = 0 := by simp [planClass]

theorem dimClass_iff (e : SchedEntry) : dimClass e = true ↔ e.action = 3 ∨ e.action = 4 := by simp [dimClass]

theorem schedModeNow_set (h : s.clock.unset = false) :
    schedModeNow s = match latest s modeClass with | some e => actionMode e.action | none => .plan := by
  unfold schedModeNow
  exact if_neg (by simp [h])

theorem schedPlanNow_set (h : s.clock.unset = false) : schedPlanNow s =
    match latest s planClass with | some e => (ofNum 8 e.plan).getD (fallback s) | none => defaultPlan s := by
  unfold schedPlanNow
  exact if_neg (by simp [h])

theorem schedDimNow_set (h : s.clock.unset = false) : schedDimNow s =
    match latest s dimClass with | some e => if e.action = 3 then .dim else .bright | none => .bright := by
  unfold schedDimNow
  exact if_neg (by simp [h])

/-- Settles O45: the search of each class finds the entry that came last, or none where none is in use. -/
theorem scheduleEvaluated : Obligations.ScheduleEvaluated := by
  intro s ago last hago hlast
  obtain rfl : ago = ageOn s := funext fun e => funext fun d => hago e d
  have came {p : Nat → Prop} {i : Fin 48} (h : last p i) : CameLast s p i := (hlast p i).1 h
  refine ⟨fun unset => by simp [schedModeNow, schedPlanNow, schedDimNow, unset], fun set => ?_⟩
  rw [schedModeNow_set set, schedPlanNow_set set, schedDimNow_set set]
  refine ⟨fun i h => ?_, fun i p h hp => ?_, fun i h out => ?_, fun i h => ?_, fun h => ?_, fun h => ⟨fun p hp => ?_, fun out => ?_⟩,
    fun h => ?_⟩
  · rw [latest_of_cameLast modeClass_iff (came h)]; rfl
  · rw [latest_of_cameLast planClass_iff (came h)]
    dsimp only
    rw [ofNum_eq_some.2 hp]; rfl
  · rw [latest_of_cameLast planClass_iff (came h)]
    dsimp only
    rw [out]; rfl
  · rw [latest_of_cameLast dimClass_iff (came h)]
  · rw [latest_eq_none (p := (· ≤ 2)) modeClass_iff h]
  · rw [latest_eq_none (p := (· = 0)) planClass_iff h, defaultPlan, ofNum_eq_some.2 hp]; rfl
  · rw [latest_eq_none (p := (· = 0)) planClass_iff h, defaultPlan, out]; rfl
  · rw [latest_eq_none (p := fun a => a = 3 ∨ a = 4) dimClass_iff h]

end Sys2Proof.Machine

namespace Sys2Proof.Machine

open Sys2Proof

variable {s : State}

/-! ## Midnight (R98) -/

theorem takeMidnight_early (h : s.clock.ms < 86400000) : takeMidnight s = s := if_neg (Nat.not_le.2 h)

/-- The clock a day on: at 86,400,000 ms the weekday and the day counter advance (R98). -/
def dayOn (c : Clock) : Clock := { c with ms := c.ms - 86400000, weekday := (c.weekday + 1) % 7, day := (c.day + 1) % 65536 }

theorem rolled_eq (c : Clock) : rolled c = if c.ms < 86400000 then c else dayOn c := by
  unfold rolled
  by_cases h : c.ms < 86400000
  · rw [if_neg (Nat.not_le.2 h), if_pos h]
  · rw [if_pos (Nat.not_lt.1 h), if_neg h]; rfl

/-- The rollover marked for an engine that runs a plan, with resync where that plan is coordinated (R64, R65). -/
def rolloverMarked (s : State) : Engine :=
  match s.eng.running with
  | none => s.eng
  | some p => { s.eng with rollover := true, resync := s.eng.resync || decide (0 < s.tables.plan[p].cycle) }

theorem takeMidnight_due (h : 86400000 ≤ s.clock.ms) :
    takeMidnight s = { s with clock := dayOn s.clock, eng := rolloverMarked s } := by
  rw [takeMidnight, dayMs, if_pos h]
  unfold reportRollover runsCoordinated rolloverMarked
  cases hr : s.eng.running with
  | none =>
    rw [if_pos (by rw [setClock_eng, hr]; rfl)]
    rfl
  | some p =>
    rw [if_neg (by rw [setClock_eng, hr]; exact Bool.false_ne_true), setClock_eng, hr]
    rfl

/-! ## The schedule evaluated (R103) -/

/-- A schedule mode as before is not handed on. -/
def modeHanded (s : State) : State := if schedModeNow s = s.sched.mode then withResults s else modeNamed s

/-- A governing plan as before is not handed on. -/
def planHanded (s : State) : State :=
  if effPlanNow s = s.sched.effPlan then modeHanded s
  else noPlanExit (nameGoverning { modeHanded s with sched := { (modeHanded s).sched with effPlan := effPlanNow s } } (effPlanNow s))

theorem modeHanded_sched (s : State) : (modeHanded s).sched = (withResults s).sched := by
  unfold modeHanded
  split
  · rfl
  · exact modeNamed_sched s

/-- Evaluation takes its results in the order of R103: the schedule mode, the governing plan, the dim demand. -/
theorem evaluate_eq (s : State) : evaluate s =
    { planHanded s with sched := { (planHanded s).sched with effDim := s.sched.dimOverride.getD (schedDimNow s) } } := by
  have mode : formResults false s = handDim (handPlan false (modeHanded s)) := by
    unfold formResults modeHanded
    dsimp only
    by_cases h : schedModeNow s = s.sched.mode
    · rw [if_neg (by simp [h]), if_pos h]
    · rw [if_pos (by simp [h]), if_neg h]
  have plan : handPlan false (modeHanded s) = planHanded s := by
    unfold handPlan planHanded
    rw [modeHanded_sched]
    by_cases h : effPlanNow s = s.sched.effPlan
    · rw [if_neg (by simp [h]), if_pos h]
    · rw [if_pos (by simp [h]), if_neg h]
  have dim : (planHanded s).sched.dimOverride.getD (planHanded s).sched.dim = s.sched.dimOverride.getD (schedDimNow s) := by
    rw [← plan, sched_eq_of_kept (kept_handPlan _ false), modeHanded_sched]
  rw [evaluate, mode, plan, handDim, dim]

/-- An evaluation leaves the results formed at the time it is made, and what they are formed from. -/
theorem evaluate_fields (s : State) : (evaluate s).clock = s.clock ∧ (evaluate s).tables = s.tables ∧ (evaluate s).mains = s.mains ∧
    (evaluate s).sched = formedSched s :=
  ⟨clock_eq_of_kept (kept_evaluate s), tables_eq_of_kept (kept_evaluate s), mains_eq_of_kept (kept_evaluate s),
    sched_eq_of_kept (kept_evaluate s)⟩

/-! ## The clock's advance (R98, R99) -/

/-- A minute boundary is reached or passed. -/
theorem minute_crossed {ms n : Nat} : ms / 60000 < (ms + n) / 60000 ↔ ∃ k : Nat, ms < 60000 * k ∧ 60000 * k ≤ ms + n :=
  ⟨fun h => ⟨(ms + n) / 60000, by omega, by omega⟩, fun ⟨k, h, h'⟩ => by omega⟩

/-- The clock's milliseconds added at once, with the rollover they reach. -/
def clockAdded (s : State) (n : Nat) : State := takeMidnight { s with moment := .between, clock := { s.clock with ms := s.clock.ms + n } }

theorem advanceClock_crossed {n : Nat} (h : ∃ k : Nat, s.clock.ms < 60000 * k ∧ 60000 * k ≤ s.clock.ms + n) :
    advanceClock s n = evaluate (clockAdded s n) := if_pos (decide_eq_true (minute_crossed.2 h))

theorem advanceClock_within {n : Nat} (h : ∀ k : Nat, s.clock.ms < 60000 * k → s.clock.ms + n < 60000 * k) :
    advanceClock s n = clockAdded s n :=
  if_neg fun c => by
    obtain ⟨k, before, after⟩ := minute_crossed.1 (of_decide_eq_true c)
    exact absurd (h k before) (Nat.not_lt.2 after)

theorem advanceClock_fields (s : State) (n : Nat) : (advanceClock s n).clock = rolled { s.clock with ms := s.clock.ms + n } ∧
    (advanceClock s n).tables = s.tables ∧ (advanceClock s n).mains = s.mains := by
  obtain ⟨r, m, kept⟩ := kept_advanceClock s n
  exact ⟨clock_eq_of_kept kept, tables_eq_of_kept kept, mains_eq_of_kept kept⟩

theorem clockAdded_moment (s : State) (n : Nat) : (clockAdded s n).moment = .between :=
  moment_eq_of_kept (kept_takeMidnight _)

theorem takeCrystalMs_mains (h : effSource s = .mains) : takeCrystalMs s = s := if_neg (by rw [h]; decide)

theorem takeCrystalMs_crystal (h : effSource s = .crystal) : takeCrystalMs s =
    advanceClock { s with clock := { s.clock with acc := (crystalStep s.clock.acc s.clock.trim).2 } }
      (crystalStep s.clock.acc s.clock.trim).1 := if_pos h

/-- Settles O44: a millisecond and a window start add to the clock by one advance, and an advance and MINUTE_BOUNDARY evaluate the schedule by one
evaluation. -/
theorem clockAdvances : Obligations.ClockAdvances := by
  refine ⟨fun s => ⟨fun mains => ?_, fun n a crystal step => ?_, fun early => ?_, fun due => ?_, ?_, ?_⟩, fun s n => ?_, fun s crystal => ?_⟩
  · exact congrArg (fun t => Host.Outcome.next (finish t)) (takeCrystalMs_mains mains)
  · have taken := takeCrystalMs_crystal crystal
    rw [show crystalStep s.clock.acc s.clock.trim = (n, a) from step.symm] at taken
    obtain ⟨clock, tables, mains⟩ := advanceClock_fields { s with clock := { s.clock with acc := a } } n
    refine ⟨finish (takeCrystalMs s), rfl, ?_⟩
    rw [finish_clock, finish_tables, finish_mains, taken]
    exact ⟨clock.trans (rolled_eq _), tables, mains⟩
  · exact congrArg (fun t => Host.Outcome.next (finish t)) (takeMidnight_early early)
  · refine ⟨_, congrArg (fun t => Host.Outcome.next (finish t)) (takeMidnight_due due), rfl, fun runs => ?_⟩
    obtain ⟨p, hp⟩ := Option.ne_none_iff_exists'.1 runs
    simp only [rolloverMarked, hp]
  · obtain ⟨mode, plan, dim⟩ := schedResults_congr (a := between s) (b := s) rfl rfl
    refine ⟨withResults (between s), modeHanded (between s), planHanded (between s), ?_, ?_, ?_, ?_⟩
    · rw [withResults, mode, plan, dim]; rfl
    · rw [modeHanded, mode]; rfl
    · rw [planHanded, effPlanNow, plan]; rfl
    · exact congrArg (fun t => Host.Outcome.next (finish t)) ((evaluate_eq (between s)).trans (by rw [dim]; rfl))
  · obtain ⟨mode, plan, dim⟩ := schedResults_congr (a := between s) (b := s) rfl rfl
    obtain ⟨clock, tables, mains, sched⟩ := evaluate_fields (between s)
    refine ⟨finish (evaluate (between s)), rfl, ?_⟩
    rw [finish_clock, finish_tables, finish_mains, finish_sched, clock, tables, mains, sched, formedSched, mode, plan, dim]
    exact ⟨rfl, rfl, rfl, rfl, rfl, rfl, rfl, rfl, rfl, rfl⟩
  · refine ⟨_, clockAdded s n, rfl, takeMidnight_early, takeMidnight_due, fun crossed => ⟨advanceClock_crossed crossed, ?_⟩,
      advanceClock_within⟩
    have same : between (clockAdded s n) = clockAdded s n := by rw [between, ← clockAdded_moment s n]
    exact congrArg (fun t => Host.Outcome.next (finish (evaluate t))) same
  · refine congrArg (fun t => Host.Outcome.next (finish t)) ((takeCrystalMs_crystal crystal).trans ?_)
    unfold crystalStep
    dsimp only
    repeat' split
    all_goals rfl

end Sys2Proof.Machine

namespace Sys2Proof.Machine

open Sys2Proof

variable {s : State}

/-! ## The timers advanced by a pulse (R21, R50, R54, R74, R92, R146, R153) -/

/-- The engine record after a pulse's advance (R54). -/
def advancedEng (e : Engine) : Engine :=
  if e.stageOn then { e with
    minElapsed := min 65535 (e.minElapsed + 1), maxElapsed := e.maxElapsed.map fun n => min 65535 (n + 1) }
  else e

/-- The mode record after a pulse's advance (R74, R87). -/
def advancedJm (j : ModeRec) : ModeRec := { j with
  timer := if j.timerFresh then j.timer else min 65535 (j.timer + 1), timerFresh := false
  silence := if j.silenceFresh then j.silence else min 65535 (j.silence + 1), silenceFresh := false }

theorem advanceEngine_eq (s : State) : advanceEngine s = { s with eng := advancedEng s.eng } := by
  unfold advanceEngine advancedEng
  split <;> rfl

theorem advanceTimers_eq (s : State) : advanceTimers s = { s with
    groups := tab fun g => advanceGroup s.groups[g], junctionRun := advanceRun s s.junctionRun
    clearRuns := tab fun g => s.clearRuns[g].map (advanceRun s), jm := advancedJm s.jm, eng := advancedEng s.eng
    inputs := (advanceInputs s).inputs, cable := (advanceCable s).cable, inPulse := true } := by
  rw [advanceTimers, advanceEngine_eq]
  rfl

theorem advanceRun_eq (s : State) (r : Run) : advanceRun s r =
    if r.fresh then { r with fresh := false }
    else if (runSlot s r).duration ≤ min 50 (r.time + 1) then
      { r with step := if r.step + 1 < (patternAt s r.pattern).steps then r.step + 1 else 0, time := 0 }
    else { r with time := min 50 (r.time + 1) } := by
  unfold advanceRun
  split
  · rfl
  · dsimp only
    by_cases h : (runSlot s r).duration ≤ min 50 (r.time + 1)
    · rw [if_pos h]
      exact if_pos (decide_eq_true h)
    · rw [if_neg h]
      exact if_neg fun c => h (of_decide_eq_true c)

theorem advanceInputs_input (s : State) (e : Fin 64) : (advanceInputs s).inputs[e] =
    if timedInput s e = true ∧ s.inputs[e].active = true then
      { s.inputs[e] with activeTime := min 36000 (s.inputs[e].activeTime + 1) }
    else s.inputs[e] := by
  rw [advanceInputs, getElem_tab]
  simp only [Bool.and_eq_true, bump]

theorem advanceCable_circuit (s : State) (c : Fin 96) : (advanceCable s).cable.circuits[c] =
    if inMap s c = false then s.cable.circuits[c]
    else if s.cable.circuits[c].retry = .retryWait then { s.cable.circuits[c] with
      sinceTest := min 65535 (s.cable.circuits[c].sinceTest + 1)
      retryTimer := if s.cable.circuits[c].retryFresh then s.cable.circuits[c].retryTimer
        else min 100 (s.cable.circuits[c].retryTimer + 1)
      retryFresh := false }
    else { s.cable.circuits[c] with sinceTest := min 65535 (s.cable.circuits[c].sinceTest + 1) } := by
  rw [advanceCable, getElem_tab]
  cases inMap s c with
  | false => rfl
  | true =>
    simp only [if_true, advanceRetry, bump]
    cases s.cable.circuits[c].retry <;> rfl

/-! ## Cable supervision at a pulse (R153) -/

variable {t : State}

theorem ground_recomputeRed (s : State) : ground (recomputeRed s) = ground s := by
  simp only [ground, kept_recomputeRed, recomputeRed_queue]
  rfl

theorem ground_takeRelease (s : State) (c : Fin 96) : ground (takeRelease s c) = ground s := by
  unfold takeRelease releaseVerdict
  split
  · rw [ground_recomputeRed, ground_changeVerdict, ground_setCable]
  · rfl

theorem ground_takeReleases (s : State) (l : List (Fin 96)) : ground (l.foldl takeRelease s) = ground s :=
  foldl_inv ground takeRelease ground_takeRelease l s

/-- A clean-on timer at a pulse is read from nothing the releases change but the circuit's own record (R153). -/
theorem advanceCleanOn_circuit (tables : t.tables = s.tables) (map : t.map = s.map) (bus : t.bus = s.bus) (c : Fin 96) :
    (advanceCleanOn t).cable.circuits[c] =
      if inMap s c = true ∧ t.cable.circuits[c].retry = .normal ∧ lastCommandedOn s c = true ∧
          t.cable.circuits[c].cleanOn < s.tables.cable.tripClear then
        { t.cable.circuits[c] with cleanOn := t.cable.circuits[c].cleanOn + 1 }
      else t.cable.circuits[c] := by
  have commanded : lastCommandedOn t c = lastCommandedOn s c := by simp only [lastCommandedOn, unitOf, terminalOf, tables, bus]
  rw [advanceCleanOn, getElem_tab, advanceClean, inMap_congr tables map, commanded, tables]

/-! ## The pulse (R97) -/

theorem pulseMoment_eq (s : State) : pulseMoment s =
    if ∃ g : Fin 32, live s g = true ∧ s.groups[g].aspect = .green ∧ s.groups[g].target = .stop ∧
      s.tables.group[g].safetyMin ≤ s.groups[g].inAspect then .between else .pulse := by
  have due : (idx 32).any (clearanceStartDue s) = true ↔ ∃ g : Fin 32, live s g = true ∧ s.groups[g].aspect = .green ∧
      s.groups[g].target = .stop ∧ s.tables.group[g].safetyMin ≤ s.groups[g].inAspect := by
    simp only [List.any_eq_true, List.mem_finRange, true_and, clearanceStartDue_iff]
  unfold pulseMoment
  simp only [due]

/-- The blocks of the pulse one after another (R97). -/
theorem pulse_eq {v y : State} (hv : advanceTimers s = v)
    (hy : y = settle (enginePulse (settle (judgeReleases (settle (takeTimedEnds
      (settle (takeSilent (settle (takeProvingTimeout (takeStartRedEnd (settle (takeStartFlashEnd
        ((idx 64).foldl takeStuck ((mapped v).foldl takeTripClear
          (advanceCleanOn ((mapped v).foldl takeRelease v))))))))))))))) s.eng.stageOn)) :
    pulse s = { y with inPulse := false, moment := pulseMoment y } := by
  subst hv hy
  rfl

theorem pulse_moment (s : State) : (pulse s).moment = .pulse ∨ (pulse s).moment = .between := by
  unfold pulse pulseMoment
  dsimp only
  split
  · exact .inr rfl
  · exact .inl rfl

/-- Settles O31: the blocks of the pulse in their order, and what `kept_pulse` says that they leave. -/
theorem pulseAdvances : Obligations.PulseAdvances := by
  intro s
  constructor
  · have timers := advanceTimers_eq s
    generalize hv : advanceTimers s = v at timers
    have released : ground ((mapped v).foldl takeRelease v) = ground v := ground_takeReleases v _
    refine ⟨v, advanceCleanOn ((mapped v).foldl takeRelease v), _, by rw [timers], fun g => ?_, fun g => ?_, fun r r' h => ?_,
      by rw [timers]; rfl, by rw [timers]; rfl, fun e => ?_, by rw [timers]; rfl, fun c => ?_, rfl, rfl, fun c => ?_, rfl, ?_⟩
    · rw [timers, getElem_tab]; rfl
    · rw [timers, getElem_tab, Option.isSome_map]
    · rw [← advanceRun_eq]
      rcases h with ⟨rfl, rfl⟩ | ⟨g, hr, hr'⟩
      · rw [timers]
      · rw [timers, getElem_tab, hr] at hr'
        exact (Option.some.inj hr').symm
    · rw [timers]; exact advanceInputs_input s e
    · rw [timers]; exact advanceCable_circuit s c
    · exact advanceCleanOn_circuit ((ground_tables released).trans (by rw [timers])) ((ground_map released).trans (by rw [timers]))
        ((ground_bus released).trans (by rw [timers])) c
    · rw [← pulseMoment_eq]
      exact congrArg (fun t => Host.Outcome.next (finish t)) (pulse_eq hv rfl)
  · obtain ⟨i, p, c, m, left, inputs, tested⟩ := kept_pulse s
    have finished : kept (finish (pulse s)) = { kept s with inputs := i, prov := p, cable := c, inPulse := false, moment := m } :=
      (kept_finish _).trans left
    refine ⟨finish (pulse s), rfl, inPulse_eq_of_kept finished, ?_, tables_eq_of_kept finished, map_eq_of_kept finished,
      clock_eq_of_kept finished, mains_eq_of_kept finished, sched_eq_of_kept finished, pending_eq_of_kept finished,
      started_eq_of_kept finished, bus_eq_of_kept_queue finished rfl, fun g => ?_, fun e => ?_, fun d => ?_⟩
    · rw [finish_moment]; exact pulse_moment s
    · exact marks_of_kept (b := { s with inputs := i, prov := p, cable := c, inPulse := false, moment := m }) finished g
    · rw [inputs_eq_of_kept finished]; exact inputs e
    · rw [cable_eq_of_kept finished]; exact tested d

end Sys2Proof.Machine

namespace Sys2Proof.Machine

open Sys2Proof

variable {s x : State} {p : Nat}

/-! ## What a window start leaves of the mains supervisor (R95, R97) -/

/-- The mains supervisor's record of edges and of the timebase, which no window start changes. -/
def edgePart (m : Mains) : Bool × Nat × Nat × Nat × Timebase × Nat := (m.gap, m.lastEdge, m.outOfBand, m.inBand, m.timebase, m.subPhase)

theorem edgePart_of_core {m n : Mains} (h : mainsCore m = mainsCore n) : edgePart m = edgePart n := by
  have part (k : Mains) : edgePart (mainsCore k) = edgePart k := rfl
  rw [← part m, h, part n]

theorem edgePart_windowStart (x : State) (t : Nat) (gapBegin counted : Bool) :
    edgePart (windowStart x t gapBegin counted).mains = edgePart x.mains := by
  obtain ⟨-, -, -, -, core, -⟩ := windowStart_pace x t gapBegin counted
  exact edgePart_of_core core

theorem halfPeriod_eq (s : State) : halfPeriod s = if s.tables.startUp.mains = 1 then 8333 else 10000 := by
  unfold halfPeriod sixty
  simp only [decide_eq_true_eq]

theorem qualifies_iff {t : Nat} : qualifies s t = true ↔
    s.mains.lastWindow.getD 0 + (if s.tables.startUp.mains = 1 then 8333 else 10000) ≤ t := by
  rw [qualifies, halfPeriod_eq, decide_eq_true_iff]

/-- The edge lies at least half a nominal period after the last window start (R95; log entry 22). -/
abbrev EdgeLate (s : State) (p : Nat) : Prop :=
  s.mains.lastWindow.getD 0 + (if s.tables.startUp.mains = 1 then 8333 else 10000) ≤ s.mains.lastEdge + p

/-! ## The end of a gap (R90, R96, R112, R128) -/

/-- The gap ended by an edge, with nothing handed on yet (R95, R96). -/
abbrev gapEnded (s : State) (p : Nat) : State :=
  { s with
    moment := .between
    mains := { s.mains with
      gap := false, lastEdge := s.mains.lastEdge + p, sinceGap := some 0
      timebase := if s.mains.freqRaised = true then .substitute else .locked } }

theorem longGap_eq_false (h : p / 1000 < 100 * s.tables.startUp.restart) : longGap s p = false := decide_eq_false (Nat.not_le.2 h)

theorem longGap_eq_true (h : 100 * s.tables.startUp.restart ≤ p / 1000) : longGap s p = true := decide_eq_true h

section Restart

variable {d : Dest} {m : Mode} {r : Reason}

theorem mainsRestart_stays (h : s.jm.mode = .flash ∨ s.jm.mode = .dark) : mainsRestart s = s := by
  unfold mainsRestart
  rcases h with h | h <;> rw [h]

theorem mainsRestart_startUp (h : s.jm.mode = .startFlash ∨ s.jm.mode = .startRed) :
    mainsRestart s = enterMode s .startFlash .mains := by
  unfold mainsRestart
  rcases h with h | h <;> rw [h]

/-- With no departure to FLASH or DARK a junction in service restarts (R90). -/
theorem mainsRestart_service (h : s.jm.mode = .plan ∨ s.jm.mode = .directDrive)
    (hd : s.jm.departure = none ∨ ∃ r : Reason, s.jm.departure = some ⟨.startRed, r⟩) :
    mainsRestart s = enterMode s .startFlash .mains := by
  unfold mainsRestart
  rcases h with h | h <;> rw [h] <;> rcases hd with hd | ⟨r, hd⟩ <;> rw [hd] <;> rfl

/-- A departure to FLASH or DARK is completed (R82; log entry 20). -/
theorem mainsRestart_departing (h : s.jm.mode = .plan ∨ s.jm.mode = .directDrive) (hd : s.jm.departure = some ⟨d, r⟩)
    (hm : (d = .flash ∧ m = .flash) ∨ (d = .dark ∧ m = .dark)) : mainsRestart s = completeDeparture s ⟨d, r⟩ := by
  have stops : d ≠ .startRed := by rcases hm with ⟨rfl, -⟩ | ⟨rfl, -⟩ <;> decide
  unfold mainsRestart
  rcases h with h | h <;> rw [h, hd] <;> exact if_neg stops

/-- A departure that is not the schedule's, or with schedule mode still FLASH or DARK, is completed by its entry alone (R82). -/
theorem completeDeparture_entry (hm : destMode d = m) (h : r ≠ .schedule ∨ s.jm.schedMode ≠ .plan) :
    completeDeparture s ⟨d, r⟩ = enterMode s m r := by
  unfold completeDeparture
  subst hm
  exact if_neg fun c => h.elim (fun h => h c.1) fun h => h c.2.1

/-- A schedule departure that completes with the schedule mode back at PLAN is followed by the exit at once (R83). -/
theorem completeDeparture_exit (hm : destMode d = m) (stop : m = .flash ∨ m = .dark) (h : s.jm.schedMode = .plan)
    (free : demandedNow s = .none) : completeDeparture s ⟨d, .schedule⟩ =
      enterMode (enterMode s m .schedule) (if m = .flash then .startRed else .startFlash) .schedule := by
  obtain ⟨reason, mode⟩ := enterMode_jm (s := s) (m := m) (r := .schedule) (belowDemand_none free)
  have entered : (enterMode s m .schedule).jm.mode = m := by
    rw [mode, if_neg]
    rcases stop with rfl | rfl <;> simp
  have stopped : stoppedFor (enterMode s m .schedule) .schedule = true := stoppedFor_iff.2 ⟨by rw [entered]; exact stop, reason⟩
  unfold completeDeparture
  subst hm
  exact (if_pos ⟨rfl, h, stopped⟩).trans (by rw [takeExit_plan ((enterMode_schedMode ..).trans h), entered])

theorem destMode_of_stop (h : (d = .flash ∧ m = .flash) ∨ (d = .dark ∧ m = .dark)) : destMode d = m ∧ (m = .flash ∨ m = .dark) := by
  rcases h with ⟨rfl, rfl⟩ | ⟨rfl, rfl⟩ <;> simp [destMode]

end Restart

/-- What the field bus controller and lamp proving take from the end of a gap (R112, R128). -/
theorem gapProving_clearMisses (u : State) :
    (gapProving (clearMisses u) = { u with
      bus := { u.bus with units := (gapProving (clearMisses u)).bus.units }
      prov := { u.prov with
        lastWin := (gapProving (clearMisses u)).prov.lastWin, circuits := (gapProving (clearMisses u)).prov.circuits } }) ∧
    (∀ v : Fin 12, (gapProving (clearMisses u)).bus.units[v] = { u.bus.units[v] with miss := 0 } ∧
      (gapProving (clearMisses u)).prov.lastWin[v] = none) ∧
    ∀ c : Fin 96, (gapProving (clearMisses u)).prov.circuits[c] = { u.prov.circuits[c] with onRun := 0 } := by
  refine ⟨rfl, fun v => ⟨getElem_tab .., ?_⟩, fun c => getElem_tab ..⟩
  exact Vector.getElem_replicate ..

/-- What stands once the end of a gap is handed on: units without misses, circuits without on-run, and no last window taken in. -/
theorem handGapEnd_tables (s : State) (long : Bool) :
    (∀ v : Fin 12, (handGapEnd s long).bus.units[v] = { s.bus.units[v] with miss := 0 } ∧ (handGapEnd s long).prov.lastWin[v] = none) ∧
    ∀ c : Fin 96, (handGapEnd s long).prov.circuits[c] = { s.prov.circuits[c] with onRun := 0 } := by
  have hk := kept_handGapEnd s long
  unfold handGapEnd
  generalize settle _ = u at hk ⊢
  obtain ⟨-, units, circuits⟩ := gapProving_clearMisses u
  refine ⟨fun v => ⟨?_, (units v).2⟩, fun c => ?_⟩
  · rw [(units v).1, bus_units_of_kept hk]
  · rw [circuits, prov_of_kept hk]

theorem handGapEnd_mains (s : State) (long : Bool) : (handGapEnd s long).mains = s.mains ∧ (handGapEnd s long).tables = s.tables ∧
    (handGapEnd s long).bus.seq = s.bus.seq := by
  have hk := kept_handGapEnd s long
  unfold handGapEnd
  generalize settle _ = u at hk ⊢
  have mains : u.mains = s.mains := mains_of_kept hk
  have tables : u.tables = s.tables := tables_of_kept hk
  have seq : u.bus.seq = s.bus.seq := bus_seq_of_kept hk
  exact ⟨mains, tables, seq⟩

/-- An edge that ends a gap, over the state `x` in which the end has been handed on (R95). -/
theorem gapEndEdge_handed (hx : handGapEnd (gapEnded s p) (longGap s p) = x) : gapEndEdge (between s) p =
    if x.mains.timebase = .locked ∧ qualifies x (s.mains.lastEdge + p) = true then windowStart x (s.mains.lastEdge + p) false false
    else x := by
  have ended : gapEnded s p = setMains (between s) fun m => { m with
      gap := false, lastEdge := (between s).mains.lastEdge + p, sinceGap := some 0
      timebase := if m.freqRaised then .substitute else .locked } := rfl
  have long : longGap (between s) p = longGap s p := rfl
  unfold gapEndEdge
  dsimp only
  rw [long, ← ended, hx]
  rfl

/-- An edge that ends a gap starts a window just when MAINS_FREQUENCY is not raised and half a nominal period has run since the last (R95). -/
theorem takeEdge_gap (h : s.mains.gap = true) : takeEdge s p =
    if s.mains.freqRaised = false ∧ EdgeLate s p then
      windowStart (handGapEnd (gapEnded s p) (longGap s p)) (s.mains.lastEdge + p) false false
    else handGapEnd (gapEnded s p) (longGap s p) := by
  obtain ⟨mains, tables, -⟩ := handGapEnd_mains (gapEnded s p) (longGap s p)
  have locked : (if s.mains.freqRaised = true then Timebase.substitute else .locked) = .locked ↔ s.mains.freqRaised = false := by
    cases s.mains.freqRaised <;> decide
  have taken : takeEdge s p = gapEndEdge (between s) p := if_pos h
  rw [taken]
  generalize hx : handGapEnd (gapEnded s p) (longGap s p) = x at mains tables ⊢
  simp only [gapEndEdge_handed hx, qualifies_iff, mains, tables, locked]

/-! ## An edge with no gap in progress (R94, R95) -/

/-- An edge counted by its period, with nothing raised or cleared yet (R94). -/
abbrev edgeCounted (s : State) (p : Nat) : State :=
  { s with
    moment := .between
    mains := { s.mains with
      lastEdge := s.mains.lastEdge + p
      inBand := if inBand s p = true then min 250 (s.mains.inBand + 1) else 0
      outOfBand := if inBand s p = true then 0 else min 25 (s.mains.outOfBand + 1) } }

/-- The edge is the 25th out of band with MAINS_FREQUENCY not raised (R94). -/
abbrev EdgeRaises (s : State) (p : Nat) : Prop := inBand s p = false ∧ s.mains.freqRaised = false ∧ 25 ≤ s.mains.outOfBand + 1

/-- The edge is the 250th in band with MAINS_FREQUENCY raised (R94). -/
abbrev EdgeClears (s : State) (p : Nat) : Prop := inBand s p = true ∧ s.mains.freqRaised = true ∧ 250 ≤ s.mains.inBand + 1

theorem inBand_iff : inBand s p = true ↔
    if s.tables.startUp.mains = 1 then 15874 ≤ p ∧ p ≤ 17543 else 18868 ≤ p ∧ p ≤ 21276 := by
  unfold inBand sixty
  by_cases h : s.tables.startUp.mains = 1 <;> simp [h, within_eq_true]

theorem countPeriod_edge (s : State) (p : Nat) :
    countPeriod (setMains (between s) fun m => { m with lastEdge := s.mains.lastEdge + p }) p = edgeCounted s p := by
  have band : inBand (setMains (between s) fun m => { m with lastEdge := s.mains.lastEdge + p }) p = inBand s p := rfl
  unfold countPeriod edgeCounted
  rw [band]
  cases inBand s p <;> rfl

theorem freqRaiseDue_edge : freqRaiseDue (edgeCounted s p) = true ↔ EdgeRaises s p := by
  rw [freqRaiseDue_iff]
  by_cases h : inBand s p = true
  · simp [EdgeRaises, h]
  · simp [EdgeRaises, h]

theorem freqClearDue_edge : freqClearDue (edgeCounted s p) = true ↔ EdgeClears s p := by
  rw [freqClearDue_iff]
  by_cases h : inBand s p = true
  · simp [EdgeClears, h]
  · simp [EdgeClears, h]

/-- An edge that raises or clears MAINS_FREQUENCY starts no window (log entry 24); another does so in LOCKED, half a nominal period after the last
window start (R95). -/
theorem takeEdge_plain (h : s.mains.gap = false) : takeEdge s p =
    if EdgeRaises s p then takeFreqRaise (edgeCounted s p)
    else if EdgeClears s p then takeFreqClear (edgeCounted s p)
    else if s.mains.timebase = .locked ∧ EdgeLate s p then
      windowStart (edgeCounted s p) (s.mains.lastEdge + p) false true
    else edgeCounted s p := by
  have taken : takeEdge s p = plainEdge (between s) p := if_neg (Bool.eq_false_iff.1 h)
  have counted := countPeriod_edge s p
  rw [taken]
  unfold plainEdge
  dsimp only [between] at counted ⊢
  rw [counted]
  simp only [freqRaiseDue_edge, freqClearDue_edge, qualifies_iff]

/-! ## What an edge leaves of the counts and of the window sequence (R94, R95, R108) -/

/-- The edge starts a window (R95). -/
abbrev EdgeStarts (s : State) (p : Nat) : Prop :=
  EdgeLate s p ∧
    ((s.mains.gap = true ∧ s.mains.freqRaised = false) ∨
     (s.mains.gap = false ∧ s.mains.timebase = .locked ∧ ¬ EdgeRaises s p ∧ ¬ EdgeClears s p))

/-- What stands after an edge: it is the last one and ends a gap, its period is counted unless it does, and the window sequence has advanced just when
it starts a window. -/
structure EdgeTaken (s : State) (p : Nat) (t : State) : Prop where
  gap : t.mains.gap = false
  lastEdge : t.mains.lastEdge = s.mains.lastEdge + p
  outOfBand : t.mains.outOfBand =
    if s.mains.gap = true then s.mains.outOfBand else if inBand s p = true then 0 else min 25 (s.mains.outOfBand + 1)
  inBand : t.mains.inBand =
    if s.mains.gap = true then s.mains.inBand else if inBand s p = true then min 250 (s.mains.inBand + 1) else 0
  window : (t.bus.seq, t.mains.lastWindow) =
    if EdgeStarts s p then ((s.bus.seq + 1) % 255, some (s.mains.lastEdge + p)) else (s.bus.seq, s.mains.lastWindow)

/-- The edge counted, with no window started yet. -/
structure EdgeNoted (s : State) (p : Nat) (x : State) : Prop where
  gap : x.mains.gap = false
  lastEdge : x.mains.lastEdge = s.mains.lastEdge + p
  outOfBand : x.mains.outOfBand =
    if s.mains.gap = true then s.mains.outOfBand else if inBand s p = true then 0 else min 25 (s.mains.outOfBand + 1)
  inBand : x.mains.inBand =
    if s.mains.gap = true then s.mains.inBand else if inBand s p = true then min 250 (s.mains.inBand + 1) else 0
  seq : x.bus.seq = s.bus.seq
  lastWindow : x.mains.lastWindow = s.mains.lastWindow

/-- What of a state says that an edge was counted. -/
def edgeCounts (x : State) : Bool × Nat × Nat × Nat × Nat × Option Nat :=
  (x.mains.gap, x.mains.lastEdge, x.mains.outOfBand, x.mains.inBand, x.bus.seq, x.mains.lastWindow)

theorem edgeCounts_takeFreqRaise (x : State) : edgeCounts (takeFreqRaise x) = edgeCounts x := by
  unfold takeFreqRaise
  split
  · simp [edgeCounts, setMains]
  · rfl

theorem edgeCounts_takeFreqClear (x : State) : edgeCounts (takeFreqClear x) = edgeCounts x := by
  unfold takeFreqClear
  split
  · simp [edgeCounts, setMains]
  · rfl

theorem EdgeNoted.of_counts {y : State} (h : EdgeNoted s p y) (hc : edgeCounts x = edgeCounts y) : EdgeNoted s p x := by
  simp only [edgeCounts, Prod.mk.injEq] at hc
  obtain ⟨gap, lastEdge, outOfBand, inBand, seq, lastWindow⟩ := hc
  exact ⟨gap.trans h.gap, lastEdge.trans h.lastEdge, outOfBand.trans h.outOfBand, inBand.trans h.inBand, seq.trans h.seq,
    lastWindow.trans h.lastWindow⟩

theorem EdgeNoted.quiet (h : EdgeNoted s p x) (w : ¬ EdgeStarts s p) : EdgeTaken s p x :=
  ⟨h.gap, h.lastEdge, h.outOfBand, h.inBand, by rw [if_neg w, h.seq, h.lastWindow]⟩

theorem EdgeNoted.started (h : EdgeNoted s p x) (w : EdgeStarts s p) (counted : Bool) :
    EdgeTaken s p (windowStart x (s.mains.lastEdge + p) false counted) := by
  have part := edgePart_windowStart x (s.mains.lastEdge + p) false counted
  obtain ⟨-, seq, lastWindow, -⟩ := windowStart_pace x (s.mains.lastEdge + p) false counted
  simp only [edgePart, Prod.mk.injEq] at part
  obtain ⟨gap, lastEdge, outOfBand, inBand, -, -⟩ := part
  exact ⟨gap.trans h.gap, lastEdge.trans h.lastEdge, outOfBand.trans h.outOfBand, inBand.trans h.inBand,
    by rw [if_pos w, seq, lastWindow, h.seq]; rfl⟩

theorem EdgeTaken.finish {t : State} (h : EdgeTaken s p t) : EdgeTaken s p (finish t) :=
  ⟨by rw [finish_mains]; exact h.gap, by rw [finish_mains]; exact h.lastEdge, by rw [finish_mains]; exact h.outOfBand,
    by rw [finish_mains]; exact h.inBand, by rw [finish_mains, finish_bus_seq]; exact h.window⟩

theorem edgeTaken_gap (h : s.mains.gap = true) : EdgeTaken s p (takeEdge s p) := by
  obtain ⟨mains, -, seq⟩ := handGapEnd_mains (gapEnded s p) (longGap s p)
  have noted : EdgeNoted s p (handGapEnd (gapEnded s p) (longGap s p)) :=
    ⟨by rw [mains], by rw [mains], by rw [mains, if_pos h], by rw [mains, if_pos h], seq, by rw [mains]⟩
  rw [takeEdge_gap h]
  by_cases w : s.mains.freqRaised = false ∧ EdgeLate s p
  · rw [if_pos w]
    exact noted.started ⟨w.2, .inl ⟨h, w.1⟩⟩ false
  · rw [if_neg w]
    refine noted.quiet fun c => ?_
    rcases c with ⟨late, ⟨-, clear⟩ | ⟨none, -⟩⟩
    · exact w ⟨clear, late⟩
    · rw [h] at none; cases none

theorem edgeTaken_plain (h : s.mains.gap = false) : EdgeTaken s p (takeEdge s p) := by
  have open_ : ¬ s.mains.gap = true := Bool.eq_false_iff.1 h
  have noted : EdgeNoted s p (edgeCounted s p) := ⟨h, rfl, by rw [if_neg open_], by rw [if_neg open_], rfl, rfl⟩
  have plain : EdgeStarts s p ↔ ¬ EdgeRaises s p ∧ ¬ EdgeClears s p ∧ s.mains.timebase = .locked ∧ EdgeLate s p := by
    unfold EdgeStarts
    rw [h]
    tauto
  rw [takeEdge_plain h]
  by_cases raises : EdgeRaises s p
  · rw [if_pos raises]
    exact (noted.of_counts (edgeCounts_takeFreqRaise _)).quiet fun c => (plain.1 c).1 raises
  rw [if_neg raises]
  by_cases clears : EdgeClears s p
  · rw [if_pos clears]
    exact (noted.of_counts (edgeCounts_takeFreqClear _)).quiet fun c => (plain.1 c).2.1 clears
  rw [if_neg clears]
  by_cases starts : s.mains.timebase = .locked ∧ EdgeLate s p
  · rw [if_pos starts]
    exact noted.started (plain.2 ⟨raises, clears, starts⟩) true
  · rw [if_neg starts]
    exact noted.quiet fun c => starts (plain.1 c).2.2

theorem edgeTaken (s : State) (p : Nat) : EdgeTaken s p (takeEdge s p) := by
  cases h : s.mains.gap with
  | true => exact edgeTaken_gap h
  | false => exact edgeTaken_plain h

/-- Settles O29: an edge ends a gap or is counted, and `takeEdge_gap` and `takeEdge_plain` say which starts a window. -/
theorem edgesCounted : Obligations.EdgesCounted := by
  refine ⟨fun s p => ?_, fun s p open_ locked late raises clears => ?_⟩
  · obtain ⟨gap, lastEdge, outOfBand, inBand, window⟩ := (edgeTaken s p).finish
    refine ⟨finish (takeEdge s p), rfl, gap, lastEdge, fun h => ⟨outOfBand.trans (if_pos h), inBand.trans (if_pos h)⟩,
      fun h => ⟨fun b => ?_, fun b => ?_⟩, inBand_iff, fun w => ?_, fun w => ?_, fun h => ?_⟩
    · rw [outOfBand, inBand, h, b]; exact ⟨rfl, rfl⟩
    · rw [outOfBand, inBand, h, b]; exact ⟨rfl, rfl⟩
    · exact Prod.mk.inj (window.trans (if_pos w))
    · exact Prod.mk.inj (window.trans (if_neg w))
    · obtain ⟨handed, -⟩ := gapProving_clearMisses (settle (if longGap s p then mainsRestart (gapEnded s p) else gapEnded s p))
      obtain ⟨units, circuits⟩ := handGapEnd_tables (gapEnded s p) (longGap s p)
      refine ⟨gapEnded s p, if longGap s p then mainsRestart (gapEnded s p) else gapEnded s p, handGapEnd (gapEnded s p) (longGap s p),
        rfl, fun short => ?_, fun long => ⟨fun hm => ?_, fun hm => ?_, fun hm => ⟨fun hd => ?_, fun d r m hd stop => ⟨fun hr => ?_,
          fun hr hs free => ?_⟩⟩⟩, handed, units, circuits, ?_⟩
      · rw [longGap_eq_false short]; rfl
      · rw [longGap_eq_true long]; exact mainsRestart_stays (s := gapEnded s p) hm
      · rw [longGap_eq_true long]; exact mainsRestart_startUp (s := gapEnded s p) hm
      · rw [longGap_eq_true long]; exact mainsRestart_service (s := gapEnded s p) hm hd
      · obtain ⟨dest, -⟩ := destMode_of_stop stop
        rw [longGap_eq_true long]
        exact (mainsRestart_departing (s := gapEnded s p) hm hd stop).trans
          (completeDeparture_entry (s := gapEnded s p) dest hr)
      · obtain ⟨dest, stopMode⟩ := destMode_of_stop stop
        subst hr
        rw [longGap_eq_true long]
        exact (mainsRestart_departing (s := gapEnded s p) hm hd stop).trans
          (completeDeparture_exit (s := gapEnded s p) dest stopMode hs free)
      · exact congrArg (fun t => Host.Outcome.next (finish t)) (takeEdge_gap h)
  · refine congrArg (fun t => Host.Outcome.next (finish t)) ((takeEdge_plain open_).trans ?_)
    rw [if_neg raises, if_neg clears, if_pos ⟨locked, late⟩]

end Sys2Proof.Machine

namespace Sys2Proof.Machine

open Sys2Proof

variable {s t x : State} {u v : Fin 12}

/-! ## DIM_UNLEARNED judged (R115) -/

/-- A circuit of the unit in the map that keeps it from dimming: proving enabled, no DIM reference, and not LEARNING in the DIM tap (R115). -/
abbrev Undimmable (s : State) (u : Fin 12) : Prop := ∃ (k : Fin 8) (d : Fin 96),
  circuitAt s u k = some d ∧ s.tables.circuit[d].proving = 1 ∧ s.tables.reference[d].dim.held ≠ 1 ∧
  ¬ (s.prov.learn[d].state = .learning ∧ s.prov.learn[d].tap = .dim)

theorem reference_dim_isNone {d : Fin 96} : (reference s d .dim).isNone = true ↔ s.tables.reference[d].dim.held ≠ 1 := by
  unfold reference RefEntry.part
  dsimp only
  split <;> simp_all

theorem dimUnlearned_iff {d : Fin 96} : dimUnlearned s d = true ↔ s.tables.circuit[d].proving = 1 ∧
    s.tables.reference[d].dim.held ≠ 1 ∧ ¬ (s.prov.learn[d].state = .learning ∧ s.prov.learn[d].tap = .dim) := by
  unfold dimUnlearned
  rw [Bool.and_eq_true, Bool.and_eq_true, reference_dim_isNone, Bool.not_eq_true', ← Bool.not_eq_true, Bool.and_eq_true,
    decide_eq_true_iff, decide_eq_true_iff, provingOn, decide_eq_true_iff, and_assoc]

theorem unitUnlearned_iff : unitUnlearned s u = true ↔ Undimmable s u := by
  unfold unitUnlearned
  rw [List.any_eq_true]
  constructor
  · rintro ⟨⟨k, d⟩, mem, bad⟩
    exact ⟨k, d, mem_circuitsOf.1 mem, dimUnlearned_iff.1 bad⟩
  · rintro ⟨k, d, at_, bad⟩
    exact ⟨(k, d), mem_circuitsOf.2 at_, dimUnlearned_iff.2 bad⟩

/-- DIM is the effective demand and a circuit of the unit keeps it from dimming (R115). -/
def dimBad (s : State) (u : Fin 12) : Bool := decide (s.sched.effDim = .dim) && unitUnlearned s u

theorem dimBad_iff : dimBad s u = true ↔ s.sched.effDim = .dim ∧ Undimmable s u := by
  rw [dimBad, Bool.and_eq_true, decide_eq_true_iff, unitUnlearned_iff]

theorem judgeDim_unused (h : s.bus.units[u].state = .unused) : judgeDim s u = s := if_pos h

/-- The judging of a unit not UNUSED sets its mark and hands on what changes (R115). -/
theorem judgeDim_used (h : s.bus.units[u].state ≠ .unused) : judgeDim s u =
    if dimBad s u = true ∧ s.bus.units[u].dimRaised = false then
      raise (setUnit s u fun x => { x with dimRaised := true }) .dimUnlearned (num u) .absent
    else if dimBad s u = false ∧ s.bus.units[u].dimRaised = true then
      clear (setUnit s u fun x => { x with dimRaised := false }) .dimUnlearned (num u)
    else s := by
  unfold judgeDim
  dsimp only
  rw [if_neg h, ← dimBad]
  cases dimBad s u <;> cases s.bus.units[u].dimRaised <;> rfl

/-! ## What a judging leaves (R115) -/

/-- A unit's record in what DIM_UNLEARNED is judged from and writes: whether it is UNUSED, and its mark. -/
def dimMark (x : UnitRec) : Bool × Bool := (decide (x.state = .unused), x.dimRaised)

/-- The tables, the map, the started flag, the learn records and the units' marks (R115). -/
def dimView (s : State) : Tables × Option CircuitMap × Bool × Vector LearnRec 96 × Vector (Bool × Bool) 12 :=
  (s.tables, s.map, s.jm.started, s.prov.learn, tab fun u => dimMark s.bus.units[u])

/-- What DIM_UNLEARNED is judged from (R115). -/
def dimGround (s : State) : Tables × Option CircuitMap × Vector LearnRec 96 × Tap × Vector Bool 12 :=
  (s.tables, s.map, s.prov.learn, s.sched.effDim, tab fun u => decide (s.bus.units[u].state = .unused))

theorem dimMark_of_view (h : dimView t = dimView s) (u : Fin 12) : dimMark t.bus.units[u] = dimMark s.bus.units[u] := by
  have := congrArg (fun v => v.2.2.2.2[u]) h
  simpa only [dimView, getElem_tab] using this

theorem tables_of_view (h : dimView t = dimView s) : t.tables = s.tables := congrArg Prod.fst h

theorem unitUnlearned_congr (tables : t.tables = s.tables) (map : t.map = s.map) (learn : t.prov.learn = s.prov.learn) (u : Fin 12) :
    unitUnlearned t u = unitUnlearned s u := by
  simp only [unitUnlearned, circuitsOf, circuitAt, dimUnlearned, provingOn, reference, tables, map, learn]

theorem unitUnlearned_of_view (h : dimView t = dimView s) (u : Fin 12) : unitUnlearned t u = unitUnlearned s u := by
  simp only [dimView, Prod.mk.injEq] at h
  obtain ⟨tables, map, -, learn, -⟩ := h
  exact unitUnlearned_congr tables map learn u

theorem dimBad_of_ground (h : dimGround t = dimGround s) (u : Fin 12) : dimBad t u = dimBad s u := by
  simp only [dimGround, Prod.mk.injEq] at h
  obtain ⟨tables, map, learn, dim, -⟩ := h
  rw [dimBad, dimBad, dim, unitUnlearned_congr tables map learn]

theorem unused_of_ground (h : dimGround t = dimGround s) (u : Fin 12) :
    t.bus.units[u].state = .unused ↔ s.bus.units[u].state = .unused := by
  have := congrArg (fun v => v.2.2.2.2[u]) h
  simpa only [dimGround, getElem_tab, decide_eq_decide] using this

theorem dimGround_of_kept (h : kept t = kept s) : dimGround t = dimGround s := by
  simp only [dimGround, tables_of_kept h, map_of_kept h, prov_of_kept h, sched_of_kept h, bus_units_of_kept h]

theorem dimGround_setUnit (s : State) (u : Fin 12) (f : UnitRec → UnitRec) (hf : ∀ x, (f x).state = x.state) :
    dimGround (setUnit s u f) = dimGround s := by
  have marks : (tab fun k => decide ((setUnit s u f).bus.units[k].state = .unused)) =
      tab fun k => decide (s.bus.units[k].state = .unused) := by
    congr 1
    funext k
    rw [units_setUnit]
    split
    · rw [hf]
    · rfl
  simp only [dimGround, marks]
  rfl

theorem dimGround_judgeDim (s : State) (u : Fin 12) : dimGround (judgeDim s u) = dimGround s := by
  by_cases h : s.bus.units[u].state = .unused
  · rw [judgeDim_unused h]
  · rw [judgeDim_used h]
    split
    · exact (dimGround_of_kept (kept_raise ..)).trans (dimGround_setUnit _ _ _ fun _ => rfl)
    · split
      · exact (dimGround_of_kept (kept_clear ..)).trans (dimGround_setUnit _ _ _ fun _ => rfl)
      · rfl

/-- A judging writes the mark of its own unit alone (R115). -/
theorem dimRaised_judgeDim (s : State) (u v : Fin 12) : (judgeDim s u).bus.units[v].dimRaised =
    if u = v ∧ s.bus.units[u].state ≠ .unused then dimBad s u else s.bus.units[v].dimRaised := by
  by_cases h : s.bus.units[u].state = .unused
  · rw [judgeDim_unused h, if_neg fun c => c.2 h]
  · have written (b : Bool) : (setUnit s u fun x => { x with dimRaised := b }).bus.units[v].dimRaised =
        if u = v then b else s.bus.units[v].dimRaised := by
      rw [units_setUnit]
      split <;> rfl
    have judged : (if u = v ∧ s.bus.units[u].state ≠ .unused then dimBad s u else s.bus.units[v].dimRaised) =
        if u = v then dimBad s u else s.bus.units[v].dimRaised := by
      simp only [h, ne_eq, not_false_eq_true, and_true]
    have settled : ∀ bad raised : Bool, ¬(bad = true ∧ raised = false) → ¬(bad = false ∧ raised = true) → raised = bad := by decide
    rw [judged, judgeDim_used h]
    split
    next bad => exact (congrArg (fun w : Vector UnitRec 12 => w[v].dimRaised) (raise_bus_units ..)).trans (by rw [written, bad.1])
    next good =>
      split
      next bad => exact (congrArg (fun w : Vector UnitRec 12 => w[v].dimRaised) (clear_bus_units ..)).trans (by rw [written, bad.1])
      next same =>
        split
        next e =>
          subst e
          exact settled _ _ good same
        next => rfl

/-- The units judged one after another each find the ground as it was (R115). -/
theorem dimRaised_judged (s : State) (v : Fin 12) : ((idx 12).foldl judgeDim s).bus.units[v].dimRaised =
    if s.bus.units[v].state = .unused then s.bus.units[v].dimRaised else dimBad s v := by
  refine foldl_once judgeDim (fun t => t.bus.units[v].dimRaised) dimGround
    (fun b => if s.bus.units[v].state = .unused then b else dimBad s v) dimGround_judgeDim v (idx 12) (List.nodup_finRange 12)
    (List.mem_finRange v) (fun t u _ other => ?_) s fun t ground => ?_
  · rw [dimRaised_judgeDim, if_neg fun c => other c.1]
  · rw [dimRaised_judgeDim, dimBad_of_ground ground]
    simp only [true_and, ne_eq, unused_of_ground ground, ite_not]

end Sys2Proof.Machine

namespace Sys2Proof.Machine

open Sys2Proof

variable {s t x : State}

/-! ## What of DIM_UNLEARNED the field bus and lamp proving leave (R115) -/

theorem dimView_of_kept (h : kept t = kept s) : dimView t = dimView s := by
  simp only [dimView, tables_of_kept h, map_of_kept h, started_of_kept h, prov_of_kept h, bus_units_of_kept h]

theorem dimView_of_withProv {p : Proving} (h : kept t = (kept s).withProv p) (hp : p.learn = s.prov.learn) : dimView t = dimView s := by
  rw [dimView_of_kept (s := { s with prov := p }) h]
  simp only [dimView, hp]

/-- The steady part, the learn records and the units' marks make up the view. -/
theorem dimView_of_steady (h : steady t = steady s) (learn : t.prov.learn = s.prov.learn)
    (marks : ∀ u : Fin 12, dimMark t.bus.units[u] = dimMark s.bus.units[u]) : dimView t = dimView s := by
  have tables : t.tables = s.tables := congrArg Steady.tables h
  have map : t.map = s.map := congrArg Steady.map h
  have started : t.jm.started = s.jm.started := congrArg Steady.started h
  simp only [dimView, tables, map, started, learn, marks]

theorem dimView_of_site (h : steady t = steady s) (hs : site t = site s) : dimView t = dimView s := by
  simp only [site, Prod.mk.injEq] at hs
  obtain ⟨units, -, prov, -⟩ := hs
  exact dimView_of_steady h (by rw [prov]) fun u => by rw [units]

theorem dimView_setUnit (s : State) (u : Fin 12) (f : UnitRec → UnitRec) (hf : dimMark (f s.bus.units[u]) = dimMark s.bus.units[u]) :
    dimView (setUnit s u f) = dimView s := by
  refine dimView_of_steady rfl rfl fun k => ?_
  rw [units_setUnit]
  split
  next e => subst e; exact hf
  next => rfl

theorem dimMark_of_core {a b : UnitRec} (h : unitCore a = unitCore b) : dimMark a = dimMark b := by
  have core (x : UnitRec) : dimMark (unitCore x) = dimMark x := rfl
  rw [← core a, h, core b]

theorem dimView_goRound (s : State) : dimView (goRound s) = dimView s := by
  obtain ⟨units, prov, -⟩ := goRound_frame s
  exact dimView_of_steady (steady_goRound s) (by rw [prov]) fun u => dimMark_of_core (units u)

theorem learn_unitLeavesProving (s : State) (u : Fin 12) : (unitLeavesProving s u).prov.learn = s.prov.learn := by
  have dropped : ∀ (x : State) (tc : Fin 8 × Fin 96), (if x.prov.circuits[tc.2].verdict = .forced then x
      else setProv (changeVerdict x tc.2 .unknown) tc.2 fun r => { r with onRun := 0 }).prov.learn = x.prov.learn := by
    intro x tc
    split
    · rfl
    · have changed := congrArg Proving.learn (prov_eq_of_kept (kept_changeVerdict x tc.2 .unknown))
      generalize changeVerdict x tc.2 .unknown = y at changed ⊢
      exact changed
  unfold unitLeavesProving
  dsimp only
  have folded := foldl_inv (fun x : State => x.prov.learn) _ dropped (circuitsOf s u)
    { s with prov := { s.prov with lastWin := put s.prov.lastWin u none } }
  exact (congrArg Proving.learn (prov_eq_of_kept (kept_recomputeRed _))).trans folded

theorem learn_leaveAdmitted (s : State) (u : Fin 12) : (leaveAdmitted s u).prov.learn = s.prov.learn := by
  unfold leaveAdmitted
  dsimp only
  generalize hx : (setUnit s u fun x => { x with miss := 0, hotRun := 0, hotQuiet := 0, log := [] }) = x
  obtain ⟨i, c, g, dropped, -⟩ := dropInputs_frame x u
  have kept := kept_settle (dropInputs x u)
  generalize settle (dropInputs x u) = y at kept ⊢
  have cable := unitLeavesCable_site y u
  rw [learn_unitLeavesProving]
  generalize unitLeavesCable y u = z at cable ⊢
  simp only [site, Prod.mk.injEq] at cable
  obtain ⟨-, -, prov, -⟩ := cable
  rw [prov, prov_of_kept kept, dropped, ← hx]
  rfl

theorem dimView_leaveAdmitted (s : State) (u : Fin 12) : dimView (leaveAdmitted s u) = dimView s := by
  have steadyLeft := steady_leaveAdmitted s u
  have learnLeft := learn_leaveAdmitted s u
  obtain ⟨unitsLeft, -⟩ := leaveAdmitted_site s u
  generalize leaveAdmitted s u = y at steadyLeft learnLeft unitsLeft ⊢
  refine dimView_of_steady steadyLeft learnLeft fun k => ?_
  rw [unitsLeft k]
  split <;> rfl

theorem dimView_takeLost (s : State) (u : Fin 12) : dimView (takeLost s u) = dimView s := by
  unfold takeLost
  dsimp only
  split
  next due =>
    have admitted : s.bus.units[u].state = .admitted := by
      simp only [lostDue, Bool.and_eq_true, decide_eq_true_eq] at due
      exact due.1
    have lost : dimView (setUnit s u fun x => { x with state := .lost, lostRaised := true }) = dimView s :=
      dimView_setUnit _ _ _ (by unfold dimMark; rw [admitted]; rfl)
    rw [dimView_leaveAdmitted]
    split
    · exact lost
    · exact (dimView_of_kept (kept_raise ..)).trans lost
  next => rfl

theorem dimView_takeMiss (s : State) (u : Fin 12) : dimView (takeMiss s u) = dimView s := by
  have resolved : dimView (resolveTests (between s) u (lastWindowNo s) none) = dimView s :=
    dimView_of_site (steady_resolveTests ..) (site_resolveTests ..)
  unfold takeMiss
  dsimp only
  split
  · rw [dimView_takeLost, countMiss, dimView_setUnit _ _ _ (by rfl), resolved]
  · exact resolved

theorem dimView_times (n : Nat) (f : State → State) (h : ∀ s, dimView (f s) = dimView s) (s : State) :
    dimView (times n f s) = dimView s := by
  induction n generalizing s with
  | zero => rfl
  | succ n ih => rw [times, ih, h]

theorem dimView_missOutstanding (s : State) : dimView (missOutstanding s) = dimView s := by
  unfold missOutstanding
  split
  next u awaited =>
    rw [senseMissed, if_pos awaited]
    exact (dimView_goRound _).trans (dimView_takeMiss s u)
  next => rfl

theorem dimView_timeoutOutstanding (s : State) : dimView (timeoutOutstanding s) = dimView s := by
  unfold timeoutOutstanding
  split
  next u called =>
    rw [identTimedOut, if_pos called]
    exact dimView_goRound _
  next => rfl

theorem dimView_closeRound (s : State) : dimView (closeRound s) = dimView s := by
  have closed : dimView (times 12 timeoutOutstanding (times 12 missOutstanding s)) = dimView s :=
    (dimView_times 12 _ dimView_timeoutOutstanding _).trans (dimView_times 12 _ dimView_missOutstanding s)
  unfold closeRound
  generalize times 12 timeoutOutstanding (times 12 missOutstanding s) = x at closed ⊢
  exact closed

/-! ## What of it a window start leaves up to the next round (R95 to R98) -/

theorem dimView_windowClock (s : State) : dimView (windowClock s) = dimView s := by
  obtain ⟨c, r, m, k, kept⟩ := kept_windowClock s
  exact dimView_of_kept (s := { s with clock := c, sched := r, jm := { s.jm with schedMode := m }, moment := k }) kept

theorem dimView_raise (x : State) (k : Kind) (n : Nat) (d : Detail) : dimView (raise x k n d) = dimView x := dimView_of_kept (kept_raise ..)

theorem dimView_clear (x : State) (k : Kind) (n : Nat) : dimView (clear x k n) = dimView x := dimView_of_kept (kept_clear ..)

theorem dimView_countAfterGap (s : State) : dimView (countAfterGap s) = dimView s := by
  unfold countAfterGap takeInterruptionClear
  split
  · rw [dimView_clear]; rfl
  · rfl

theorem dimView_greenGroup (s : State) (g : Fin 32) : dimView (greenGroup s g) = dimView s := by
  have raised (x : State) : dimView (takeGreenRaise x g) = dimView x := by
    unfold takeGreenRaise
    split
    · rw [dimView_raise]; rfl
    · rfl
  have cleared (x : State) : dimView (takeGreenClear x g) = dimView x := by
    unfold takeGreenClear
    split
    · rw [dimView_clear]; rfl
    · rfl
  unfold greenGroup
  split
  · rw [cleared, raised]; rfl
  · rfl

theorem dimView_takeRelease (s : State) (c : Fin 96) : dimView (takeRelease s c) = dimView s := by
  obtain ⟨waits, released⟩ := kept_takeRelease s c
  cases due : releaseDue s c with
  | false => rw [waits due]
  | true =>
    obtain ⟨red, kept⟩ := released due
    rw [dimView_of_withProv (s := setCable s c fun r => { r with retry := .normal, retryTimer := 0, retryFresh := false }) kept rfl]
    rfl

theorem dimView_takeTripClear (s : State) (c : Fin 96) : dimView (takeTripClear s c) = dimView s := by
  unfold takeTripClear
  split <;> rfl

theorem dimView_pulse (s : State) : dimView (pulse s) = dimView s := by
  have timers : dimView (advanceTimers s) = dimView s :=
    dimView_of_kept (s := { s with inputs := (advanceInputs s).inputs, cable := (advanceCable s).cable, inPulse := true })
      (kept_advanceTimers s)
  have cable (x : State) : dimView (cablePulse x) = dimView x :=
    (foldl_inv dimView takeTripClear dimView_takeTripClear _ _).trans (foldl_inv dimView takeRelease dimView_takeRelease _ x)
  have stuck (x : State) : dimView (stuckPulse x) = dimView x := by
    obtain ⟨i, kept, -⟩ := kept_stuckPulse x
    exact dimView_of_kept (s := { x with inputs := i }) kept
  have rest (x : State) : dimView (settle (enginePulse (monitorPulse (modePulse x)) (stageRan s))) = dimView x :=
    dimView_of_kept (by rw [kept_settle, kept_of_held (held_enginePulse _ _), kept_monitorPulse, kept_modePulse])
  have all := (rest _).trans ((stuck _).trans ((cable _).trans timers))
  unfold pulse
  dsimp only
  generalize settle (enginePulse (monitorPulse (modePulse (stuckPulse (cablePulse (advanceTimers s))))) (stageRan s)) = x at all ⊢
  exact all

theorem dimView_countWindow (s : State) : dimView (countWindow s) = dimView s := by
  unfold countWindow
  split
  · have taken := dimView_pulse (setMains s fun m => { m with windowCount := 0 })
    dsimp only
    generalize pulse _ = p at taken ⊢
    exact taken
  · rfl

end Sys2Proof.Machine

namespace Sys2Proof.Machine

open Sys2Proof

variable {s t x : State}

/-! ## A window start judges every unit (R95, R115) -/

/-- The mark of a unit after a window start at which DIM_UNLEARNED is judged by the demand of `t`: not while the bus is silent, and not of a unit
UNUSED (R115). -/
def windowMark (s t : State) (u : Fin 12) : Bool :=
  if s.jm.started = false ∨ s.bus.units[u].state = .unused then s.bus.units[u].dimRaised
  else decide (t.sched.effDim = .dim) && unitUnlearned s u

theorem started_of_view (h : dimView t = dimView s) : t.jm.started = s.jm.started := congrArg (fun v => v.2.2.1) h

theorem marks_of_view_dim (h : dimView t = dimView s) (u : Fin 12) :
    (t.bus.units[u].state = .unused ↔ s.bus.units[u].state = .unused) ∧ t.bus.units[u].dimRaised = s.bus.units[u].dimRaised := by
  have := dimMark_of_view h u
  simpa only [dimMark, Prod.mk.injEq, decide_eq_decide] using this

theorem windowMark_of_view {y : State} (h : dimView x = dimView s) (u : Fin 12) : windowMark x y u = windowMark s y u := by
  obtain ⟨unused, raised⟩ := marks_of_view_dim h u
  simp only [windowMark, started_of_view h, unused, raised, unitUnlearned_of_view h]

/-- The round that begins judges every unit before it goes on (R115). -/
theorem dimRaised_beginRound (s : State) (u : Fin 12) : (beginRound s).bus.units[u].dimRaised = windowMark s (beginRound s) u := by
  have dim : (beginRound s).sched.effDim = s.sched.effDim := congrArg (fun k : Steady => k.sched.effDim) (steady_beginRound s)
  cases silent : s.jm.started with
  | false =>
    have stays : beginRound s = s := if_neg (by rw [busRuns, silent]; decide)
    rw [stays, windowMark, if_pos (.inl silent)]
  | true =>
    have judged := dimRaised_judged s u
    have runs : (beginRound s).bus.units[u].dimRaised = ((idx 12).foldl judgeDim s).bus.units[u].dimRaised := by
      unfold beginRound
      rw [if_pos (show busRuns s = true from silent)]
      dsimp only
      generalize (idx 12).foldl judgeDim s = y
      have frame (z : State) : dimMark (goRound (takeRollRound z)).bus.units[u] = dimMark z.bus.units[u] := by
        refine (dimMark_of_view (dimView_goRound _) u).trans ?_
        unfold takeRollRound
        split <;> rfl
      exact congrArg Prod.snd (frame _)
    rw [runs, judged, windowMark, dim, dimBad]
    simp only [silent, Bool.true_eq_false, false_or]

theorem dimRaised_windowStart (s : State) (m : Nat) (gapBegin counted : Bool) (u : Fin 12) :
    (windowStart s m gapBegin counted).bus.units[u].dimRaised = windowMark s (windowStart s m gapBegin counted) u := by
  unfold windowStart
  dsimp only
  generalize hc : (if counted then countAfterGap _ else _) = y
  have clocked : dimView y = dimView s := by
    have opened : dimView (setBus (setMains (closeRound s) fun m' => { m' with lastWindow := some m }) fun b => { b with
        seq := nextWin b.seq, lastInGap := b.windowInGap || gapBegin
        windowInGap := (setMains (closeRound s) fun m' => { m' with lastWindow := some m }).mains.gap }) = dimView s := by
      have closed := dimView_closeRound s
      generalize closeRound s = z at closed ⊢
      exact closed
    rw [← hc]
    split
    · exact (dimView_countAfterGap _).trans ((dimView_windowClock _).trans opened)
    · exact (dimView_windowClock _).trans opened
  have before := (dimView_countWindow _).trans ((foldl_inv dimView greenGroup dimView_greenGroup (idx 32) y).trans clocked)
  generalize countWindow _ = z at before ⊢
  rw [dimRaised_beginRound, windowMark_of_view before]

/-! ## Edges, gaps and substitute windows -/

/-- Work on the mains either starts no window and leaves the marks, or starts one and judges every unit (R115). -/
def DimTaken (s t : State) : Prop :=
  (t.bus.seq = s.bus.seq ∧ dimView t = dimView s) ∨
    (t.bus.seq = nextWin s.bus.seq ∧ ∀ u : Fin 12, t.bus.units[u].dimRaised = windowMark s t u)

theorem dimTaken_window (hs : x.bus.seq = s.bus.seq) (hv : dimView x = dimView s) (m : Nat) (gapBegin counted : Bool) :
    DimTaken s (windowStart x m gapBegin counted) := by
  obtain ⟨-, seq, -⟩ := windowStart_pace x m gapBegin counted
  exact .inr ⟨seq.trans (by rw [hs]), fun u => (dimRaised_windowStart x m gapBegin counted u).trans (windowMark_of_view hv u)⟩

theorem dimTaken_windowIf {P : Prop} [Decidable P] (hs : x.bus.seq = s.bus.seq) (hv : dimView x = dimView s) (m : Nat)
    (gapBegin counted : Bool) : DimTaken s (if P then windowStart x m gapBegin counted else x) := by
  by_cases h : P
  · rw [if_pos h]
    exact dimTaken_window hs hv m gapBegin counted
  · rw [if_neg h]
    exact .inl ⟨hs, hv⟩

theorem DimTaken.finish (h : DimTaken s t) : DimTaken s (finish t) := by
  rcases h with ⟨seq, view⟩ | ⟨seq, marks⟩
  · exact .inl ⟨(finish_bus_seq t).trans seq, (dimView_of_kept (kept_finish t)).trans view⟩
  · refine .inr ⟨(finish_bus_seq t).trans seq, fun u => ?_⟩
    rw [windowMark, finish_sched, ← windowMark, ← marks u]
    exact congrArg (fun w : Vector UnitRec 12 => w[u].dimRaised) (finish_bus_units t)

theorem dimView_handGapEnd (s : State) (long : Bool) : dimView (handGapEnd s long) = dimView s := by
  have hk := kept_handGapEnd s long
  have handed (u : State) : dimView (gapProving (clearMisses u)) = dimView u := by
    refine dimView_of_steady rfl rfl fun v => ?_
    obtain ⟨-, units, -⟩ := gapProving_clearMisses u
    rw [(units v).1]
    rfl
  unfold handGapEnd
  rw [handed, dimView_of_kept hk]

theorem dimTaken_takeEdge (s : State) (p : Nat) : DimTaken s (takeEdge s p) := by
  cases h : s.mains.gap with
  | true =>
    obtain ⟨-, -, seq⟩ := handGapEnd_mains (gapEnded s p) (longGap s p)
    have view : dimView (handGapEnd (gapEnded s p) (longGap s p)) = dimView s := dimView_handGapEnd ..
    rw [takeEdge_gap h]
    generalize handGapEnd (gapEnded s p) (longGap s p) = x at seq view ⊢
    exact dimTaken_windowIf seq view ..
  | false =>
    have raised (y : State) : (takeFreqRaise y).bus.seq = y.bus.seq ∧ dimView (takeFreqRaise y) = dimView y := by
      unfold takeFreqRaise
      split
      · exact ⟨raise_bus_seq .., dimView_raise ..⟩
      · exact ⟨rfl, rfl⟩
    have cleared (y : State) : (takeFreqClear y).bus.seq = y.bus.seq ∧ dimView (takeFreqClear y) = dimView y := by
      unfold takeFreqClear
      split
      · exact ⟨clear_bus_seq .., dimView_clear ..⟩
      · exact ⟨rfl, rfl⟩
    rw [takeEdge_plain h]
    by_cases raises : EdgeRaises s p
    · rw [if_pos raises]
      exact .inl (raised _)
    rw [if_neg raises]
    by_cases clears : EdgeClears s p
    · rw [if_pos clears]
      exact .inl (cleared _)
    rw [if_neg clears]
    have view : dimView (edgeCounted s p) = dimView s := rfl
    exact dimTaken_windowIf (x := edgeCounted s p) rfl view ..

/-- The gap begun, with no window started yet (R96, R128). -/
abbrev gapBegun (s : State) : State := gapProving (setMains s fun m => { m with gap := true, sinceGap := none })

theorem gapBegins_gap (h : s.mains.gap = true) : gapBegins s = s := if_pos h

theorem gapBegins_substitute (h : s.mains.gap = false) (hb : s.mains.timebase = .substitute) : gapBegins s = gapBegun s :=
  (if_neg (by rw [h]; decide)).trans (if_neg (by rw [hb]; decide))

theorem gapBegins_locked (h : s.mains.gap = false) (hb : s.mains.timebase = .locked) : gapBegins s =
    windowStart (setMains (gapBegun s) fun m => { m with timebase := .substitute, subPhase := 0 }) (s.mains.lastEdge + gapTime s)
      true true :=
  (if_neg (by rw [h]; decide)).trans (if_pos hb)

theorem dimTaken_gapBegins (s : State) : DimTaken s (gapBegins s) := by
  cases h : s.mains.gap with
  | true => rw [gapBegins_gap h]; exact .inl ⟨rfl, rfl⟩
  | false =>
    have view : dimView (gapBegun s) = dimView s := rfl
    cases hb : s.mains.timebase with
    | substitute => rw [gapBegins_substitute h hb]; exact .inl ⟨rfl, view⟩
    | locked =>
      rw [gapBegins_locked h hb]
      exact dimTaken_window (x := setMains (gapBegun s) fun m => { m with timebase := .substitute, subPhase := 0 }) rfl view ..

/-- The state in which a substitute window starts: at 60 Hz the substitute phase has advanced (R95). -/
abbrev subAdvanced (s : State) : State := { s with mains := { s.mains with
  subPhase := if s.tables.startUp.mains = 1 then (s.mains.subPhase + 1) % 3 else s.mains.subPhase } }

theorem substituteStart_locked (h : s.mains.timebase = .locked) : substituteStart s = s := if_neg (by rw [h]; decide)

theorem substituteInterval_eq (s : State) : substituteInterval s =
    if s.tables.startUp.mains = 1 then (if s.mains.subPhase = 2 then 16000 else 17000) else 20000 := by
  unfold substituteInterval sixty
  simp only [decide_eq_true_eq]

/-- When the next substitute window starts (R95; log entry 22). -/
def substituteTime (s : State) : Nat :=
  match s.mains.lastWindow with
  | none => 0
  | some w => w + if s.tables.startUp.mains = 1 then (if s.mains.subPhase = 2 then 16000 else 17000) else 20000

theorem substituteStart_substitute (h : s.mains.timebase = .substitute) :
    substituteStart s = windowStart (subAdvanced s) (substituteTime s) false true := by
  have time : (match s.mains.lastWindow with | some w => w + substituteInterval s | none => 0) = substituteTime s := by
    rw [substituteInterval_eq]
    unfold substituteTime
    cases s.mains.lastWindow <;> rfl
  have advanced : (if sixty s then setMains s fun m => { m with subPhase := (m.subPhase + 1) % 3 } else s) = subAdvanced s := by
    unfold sixty subAdvanced
    by_cases h : s.tables.startUp.mains = 1 <;> simp [h, setMains]
  have started : substituteStart s = windowStart (if sixty s then setMains s fun m => { m with subPhase := (m.subPhase + 1) % 3 } else s)
      (match s.mains.lastWindow with | some w => w + substituteInterval s | none => 0) false true := if_pos h
  rw [started, time, advanced]

theorem dimTaken_substituteStart (s : State) : DimTaken s (substituteStart s) := by
  cases h : s.mains.timebase with
  | locked => rw [substituteStart_locked h]; exact .inl ⟨rfl, rfl⟩
  | substitute =>
    have view : dimView (subAdvanced s) = dimView s := rfl
    rw [substituteStart_substitute h]
    exact dimTaken_window (x := subAdvanced s) rfl view ..

theorem dimTaken_exec {c : Instr} (hc : (∃ p : Nat, c = .mainsEdge p) ∨ c = .mainsGapBegin ∨ c = .substituteWindowStart)
    (h : exec c s = .next t) : DimTaken s t := by
  rcases hc with ⟨p, rfl⟩ | rfl | rfl
  · obtain rfl : finish (takeEdge s p) = t := Host.Outcome.next.inj h
    exact (dimTaken_takeEdge s p).finish
  · obtain rfl : finish (gapBegins s) = t := Host.Outcome.next.inj h
    exact (dimTaken_gapBegins s).finish
  · obtain rfl : finish (substituteStart s) = t := Host.Outcome.next.inj h
    exact (dimTaken_substituteStart s).finish

end Sys2Proof.Machine

namespace Sys2Proof.Machine

open Sys2Proof

variable {s a b f j k x : State}

/-! ## What a window start does, block by block (R95 to R98, R108) -/

/-- What is outstanding of the round taken as missed (log entry 9). -/
def roundMissed (s : State) : State := times 12 timeoutOutstanding (times 12 missOutstanding s)

/-- The window opened: the round before it ended, and the sequence advanced (R108, R109, R119). -/
def windowOpened (a : State) (t : Nat) (gap : Bool) : State := { a with
  mains := { a.mains with lastWindow := some t }
  bus := { a.bus with
    seq := (a.bus.seq + 1) % 255, lastInGap := a.bus.windowInGap || gap, windowInGap := a.mains.gap
    round := State.reset.bus.round, sent := [], slot := passTimeout a.bus.slot } }

/-- The count after a gap, where the window start counts (R96). -/
def gapCounted (counted : Bool) (s : State) : State := if counted then countAfterGap s else s

/-- What stands when the window's counts are due: the window opened, the clock and the gap count advanced, and the observed green taken. -/
def windowCounted (s : State) (t : Nat) (gap counted : Bool) : State :=
  (idx 32).foldl greenGroup (gapCounted counted (windowClock (windowOpened (roundMissed s) t gap)))

theorem windowStart_blocks (s : State) (t : Nat) (gap counted : Bool) :
    windowStart s t gap counted = beginRound (countWindow (windowCounted s t gap counted)) := by
  have opened : windowOpened (roundMissed s) t gap = setBus (setMains (closeRound s) fun m => { m with lastWindow := some t }) fun b =>
      { b with
        seq := nextWin b.seq, lastInGap := b.windowInGap || gap
        windowInGap := (setMains (closeRound s) fun m => { m with lastWindow := some t }).mains.gap } := by
    unfold windowOpened closeRound roundMissed
    generalize times 12 timeoutOutstanding (times 12 missOutstanding s) = a
    rfl
  unfold windowStart windowCounted gapCounted
  rw [opened]

theorem steady_roundMissed (s : State) : steady (roundMissed s) = steady s :=
  (steady_times 12 timeoutOutstanding (fun s => by unfold timeoutOutstanding; split <;> simp) _).trans
    (steady_times 12 missOutstanding (fun s => by unfold missOutstanding; split <;> simp) s)

theorem tables_windowOpened (s : State) (t : Nat) (gap : Bool) : (windowOpened (roundMissed s) t gap).tables = s.tables := by
  have missed := steady_roundMissed s
  generalize roundMissed s = a at missed ⊢
  have tables : a.tables = s.tables := congrArg Steady.tables missed
  exact tables

theorem tables_windowCounted (s : State) (t : Nat) (gap counted : Bool) : (windowCounted s t gap counted).tables = s.tables := by
  have gapCount (x : State) : dimView (gapCounted counted x) = dimView x := by
    unfold gapCounted
    split
    · exact dimView_countAfterGap x
    · rfl
  have view : dimView (windowCounted s t gap counted) = dimView (windowOpened (roundMissed s) t gap) :=
    (foldl_inv dimView greenGroup dimView_greenGroup (idx 32) _).trans ((gapCount _).trans (dimView_windowClock _))
  exact (tables_of_view view).trans (tables_windowOpened s t gap)

variable {sixtyHz : Bool}

/-- The clock of a window start with the effective source MAINS: 20 ms, or 17, 17 and 16 ms (R98). -/
theorem windowClock_eq (h : sixty b = sixtyHz) : windowClock b =
    if effSource b = .crystal then b
    else if sixtyHz = true then advanceClock
      { b with clock := { b.clock with phase60 := (b.clock.phase60 + 1) % 3 } } (if b.clock.phase60 = 2 then 16 else 17)
    else advanceClock b 20 := by
  unfold windowClock mainsMs
  rw [h]
  cases effSource b <;> cases sixtyHz <;> rfl

/-- A count after a gap that has not come to 50, or finds MAINS_INTERRUPTION clear, is all there is to do (R96). -/
theorem takeInterruptionClear_waits (h : x.mains.interRaised = false ∨ ∀ n : Nat, x.mains.sinceGap = some n → n < 50) :
    takeInterruptionClear x = x := by
  refine if_neg fun due => ?_
  obtain ⟨raised, n, since, full⟩ := interruptionClearDue_iff.1 due
  rcases h with clear | short
  · rw [clear] at raised; cases raised
  · exact absurd (short n since) (Nat.not_lt.2 full)

theorem pulseEvery_eq (h : sixty f = sixtyHz) : pulseEvery f = if sixtyHz = true then 6 else 5 := by
  unfold pulseEvery
  rw [h]

theorem countWindow_waits (h : f.mains.windowCount + 1 < pulseEvery f) : countWindow f =
    { f with mains := { f.mains with windowCount := f.mains.windowCount + 1 }, moment := .window false } :=
  if_neg (Nat.not_le.2 h)

theorem pulseStands_pulse (x : State) : pulseStands (pulse x) = decide ((pulse x).moment = .pulse) := by
  unfold pulseStands
  rcases pulse_moment x with h | h <;> rw [h] <;> rfl

theorem countWindow_pulses (h : pulseEvery f ≤ f.mains.windowCount + 1)
    (hx : x = pulse { f with mains := { f.mains with windowCount := 0 } }) :
    countWindow f = { x with moment := .window (decide (x.moment = .pulse)) } := by
  have stands := pulseStands_pulse (setMains f fun m => { m with windowCount := 0 })
  subst hx
  refine (if_pos h).trans ?_
  dsimp only
  rw [stands]
  rfl

/-! ## The round that begins (R109, R115, R119) -/

theorem beginRound_silent (h : s.jm.started = false) : beginRound s = s := if_neg (by rw [busRuns, h]; decide)

/-- The round about to begin is a roll-call round (R109). -/
def rollComes (j : State) : Bool := decide (rollPeriod j ≤ min 60 (j.bus.sinceRoll + 1))

/-- A state with another round in progress. -/
abbrev withRound (k : State) (r : Round) : State := { k with bus := { k.bus with round := r } }

/-- The roll-call count and the pass slot of the round that begins (R109, R119). -/
def roundReady (j : State) : State := { j with bus := { j.bus with
  sinceRoll := if rollComes j = true then 0 else min 60 (j.bus.sinceRoll + 1)
  slot := duePass j.bus.slot } }

/-- The round as it begins, with nothing exchanged yet (R109). -/
def roundBegun (j : State) : State := withRound (roundReady j) ⟨true, admitted j, none, rollComes j, [], none, false⟩

theorem beginRound_runs (h : s.jm.started = true) (hj : j = (idx 12).foldl judgeDim s) : beginRound s = goRound (roundBegun j) := by
  have taken : takeRollRound (setBus j fun b => { b with
      slot := duePass b.slot, sinceRoll := bump 60 b.sinceRoll
      round := { active := true, poll := admitted j, awaiting := none, isRoll := false, roll := [], called := none, finished := false } }) =
      roundBegun j := by
    have due (r : Round) : rollDue (setBus j fun b => { b with slot := duePass b.slot, sinceRoll := bump 60 b.sinceRoll, round := r }) =
        rollComes j := rfl
    unfold takeRollRound roundBegun roundReady
    rw [due]
    cases rollComes j <;> rfl
  rw [← taken]
  unfold beginRound
  rw [if_pos (show busRuns s = true from h), ← hj]

section Begun

variable {u : Fin 12} {rest polls rolls : List (Fin 12)} {due : Bool}

/-- The first unit to be polled is polled (R109). -/
theorem goRound_poll : goRound (withRound k ⟨true, u :: rest, none, due, [], none, false⟩) =
    compose (withRound k ⟨true, rest, some u, due, [], none, false⟩) u := rfl

/-- With no unit to be polled the roll call is taken (R109). -/
theorem goRound_roll : goRound (withRound k ⟨true, [], none, due, [], none, false⟩) =
    rollStep (withRound k ⟨true, [], none, false, if due then unadmitted k else [], none, false⟩) := by
  cases due <;> rfl

theorem rollStep_calls : rollStep (withRound k ⟨true, [], none, false, u :: rest, none, false⟩) =
    { k with bus := { k.bus with
      round := ⟨true, [], none, false, rest, some u, false⟩, sent := k.bus.sent ++ [.rollCall u] } } := rfl

/-- The pass slot after a round in which its unit is not ADMITTED (R119). -/
def passAbandoned (p : PassSlot) : PassSlot :=
  match p with
  | .waiting m _ => .answered m .abandoned []
  | x => x

theorem withRound_slot {r : Round} {p : PassSlot} (h : k.bus.slot = p) :
    withRound k r = { k with bus := { k.bus with round := r, slot := p } } := by
  subst h
  rfl

/-- With nobody to be called the PASS of the round, if there is one, is abandoned when no unit is ADMITTED (R119). -/
theorem rollStep_ends (none_ : admitted k = []) (hs : ∀ m : PassMsg, k.bus.slot ≠ .waiting m false) :
    rollStep (withRound k ⟨true, [], none, false, [], none, false⟩) =
    { k with bus := { k.bus with
      round := ⟨true, [], none, false, [], none, true⟩
      slot := passAbandoned k.bus.slot } } := by
  have out (v : Fin 12) : k.bus.units[v].state ≠ .admitted := by
    intro h
    have mem : v ∈ admitted k := List.mem_filter.2 ⟨List.mem_finRange v, decide_eq_true h⟩
    rw [none_] at mem
    cases mem
  have ends : rollStep (withRound k ⟨true, [], none, false, [], none, false⟩) =
      passStep (withRound k ⟨true, [], none, false, [], none, true⟩) := rfl
  rw [ends]
  unfold passStep
  split
  next m slot =>
    have waiting : k.bus.slot = .waiting m true := slot
    rw [if_neg (out m.unit), waiting]
    rfl
  next slot =>
    have empty : k.bus.slot = .empty := slot
    exact withRound_slot (by rw [empty]; rfl)
  next m slot => exact absurd slot (hs m)
  next m slot =>
    have listening : k.bus.slot = .listening m := slot
    exact withRound_slot (by rw [listening]; rfl)
  next m r p slot =>
    have answered : k.bus.slot = .answered m r p := slot
    exact withRound_slot (by rw [answered]; rfl)

end Begun

theorem unadmitted_eq (j : State) : unadmitted j = (idx 12).filter fun u =>
    decide (j.bus.units[u].state = .expected ∨ j.bus.units[u].state = .mismatch ∨ j.bus.units[u].state = .lost) := by
  unfold unadmitted
  simp only [Bool.decide_or, Bool.or_assoc]

end Sys2Proof.Machine

namespace Sys2Proof.Machine

open Sys2Proof

variable {s : State}

/-! ## What is seen of a window start, a gap and a substitute window (R95, R96, R128) -/

/-- The marks of every unit after work that may start a window (R115). -/
theorem dimRaised_taken {t : State} (h : DimTaken s t) (u : Fin 12) :
    (t.bus.seq = s.bus.seq ∨ s.jm.started = false ∨ s.bus.units[u].state = .unused →
      t.bus.units[u].dimRaised = s.bus.units[u].dimRaised) ∧
    (t.bus.seq ≠ s.bus.seq → s.jm.started = true → s.bus.units[u].state ≠ .unused →
      (t.bus.units[u].dimRaised = true ↔ t.sched.effDim = .dim ∧ Undimmable s u)) := by
  rcases h with ⟨seq, view⟩ | ⟨seq, marks⟩
  · exact ⟨fun _ => (marks_of_view_dim view u).2, fun other => absurd seq other⟩
  · constructor
    · rintro (same | silent)
      · exact absurd (seq.symm.trans same) (nextWin_ne _)
      · rw [marks, windowMark, if_pos silent]
    · intro _ runs used
      have judged : ¬ (s.jm.started = false ∨ s.bus.units[u].state = .unused) := by
        rw [runs]
        exact fun c => c.elim (fun c => nomatch c) used
      rw [marks, windowMark, if_neg judged, Bool.and_eq_true, decide_eq_true_iff, unitUnlearned_iff]

/-- The judging of a unit not UNUSED, by whether it is to be held raised (R115). -/
theorem judgeDim_cases {u : Fin 12} {bad : Prop} (used : s.bus.units[u].state ≠ .unused) (hb : bad ↔ s.sched.effDim = .dim ∧ Undimmable s u) :
    (bad → s.bus.units[u].dimRaised = false → judgeDim s u = raise (setUnit s u fun x => { x with dimRaised := true })
      .dimUnlearned (num u) .absent) ∧
    (¬ bad → s.bus.units[u].dimRaised = true → judgeDim s u = clear (setUnit s u fun x => { x with dimRaised := false })
      .dimUnlearned (num u)) ∧
    ((bad ↔ s.bus.units[u].dimRaised = true) → judgeDim s u = s) := by
  rw [judgeDim_used used]
  have judged : dimBad s u = true ↔ bad := dimBad_iff.trans hb.symm
  refine ⟨fun h low => if_pos ⟨judged.2 h, low⟩, fun h high => ?_, fun same => ?_⟩
  · have good : dimBad s u = false := Bool.eq_false_iff.2 fun c => h (judged.1 c)
    rw [if_neg (by rw [good]; exact fun c => nomatch c.1), if_pos ⟨good, high⟩]
  · have held : dimBad s u = s.bus.units[u].dimRaised := Bool.eq_iff_iff.2 (judged.trans same)
    rw [held, if_neg fun c => absurd (c.1.symm.trans c.2) (by decide), if_neg fun c => absurd (c.1.symm.trans c.2) (by decide)]

/-- What a substitute window start writes of the mains supervisor and the sequence (R95, R97). -/
theorem substitute_written (s : State) :
    (windowStart (subAdvanced s) (substituteTime s) false true).bus.seq = (s.bus.seq + 1) % 255 ∧
    (windowStart (subAdvanced s) (substituteTime s) false true).mains.windowCount =
      (if (if s.tables.startUp.mains = 1 then 6 else 5) ≤ s.mains.windowCount + 1 then 0 else s.mains.windowCount + 1) ∧
    (windowStart (subAdvanced s) (substituteTime s) false true).mains.lastWindow = some (substituteTime s) ∧
    (windowStart (subAdvanced s) (substituteTime s) false true).mains.subPhase =
      (if s.tables.startUp.mains = 1 then (s.mains.subPhase + 1) % 3 else s.mains.subPhase) ∧
    (windowStart (subAdvanced s) (substituteTime s) false true).mains.timebase = s.mains.timebase ∧
    (windowStart (subAdvanced s) (substituteTime s) false true).tables = s.tables := by
  have part := edgePart_windowStart (subAdvanced s) (substituteTime s) false true
  obtain ⟨tables, seq, lastWindow, windowCount, -, -⟩ := windowStart_pace (subAdvanced s) (substituteTime s) false true
  have every : pulseEvery (subAdvanced s) = if s.tables.startUp.mains = 1 then 6 else 5 := by
    unfold pulseEvery sixty
    simp only [decide_eq_true_eq]
  rw [every] at windowCount
  generalize windowStart (subAdvanced s) (substituteTime s) false true = x at *
  simp only [edgePart, Prod.mk.injEq] at part
  obtain ⟨-, -, -, -, timebase, subPhase⟩ := part
  exact ⟨seq, windowCount, lastWindow, subPhase, timebase, tables⟩

theorem gapTime_eq (s : State) : gapTime s = if s.tables.startUp.mains = 1 then 25000 else 30000 := by
  unfold gapTime sixty
  simp only [decide_eq_true_eq]

/-- The gap begun in LOCKED: the timebase goes to the crystal, with the phase 0 (R96; log entry 41). -/
abbrev gapLocked (s : State) : State := setMains (gapBegun s) fun m => { m with timebase := .substitute, subPhase := 0 }

/-- What a gap's beginning writes of the mains supervisor and the sequence (R95, R96). -/
theorem gapBegins_written (h : s.mains.gap = false) :
    (gapBegins s).mains.gap = true ∧ (gapBegins s).mains.sinceGap = none ∧
    (s.mains.timebase = .locked → (gapBegins s).mains.timebase = .substitute ∧ (gapBegins s).bus.seq = (s.bus.seq + 1) % 255) ∧
    (s.mains.timebase = .substitute → (gapBegins s).mains.timebase = .substitute ∧ (gapBegins s).bus.seq = s.bus.seq) ∧
    (gapBegins s).tables = s.tables := by
  cases hb : s.mains.timebase with
  | substitute =>
    rw [gapBegins_substitute h hb]
    exact ⟨rfl, rfl, nofun, fun _ => ⟨hb, rfl⟩, rfl⟩
  | locked =>
    have part := edgePart_windowStart (gapLocked s) (s.mains.lastEdge + gapTime s) true true
    obtain ⟨tables, seq, -, -, -, sinceGap⟩ := windowStart_pace (gapLocked s) (s.mains.lastEdge + gapTime s) true true
    rw [gapBegins_locked h hb]
    generalize windowStart (gapLocked s) (s.mains.lastEdge + gapTime s) true true = x at *
    simp only [edgePart, Prod.mk.injEq] at part
    obtain ⟨gap, -, -, -, timebase, -⟩ := part
    exact ⟨gap, sinceGap rfl, fun _ => ⟨timebase, seq⟩, nofun, tables⟩

/-- A gap's beginning or end clears every on-run and last window (R128). -/
theorem gapProving_eq (s : State) : gapProving s = { s with prov := { s.prov with
      lastWin := Vector.replicate 12 none, circuits := (gapProving s).prov.circuits } } ∧
    ∀ c : Fin 96, (gapProving s).prov.circuits[c] = { s.prov.circuits[c] with onRun := 0 } := ⟨rfl, fun _ => getElem_tab ..⟩

/-! ## SubstituteWindows -/

/-- The round that begins, by the units to be polled and to be called (R109, R119). -/
theorem roundBegins {j k : State} {due : Bool} {polls rolls : List (Fin 12)} (hd : due = rollComes j) (hp : polls = admitted j)
    (hr : rolls = if due = true then unadmitted j else []) (hk : k = roundBegun j) :
    (∀ (u : Fin 12) (rest : List (Fin 12)), polls = u :: rest →
      goRound k = compose { k with bus := { k.bus with round := ⟨true, rest, some u, due, [], none, false⟩ } } u) ∧
    (∀ (u : Fin 12) (rest : List (Fin 12)), polls = [] → rolls = u :: rest → goRound k = { k with bus := { k.bus with
      round := ⟨true, [], none, false, rest, some u, false⟩, sent := k.bus.sent ++ [.rollCall u] } }) ∧
    (polls = [] → rolls = [] → goRound k = { k with bus := { k.bus with
      round := ⟨true, [], none, false, [], none, true⟩, slot := passAbandoned k.bus.slot } }) := by
  have begun : k = withRound (roundReady j) ⟨true, polls, none, due, [], none, false⟩ := by rw [hk, hp, hd]; rfl
  have called : (if due then unadmitted (roundReady j) else []) = rolls := hr.symm
  refine ⟨fun u rest he => ?_, fun u rest he hc => ?_, fun he hc => ?_⟩
  · rw [begun, he]
    exact goRound_poll
  · rw [begun, he, goRound_roll, called, hc]
    exact rollStep_calls
  · have ready (m : PassMsg) : (roundReady j).bus.slot ≠ .waiting m false := by
      show duePass j.bus.slot ≠ .waiting m false
      cases j.bus.slot <;> simp [duePass]
    rw [begun, he, goRound_roll, called, hc]
    exact rollStep_ends (hp.symm.trans he) ready

theorem windowBlocks (s : State) (t : Nat) (gap counted : Bool) : ∃ f h : State, f = windowCounted s t gap counted ∧ h = countWindow f ∧
    windowStart s t gap counted = beginRound h ∧ f.tables = s.tables ∧ h.tables = s.tables :=
  ⟨_, _, rfl, rfl, windowStart_blocks .., tables_windowCounted .., (tables_of_view (dimView_countWindow _)).trans (tables_windowCounted ..)⟩

/-- Settles O30: a window start block by block, and the states in which a substitute window and a gap start one. -/
theorem substituteWindows : Obligations.SubstituteWindows := by
  refine ⟨fun s t c hc h u => dimRaised_taken (dimTaken_exec hc h) u, fun s u bad used hb => judgeDim_cases used hb, fun s => ?_,
    fun s t gap counted sixtyHz hz => ?_, fun s => ?_⟩
  · refine ⟨fun locked => congrArg (fun t => Host.Outcome.next (finish t)) (substituteStart_locked locked), fun sub => ?_,
      fun gap => congrArg (fun t => Host.Outcome.next (finish t)) (gapBegins_gap gap), fun open_ => ?_⟩
    · obtain ⟨seq, windowCount, lastWindow, subPhase, timebase, tables⟩ := substitute_written s
      refine ⟨finish (substituteStart s), rfl, ?_⟩
      rw [finish_bus_seq, finish_mains, finish_tables, substituteStart_substitute sub]
      refine ⟨seq, windowCount, lastWindow.trans ?_, subPhase, timebase.trans sub, tables⟩
      unfold substituteTime
      cases s.mains.lastWindow <;> rfl
    · refine ⟨finish (gapBegins s), rfl, ?_⟩
      rw [finish_bus_seq, finish_mains, finish_tables]
      exact gapBegins_written open_
  · obtain ⟨f, h, hf, hh, started, tables, tables_h⟩ := windowBlocks s t gap counted
    have sixty_of {x : State} (hx : x.tables = s.tables) : sixty x = sixtyHz := by rw [sixty, hx, hz]
    have every : pulseEvery f = if sixtyHz = true then 6 else 5 := pulseEvery_eq (sixty_of tables)
    refine ⟨roundMissed s, windowOpened (roundMissed s) t gap, windowClock (windowOpened (roundMissed s) t gap),
      gapCounted counted (windowClock (windowOpened (roundMissed s) t gap)), f, h, rfl, ?_,
      windowClock_eq (sixty_of (tables_windowOpened s t gap)), fun hc => ?_, fun hc => ⟨_, rfl, fun raised full => ?_, fun short => ?_⟩,
      hf, fun waits => ?_, fun comes => ?_, fun silent => ?_, fun runs => ?_⟩
    · generalize roundMissed s = a
      unfold windowOpened
      cases a.bus.slot <;> rfl
    · rw [hc]; rfl
    · rw [hc]
      exact takeInterruptionClear_due (interruptionClearDue_iff.2 ⟨raised, 50, full, Nat.le_refl 50⟩)
    · rw [hc]
      exact takeInterruptionClear_waits short
    · rw [hh]
      exact countWindow_waits (by rw [every]; exact waits)
    · refine ⟨_, rfl, rfl, ?_⟩
      rw [hh]
      exact countWindow_pulses (by rw [every]; exact comes) rfl
    · rw [started, beginRound_silent silent]
    · generalize hj : (idx 12).foldl judgeDim h = j
      have tables_j : j.tables = s.tables := by
        have ground := foldl_inv dimGround judgeDim dimGround_judgeDim (idx 12) h
        rw [hj] at ground
        exact (congrArg Prod.fst ground).trans tables_h
      rw [started, beginRound_runs runs hj.symm]
      refine ⟨j, roundBegun j, rollComes j, admitted j, if rollComes j = true then unadmitted j else [], rfl, ?_, rfl, ?_, ?_,
        roundBegins rfl rfl rfl rfl⟩
      · rw [rollComes, decide_eq_true_iff, rollPeriod, sixty_of tables_j]
      · rw [unadmitted_eq]
      · unfold roundBegun roundReady
        cases j.bus.slot <;> rfl
  · refine ⟨fun sub => ?_, fun open_ sub => ?_, fun open_ locked => ?_⟩
    · refine congrArg (fun t => Host.Outcome.next (finish t)) ((substituteStart_substitute sub).trans ?_)
      unfold substituteTime
      cases s.mains.lastWindow <;> rfl
    · obtain ⟨left, circuits⟩ := gapProving_eq (setMains s fun m => { m with gap := true, sinceGap := none })
      exact ⟨gapBegun s, left, circuits, congrArg (fun t => Host.Outcome.next (finish t)) (gapBegins_substitute open_ sub)⟩
    · obtain ⟨-, circuits⟩ := gapProving_eq (setMains s fun m => { m with gap := true, sinceGap := none })
      refine ⟨gapLocked s, rfl, circuits, congrArg (fun t => Host.Outcome.next (finish t)) ((gapBegins_locked open_ locked).trans ?_)⟩
      rw [gapTime_eq]

end Sys2Proof.Machine

namespace Sys2Proof.Machine

open Sys2Proof

variable {s t : State} {u : Fin 12}

/-! ## Rewriting a unit's record -/

theorem setUnit_congr {f g : UnitRec → UnitRec} (h : f s.bus.units[u] = g s.bus.units[u]) : setUnit s u f = setUnit s u g := by
  simp only [setUnit, upd, h]

theorem setUnit_same {f : UnitRec → UnitRec} (h : f s.bus.units[u] = s.bus.units[u]) : setUnit s u f = s := by
  unfold setUnit
  rw [upd_id _ _ _ h]

/-! ## What the work on an exchange leaves of the line (R109, R112, R119) -/

/-- What the bus controller has sent in the round, the pass slot and the round. -/
def line (s : State) : List BusFrame × PassSlot × Round := (s.bus.sent, s.bus.slot, s.bus.round)

theorem line_of_ground (h : ground t = ground s) : line t = line s := by simp only [line, ground_bus h]

theorem line_of_kept (h : kept t = kept s) : line t = line s := by
  simp only [line, bus_sent_of_kept h, bus_slot_of_kept h, bus_round_of_kept h]

theorem line_foldl {α : Type} (f : State → α → State) (h : ∀ s a, line (f s a) = line s) (l : List α) (s : State) :
    line (l.foldl f s) = line s := foldl_inv line f h l s

theorem line_setUnit (s : State) (u : Fin 12) (f : UnitRec → UnitRec) : line (setUnit s u f) = line s := rfl

theorem line_unitLeavesCable (s : State) (u : Fin 12) : line (unitLeavesCable s u) = line s :=
  line_foldl _ (fun x (tc : Fin 8 × Fin 96) => (rfl : line (setCable x tc.2 _) = line x)) _ s

theorem line_unitLeavesProving (s : State) (u : Fin 12) : line (unitLeavesProving s u) = line s := by
  refine (line_of_ground (ground_recomputeRed _)).trans (line_foldl _ (fun x tc => ?_) _ _)
  split
  · rfl
  · exact line_of_ground (ground_changeVerdict x tc.2 .unknown)

theorem line_dropInputs (s : State) (u : Fin 12) : line (dropInputs s u) = line s := by
  obtain ⟨i, c, g, dropped, -⟩ := dropInputs_frame s u
  rw [dropped]
  rfl

theorem line_leaveAdmitted (s : State) (u : Fin 12) : line (leaveAdmitted s u) = line s := by
  unfold leaveAdmitted
  rw [line_unitLeavesProving, line_unitLeavesCable, line_of_kept (kept_settle _), line_dropInputs, line_setUnit]

theorem line_takeLost (s : State) (u : Fin 12) : line (takeLost s u) = line s := by
  unfold takeLost
  dsimp only
  split
  · rw [line_leaveAdmitted]
    split
    · rfl
    · exact (line_of_kept (kept_raise ..)).trans rfl
  · rfl

/-- A miss sends nothing and leaves the pass slot and the round. -/
theorem line_takeMiss (s : State) (u : Fin 12) : line (takeMiss s u) = line s := by
  have resolved : line (resolveTests (between s) u (lastWindowNo s) none) = line s :=
    line_of_ground (s := between s) (ground_resolveTests ..)
  unfold takeMiss
  dsimp only
  split
  · rw [line_takeLost, countMiss, line_setUnit, resolved]
  · exact resolved

theorem bus_of_line {b : Bus} (h : line t = (b.sent, b.slot, b.round)) : t.bus.sent = b.sent ∧ t.bus.slot = b.slot ∧ t.bus.round = b.round := by
  simp only [line, Prod.mk.injEq] at h
  exact h

/-! ## The last step of a round (R109, R119) -/

theorem Round.ext {r q : Round} (active : r.active = q.active) (poll : r.poll = q.poll) (awaiting : r.awaiting = q.awaiting)
    (isRoll : r.isRoll = q.isRoll) (roll : r.roll = q.roll) (called : r.called = q.called) (finished : r.finished = q.finished) : r = q := by
  obtain ⟨a, p, w, i, l, c, f⟩ := r
  cases active; cases poll; cases awaiting; cases isRoll; cases roll; cases called; cases finished
  rfl

/-- With the exchanges and the roll call over, the round takes its last step. -/
theorem goRound_last (h : s.bus.round = ⟨true, [], none, false, [], none, false⟩) :
    goRound s = passStep (withRound s ⟨true, [], none, false, [], none, true⟩) := by
  have here : s = withRound s ⟨true, [], none, false, [], none, false⟩ := by rw [← h]
  rw [here]
  exact goRound_roll

theorem passStep_idle (h : ∀ m : PassMsg, s.bus.slot ≠ .waiting m true) : passStep s = s := by
  unfold passStep
  split
  next m slot => exact absurd slot (h m)
  all_goals rfl

theorem passStep_sends {m : PassMsg} (h : s.bus.slot = .waiting m true) (ha : s.bus.units[m.unit].state = .admitted) :
    passStep s = { s with bus := { s.bus with
      slot := .listening m, sent := s.bus.sent ++ [.pass m.unit m.kind m.payload] } } := by
  unfold passStep
  rw [h]
  exact if_pos ha

theorem passStep_abandons {m : PassMsg} (h : s.bus.slot = .waiting m true) (ha : s.bus.units[m.unit].state ≠ .admitted) :
    passStep s = { s with bus := { s.bus with slot := .answered m .abandoned [] } } := by
  unfold passStep
  rw [h]
  exact if_neg ha

theorem passStep_units (s : State) : (passStep s).bus.units = s.bus.units := by
  unfold passStep
  split
  · split <;> rfl
  all_goals rfl

theorem passStep_round (s : State) : (passStep s).bus.round = s.bus.round := by
  unfold passStep
  split
  · split <;> rfl
  all_goals rfl

/-- A round of which nothing is left but its last step, once what was awaited is over. -/
structure LastStep (s t : State) : Prop where
  round : t.bus.round = ⟨true, [], none, false, [], none, true⟩
  idle : (∀ m : PassMsg, s.bus.slot ≠ .waiting m true) → t.bus.slot = s.bus.slot ∧ t.bus.sent = s.bus.sent
  due : ∀ m : PassMsg, s.bus.slot = .waiting m true →
    (t.bus.units[m.unit].state = .admitted → t.bus.slot = .listening m ∧
      t.bus.sent = s.bus.sent ++ [.pass m.unit m.kind m.payload]) ∧
    (t.bus.units[m.unit].state ≠ .admitted → t.bus.slot = .answered m .abandoned [] ∧ t.bus.sent = s.bus.sent)

theorem lastStep_goRound {x : State} (hx : x.bus.round = ⟨true, [], none, false, [], none, false⟩) (sent : x.bus.sent = s.bus.sent)
    (slot : x.bus.slot = s.bus.slot) :
    LastStep s (goRound x) := by
  rw [goRound_last hx]
  have sent : (withRound x ⟨true, [], none, false, [], none, true⟩).bus.sent = s.bus.sent := sent
  have slot : (withRound x ⟨true, [], none, false, [], none, true⟩).bus.slot = s.bus.slot := slot
  generalize hy : withRound x ⟨true, [], none, false, [], none, true⟩ = y at sent slot ⊢
  refine ⟨?_, fun idle => ?_, fun m due => ⟨fun adm => ?_, fun out => ?_⟩⟩
  · rw [passStep_round, ← hy]
  · rw [passStep_idle fun m => slot ▸ idle m]
    exact ⟨slot, sent⟩
  · rw [passStep_units] at adm
    rw [passStep_sends (slot.trans due) adm, sent]
    exact ⟨rfl, rfl⟩
  · rw [passStep_units] at out
    rw [passStep_abandons (slot.trans due) out]
    exact ⟨rfl, sent⟩

theorem LastStep.finish (h : LastStep s t) : LastStep s (finish t) := by
  obtain ⟨round, idle, due⟩ := h
  refine ⟨?_, ?_, ?_⟩
  · rw [finish_bus_round]; exact round
  · rw [finish_bus_slot, finish_bus_sent]; exact idle
  · rw [finish_bus_slot, finish_bus_sent, finish_bus_units]; exact due

theorem exec_senseMiss (s : State) (u : Fin 12) : exec (.senseMiss u) s = .next (finish (senseMissed s u)) := rfl

theorem exec_identTimeout (s : State) (u : Fin 12) : exec (.identTimeout u) s = .next (finish (identTimedOut s u)) := rfl

theorem senseMissed_awaited (h : s.bus.round.awaiting = some u) : senseMissed s u = exchangeOver (takeMiss s u) := if_pos h

theorem senseMissed_other (h : s.bus.round.awaiting ≠ some u) : senseMissed s u = s := if_neg h

theorem identTimedOut_called (h : s.bus.round.called = some u) : identTimedOut s u = callOver s := if_pos h

theorem identTimedOut_other (h : s.bus.round.called ≠ some u) : identTimedOut s u = s := if_neg h

theorem lastStep_exchange (h : s.bus.round = ⟨true, [], some u, false, [], none, false⟩) : LastStep s (exchangeOver (takeMiss s u)) := by
  obtain ⟨sent, slot, round⟩ := bus_of_line (b := s.bus) (line_takeMiss s u)
  refine lastStep_goRound ?_ sent slot
  show { (takeMiss s u).bus.round with awaiting := none } = _
  rw [round, h]

theorem lastStep_call (h : s.bus.round = ⟨true, [], none, false, [], some u, false⟩) : LastStep s (callOver s) := by
  refine lastStep_goRound ?_ rfl rfl
  show { s.bus.round with called := none } = _
  rw [h]

/-! ## FORWARD_SET and PASS (R118, R120) -/

/-- Taking a request into service leaves the field bus as it was. -/
theorem taken_bus (kind tag : Byte) (s : State) : (taken kind tag s).bus = s.bus := by
  have heard : held (received s) = held (setPort (between s) fun p => { p with receiver := .hunting }) := by simp [received]
  have queue : (taken kind tag s).bus.queue = s.bus.queue := by
    have queued := queue_of_held heard
    unfold taken
    generalize received s = r at queued ⊢
    exact queued
  rw [bus_eq_of_kept_queue (kept_taken s kind tag) (b := s.bus) rfl, queue]

theorem mem_unitSet (us : List Nat) (k : Fin 12) : mem (unitSet us) k = true ↔ num k ∈ us := by
  unfold unitSet
  rw [mem_gather (fun u : Fin 12 => us.contains (num u)) (Nat.le_refl 12), mem_zero]
  simp

theorem forwardSetReq_long {us : List Nat} (h : 12 < us.length) (s : State) : forwardSetReq us s = ⟨s, .malformed, .none⟩ :=
  checked_refuse (by rw [decide_eq_true h, firstRefusal_true])

theorem within_unit {n : Nat} : within 1 12 n = true ↔ 1 ≤ n ∧ n ≤ 12 := by simp [within]

theorem forwardSetReq_outside {us : List Nat} (h : us.length ≤ 12) (out : ∃ n ∈ us, n = 0 ∨ 12 < n) (s : State) :
    forwardSetReq us s = ⟨s, .badIndex, .none⟩ := by
  obtain ⟨n, mem, bad⟩ := out
  have bad : (us.any fun u => !within 1 12 u) = true :=
    List.any_eq_true.2 ⟨n, mem, by rw [Bool.not_eq_true', ← Bool.not_eq_true, within_unit]; omega⟩
  exact checked_refuse (by rw [decide_eq_false (Nat.not_lt.2 h), bad, firstRefusal_false, firstRefusal_true])

theorem forwardSetReq_good {us : List Nat} (h : us.length ≤ 12) (inside : ∀ n ∈ us, 1 ≤ n ∧ n ≤ 12) (s : State) :
    forwardSetReq us s = done (setBus s fun b => { b with forward := unitSet us }) := by
  have good : (us.any fun u => !within 1 12 u) = false := by
    rw [List.any_eq_false]
    intro n mem
    rw [Bool.not_eq_true', Bool.not_eq_false]
    exact within_unit.2 (inside n mem)
  exact checked_pass (by rw [decide_eq_false (Nat.not_lt.2 h), good, firstRefusal_false, firstRefusal_false, firstRefusal_nil])

theorem passReq_long {payload : List Byte} (h : 48 < payload.length) (tag : Byte) (n : Nat) (kind : Byte) (s : State) :
    passReq tag n kind payload s = ⟨s, .malformed, .none⟩ := if_pos h

theorem passReq_outside {payload : List Byte} {n : Nat} (h : payload.length ≤ 48) (hn : ofNum 12 n = none) (tag kind : Byte) (s : State) :
    passReq tag n kind payload s = ⟨s, .badIndex, .none⟩ := by
  unfold passReq
  rw [if_neg (Nat.not_lt.2 h), hn]
  rfl

/-- PASS to a unit: the kind, the slot and the unit's state are judged in this order (R118). -/
theorem passReq_unit {payload : List Byte} {n : Nat} {k : Fin 12} (h : payload.length ≤ 48) (hn : ofNum 12 n = some k) (tag kind : Byte)
    (s : State) : passReq tag n kind payload s =
      if kind.toNat < 0x40 ∨ 0x4F < kind.toNat then ⟨s, .filtered, .none⟩
      else if s.bus.slot ≠ .empty then ⟨s, .busy, .none⟩
      else if s.bus.units[k].state ≠ .admitted then ⟨s, .badState, .none⟩
      else ⟨setBus s fun b => { b with slot := .waiting ⟨k, kind, payload, tag⟩ false }, .done, .none⟩ := by
  have filtered : (!within 0x40 0x4F kind.toNat) = decide (kind.toNat < 0x40 ∨ 0x4F < kind.toNat) := by
    unfold within
    rw [← Bool.decide_and, ← decide_not]
    exact decide_eq_decide.2 (by omega)
  unfold passReq
  rw [if_neg (Nat.not_lt.2 h), hn]
  dsimp only
  unfold passTo
  rw [filtered]
  split
  next bad => exact checked_refuse (by rw [decide_eq_true bad, firstRefusal_true])
  next kindGood =>
    split
    next used => exact checked_refuse (by rw [decide_eq_false kindGood, decide_eq_true used, firstRefusal_false, firstRefusal_true])
    next free =>
      split
      next out =>
        exact checked_refuse (by
          rw [decide_eq_false kindGood, decide_eq_false free, decide_eq_true out, firstRefusal_false, firstRefusal_false, firstRefusal_true])
      next adm =>
        exact checked_pass (by
          rw [decide_eq_false kindGood, decide_eq_false free, decide_eq_false adm, firstRefusal_false, firstRefusal_false,
            firstRefusal_false, firstRefusal_nil])

/-! ## PASS_REPLY_RECEIVED (R119) -/

theorem passArrives_answers {f : PassFrame} {m : PassMsg} (h : s.bus.slot = .listening m) (good : f.good = true) (unit : f.unit = num m.unit)
    (kind : f.kind = m.kind) : passArrives s f = setBus s fun b => { b with slot := .answered m .replied f.payload } := by
  unfold passArrives
  rw [h]
  exact if_pos (by rw [good, decide_eq_true unit, decide_eq_true kind]; rfl)

theorem passArrives_other {f : PassFrame}
    (h : ∀ m : PassMsg, s.bus.slot = .listening m → ¬ (f.good = true ∧ f.unit = num m.unit ∧ f.kind = m.kind)) : passArrives s f = s := by
  unfold passArrives
  split
  next m slot =>
    refine if_neg fun taken => h m slot ?_
    rw [Bool.and_eq_true, Bool.and_eq_true, decide_eq_true_eq, decide_eq_true_eq, and_assoc] at taken
    exact taken
  all_goals rfl

/-- Settles O25: the two requests check by check, the last step of a round after a miss and after a timeout, and the answer to PASS. -/
theorem unitsAddressed : Obligations.UnitsAddressed := by
  refine ⟨fun s tag free => ⟨fun us long => ?_, fun us short out => ?_, fun us short inside => ?_, fun n kind payload => ⟨fun long => ?_,
    fun short out => ?_, fun k short unit => ?_⟩⟩, fun s t u c active poll isRoll roll open_ ended run => ?_, fun s f => ⟨_, rfl, ?_, ?_⟩⟩
  · exact congrArg Host.Outcome.next (serve_of free (forwardSetReq_long long _))
  · exact congrArg Host.Outcome.next (serve_of free (forwardSetReq_outside short out _))
  · refine ⟨_, congrArg Host.Outcome.next (serve_of free (forwardSetReq_good short inside _)), ?_, fun k => mem_unitSet us k⟩
    have bus := taken_bus 0x1C tag s
    generalize taken 0x1C tag s = x at bus ⊢
    rw [← bus]
    rfl
  · exact congrArg Host.Outcome.next (serve_of free (passReq_long long ..))
  · exact congrArg Host.Outcome.next (serve_of free (passReq_outside short out ..))
  · refine congrArg Host.Outcome.next ((serve_eq _ _ _ _ free).trans ?_)
    have bus := taken_bus 0x1D tag s
    generalize taken 0x1D tag s = x at bus ⊢
    rw [passReq_unit short unit, ← bus]
    repeat' split
    all_goals rfl
  · have last : LastStep s t := by
      rcases ended with ⟨rfl, awaiting, called⟩ | ⟨rfl, awaiting, called⟩
      · rw [exec_senseMiss, Host.Outcome.next.injEq] at run
        rw [← run, senseMissed_awaited awaiting]
        exact (lastStep_exchange (Round.ext active poll awaiting isRoll roll called open_)).finish
      · rw [exec_identTimeout, Host.Outcome.next.injEq] at run
        rw [← run, identTimedOut_called called]
        exact (lastStep_call (Round.ext active poll awaiting isRoll roll called open_)).finish
    exact ⟨last.round.trans (Round.ext active.symm poll.symm rfl isRoll.symm roll.symm rfl rfl), last.idle, last.due⟩
  · intro m slot good unit kind
    rw [kept_finish, passArrives_answers slot good unit kind]
    rfl
  · intro other
    rw [kept_finish, passArrives_other other]

end Sys2Proof.Machine

namespace Sys2Proof.Machine

open Sys2Proof

variable {s t : State} {u : Fin 12}

/-! ## How a round goes on (R109) -/

theorem goRound_polls {i : Bool} {l rest : List (Fin 12)} (h : s.bus.round = ⟨true, u :: rest, none, i, l, none, false⟩) :
    goRound s = compose (withRound s ⟨true, rest, some u, i, l, none, false⟩) u := by
  have here : s = withRound s ⟨true, u :: rest, none, i, l, none, false⟩ := by rw [← h]
  rw [here]
  rfl

/-- With no unit left to be polled the round goes on to its roll call, formed now in a roll-call round. -/
theorem goRound_rolls {i : Bool} {l : List (Fin 12)} (h : s.bus.round = ⟨true, [], none, i, l, none, false⟩) :
    goRound s = rollStep (withRound s ⟨true, [], none, false, if i then unadmitted s else l, none, false⟩) := by
  have here : s = withRound s ⟨true, [], none, i, l, none, false⟩ := by rw [← h]
  rw [here]
  cases i <;> rfl

/-- A round that has not begun, waits for an answer or is finished stands. -/
theorem goRound_stands (h : s.bus.round.active = false ∨ s.bus.round.awaiting ≠ none ∨ s.bus.round.called ≠ none ∨
    s.bus.round.finished = true) : goRound s = s := by
  unfold goRound
  refine if_pos ?_
  simp only [Bool.or_eq_true, Bool.not_eq_true', Option.isSome_iff_ne_none]
  tauto

/-- A round stands, polls the next unit, or has no unit left to poll. -/
theorem goRound_cases (s : State) : goRound s = s ∨
    (∃ (u : Fin 12) (rest : List (Fin 12)) (i : Bool) (l : List (Fin 12)), s.bus.round = ⟨true, u :: rest, none, i, l, none, false⟩) ∨
    ∃ (i : Bool) (l : List (Fin 12)), s.bus.round = ⟨true, [], none, i, l, none, false⟩ := by
  by_cases stands : s.bus.round.active = false ∨ s.bus.round.awaiting ≠ none ∨ s.bus.round.called ≠ none ∨ s.bus.round.finished = true
  · exact .inl (goRound_stands stands)
  · simp only [not_or, Bool.not_eq_false, ne_eq, not_not, Bool.not_eq_true] at stands
    obtain ⟨active, awaiting, called, finished⟩ := stands
    cases hp : s.bus.round.poll with
    | nil => exact .inr (.inr ⟨_, _, Round.ext active hp awaiting rfl rfl called finished⟩)
    | cons u rest => exact .inr (.inl ⟨u, rest, _, _, Round.ext active hp awaiting rfl rfl called finished⟩)

theorem rollStep_takes {l : List (Fin 12)} : rollStep (withRound s ⟨true, [], none, false, u :: l, none, false⟩) =
    { s with bus := { s.bus with round := ⟨true, [], none, false, l, some u, false⟩, sent := s.bus.sent ++ [.rollCall u] } } := rfl

theorem rollStep_over : rollStep (withRound s ⟨true, [], none, false, [], none, false⟩) =
    passStep (withRound s ⟨true, [], none, false, [], none, true⟩) := rfl

/-- A round that has polled its units calls the first of those to be called and leaves the rest, or finishes. -/
theorem goRound_calls {i : Bool} {l : List (Fin 12)} (h : s.bus.round = ⟨true, [], none, i, l, none, false⟩) {calls : List (Fin 12)}
    (hc : (if i then unadmitted s else l) = calls) :
    (goRound s).bus.round.called = calls.head? ∧ (goRound s).bus.round.roll = calls.tail ∧
    (∀ (k : Fin 12) (rest : List (Fin 12)), calls = k :: rest → (goRound s).bus.sent = s.bus.sent ++ [.rollCall k]) ∧
    (calls = [] → (goRound s).bus.round.finished = true) := by
  rw [goRound_rolls h, hc]
  cases calls with
  | nil =>
    rw [rollStep_over, passStep_round]
    exact ⟨rfl, rfl, nofun, fun _ => rfl⟩
  | cons k rest =>
    rw [rollStep_takes]
    exact ⟨rfl, rfl, fun k' rest' e => by rw [(List.cons.inj e).1], nofun⟩

/-- Composition writes of the bus the unit's record and the frame sent. -/
theorem compose_bus (s : State) (u : Fin 12) : (compose s u).bus = { s.bus with
    units := upd s.bus.units u fun x => { x with dim := (composeRecord s u).1.tap, log := joinLog x.log (composeRecord s u).1 }
    sent := s.bus.sent ++ [driveFrame s u (composeRecord s u).1] } := by
  unfold compose
  dsimp only
  split <;> rfl

theorem passStep_sinceRoll (s : State) : (passStep s).bus.sinceRoll = s.bus.sinceRoll := by
  unfold passStep
  split
  · split <;> rfl
  all_goals rfl

theorem rollStep_sinceRoll (s : State) : (rollStep s).bus.sinceRoll = s.bus.sinceRoll := by
  unfold rollStep
  split
  · rfl
  · exact passStep_sinceRoll _

theorem goRound_sinceRoll (s : State) : (goRound s).bus.sinceRoll = s.bus.sinceRoll := by
  rcases goRound_cases s with stands | ⟨u, rest, i, l, h⟩ | ⟨i, l, h⟩
  · rw [stands]
  · rw [goRound_polls h, compose_bus]
  · rw [goRound_rolls h, rollStep_sinceRoll]

theorem goRound_core (s : State) (k : Fin 12) : unitCore (goRound s).bus.units[k] = unitCore s.bus.units[k] := (goRound_frame s).1 k

/-- Records that agree in what composition does not write. -/
theorem core_eq {a b : UnitRec} (h : unitCore a = unitCore b) : a = { b with dim := a.dim, log := a.log } :=
  congrArg (fun x : UnitRec => { x with dim := a.dim, log := a.log }) h

theorem core_state {a b : UnitRec} (h : unitCore a = unitCore b) : a.state = b.state := by rw [core_eq h]

theorem goRound_state (s : State) (k : Fin 12) : (goRound s).bus.units[k].state = s.bus.units[k].state := core_state (goRound_core s k)

theorem unadmitted_congr (h : ∀ k : Fin 12, t.bus.units[k].state = s.bus.units[k].state) : unadmitted t = unadmitted s := by
  simp only [unadmitted, h]

/-! ## The roll-call round (R109) -/

theorem rollDue_iff (s : State) : rollDue s = true ↔ (if s.tables.startUp.mains = 1 then 60 else 50) ≤ s.bus.sinceRoll := by
  simp only [rollDue, rollPeriod, sixty, decide_eq_true_eq]

/-- A round in progress becomes a roll-call round when one is due. -/
theorem takeRollRound_due (active : s.bus.round.active = true) (due : (if s.tables.startUp.mains = 1 then 60 else 50) ≤ s.bus.sinceRoll) :
    takeRollRound s = setBus s fun b => { b with sinceRoll := 0, round := { b.round with isRoll := true, finished := false } } := by
  unfold takeRollRound
  rw [(rollDue_iff s).2 due, active]
  rfl

theorem rollCall_taken (active : s.bus.round.active = true) (due : (if s.tables.startUp.mains = 1 then 60 else 50) ≤ s.bus.sinceRoll) :
    ∃ t : State, exec .rollCallRound s = .next t ∧ t.bus.sinceRoll = 0 ∧
      (∀ k : Fin 12, t.bus.units[k].state = s.bus.units[k].state) ∧
      (s.bus.round.awaiting = none → s.bus.round.called = none → s.bus.round.poll = [] →
        (∀ (k : Fin 12) (rest : List (Fin 12)), unadmitted s = k :: rest →
          t.bus.round.called = some k ∧ t.bus.round.roll = rest ∧ t.bus.sent = s.bus.sent ++ [.rollCall k]) ∧
        (unadmitted s = [] → t.bus.round.called = none ∧ t.bus.round.roll = [] ∧ t.bus.round.finished = true)) := by
  have become := takeRollRound_due active due
  refine ⟨finish (goRound (takeRollRound s)), rfl, ?_⟩
  generalize takeRollRound s = x at become ⊢
  rw [finish_bus_sinceRoll, finish_bus_units, finish_bus_round, finish_bus_sent, goRound_sinceRoll]
  refine ⟨by rw [become]; rfl, fun k => (goRound_state x k).trans (by rw [become]; rfl), fun awaiting called poll => ?_⟩
  have round : x.bus.round = ⟨true, [], none, true, s.bus.round.roll, none, false⟩ := by
    rw [become]
    exact Round.ext active poll awaiting rfl rfl called rfl
  have same : unadmitted x = unadmitted s := unadmitted_congr fun k => by rw [become]; rfl
  have sent : x.bus.sent = s.bus.sent := by rw [become]; rfl
  obtain ⟨called, roll, frames, last⟩ := goRound_calls round (calls := unadmitted s) (by rw [if_pos rfl, same])
  rw [called, roll]
  refine ⟨fun k rest first => ?_, fun nobody => ?_⟩
  · rw [frames k rest first, first, sent]
    exact ⟨rfl, rfl, rfl⟩
  · rw [last nobody, nobody]
    exact ⟨rfl, rfl, rfl⟩

/-- The exchange that ends the polling of a roll-call round calls the first unit. -/
theorem senseMiss_calls (h : s.bus.round = ⟨true, [], some u, true, s.bus.round.roll, none, false⟩) :
    ∃ t : State, exec (.senseMiss u) s = .next t ∧ t.bus.round.called = (unadmitted t).head? ∧ t.bus.round.roll = (unadmitted t).tail := by
  refine ⟨_, exec_senseMiss s u, ?_⟩
  rw [senseMissed_awaited (by rw [h]), exchangeOver]
  obtain ⟨-, -, kept⟩ := bus_of_line (b := s.bus) (line_takeMiss s u)
  generalize hx : (setRound (takeMiss s u) fun r => { r with awaiting := none }) = x
  have round : x.bus.round = ⟨true, [], none, true, s.bus.round.roll, none, false⟩ := by
    have ended : x.bus.round = { (takeMiss s u).bus.round with awaiting := none } := by rw [← hx]; rfl
    rw [ended, kept, h]
  have same : unadmitted (finish (goRound x)) = unadmitted x := unadmitted_congr fun k => by rw [finish_bus_units, goRound_state]
  obtain ⟨called, roll, -⟩ := goRound_calls round (calls := unadmitted x) (if_pos rfl)
  rw [finish_bus_round, same]
  exact ⟨called, roll⟩

/-- The timeout of a unit called leaves every unit's state, and with the exchanges over calls the next. -/
theorem identTimeout_calls (called : s.bus.round.called = some u) :
    ∃ t : State, exec (.identTimeout u) s = .next t ∧
      (∀ k : Fin 12, t.bus.units[k].state = s.bus.units[k].state) ∧
      (s.bus.round.active = true → s.bus.round.awaiting = none → s.bus.round.finished = false →
        s.bus.round.poll = [] → s.bus.round.isRoll = false →
        t.bus.round.called = s.bus.round.roll.head? ∧
        ∀ (v : Fin 12) (rest : List (Fin 12)), s.bus.round.roll = v :: rest →
          t.bus.round.roll = rest ∧ t.bus.sent = s.bus.sent ++ [.rollCall v]) := by
  refine ⟨_, exec_identTimeout s u, ?_⟩
  rw [identTimedOut_called called, callOver]
  generalize hx : (setRound s fun r => { r with called := none }) = x
  rw [finish_bus_units, finish_bus_round, finish_bus_sent]
  refine ⟨fun k => (goRound_state x k).trans (by rw [← hx]; rfl), fun active awaiting open_ poll isRoll => ?_⟩
  have round : x.bus.round = ⟨true, [], none, false, s.bus.round.roll, none, false⟩ := by
    rw [← hx]
    exact Round.ext active poll awaiting isRoll rfl rfl open_
  have sent : x.bus.sent = s.bus.sent := by rw [← hx]; rfl
  obtain ⟨called, roll, frames, -⟩ := goRound_calls round (calls := s.bus.round.roll) (if_neg Bool.false_ne_true)
  rw [called, roll]
  refine ⟨rfl, fun v rest first => ?_⟩
  rw [frames v rest first, first, sent]
  exact ⟨rfl, rfl⟩

/-! ## IDENT (R111) -/

theorem kept_clearLost (s : State) (u : Fin 12) (b : Bool) : kept (clearLost s u b) = kept s := by
  unfold clearLost
  split
  · exact kept_clear ..
  · rfl

theorem kept_clearMismatch (s : State) (u : Fin 12) (b : Bool) : kept (clearMismatch s u b) = kept s := by
  unfold clearMismatch
  split
  · exact kept_clear ..
  · rfl

/-- The record of a unit after an IDENT, by the type code expected of it (R111). -/
def identRec (expected : Nat) (f : IdentFrame) (x : UnitRec) : UnitRec :=
  if f.typeCode = expected then admitRec x f
  else if x.state = .mismatch then { x with typeCode := some f.typeCode, serial := some f.serial }
  else { x with
    state := .mismatch, typeCode := some f.typeCode, serial := some f.serial, mismatchRaised := true, lostRaised := false }

/-- An IDENT taken rewrites the record of the unit called, and hands its faults on. -/
theorem kept_takeIdent (s : State) (u : Fin 12) (f : IdentFrame) :
    kept (takeIdent s u f) = kept (setUnit (between s) u (identRec s.tables.fiu[u].typeCode f)) := by
  have written (g : UnitRec → UnitRec) (h : identRec s.tables.fiu[u].typeCode f s.bus.units[u] = g s.bus.units[u]) :
      kept (setUnit (between s) u g) = kept (setUnit (between s) u (identRec s.tables.fiu[u].typeCode f)) :=
    congrArg kept (setUnit_congr (s := between s) h.symm)
  unfold takeIdent
  dsimp only
  split
  next expected =>
    rw [kept_clearMismatch, kept_clearLost]
    exact written _ (if_pos expected)
  next other =>
    split
    next known => exact written _ ((if_neg other).trans (if_pos known))
    next new =>
      have renewed := written (fun x => { x with
        state := .mismatch, typeCode := some f.typeCode, serial := some f.serial, mismatchRaised := true, lostRaised := false })
        ((if_neg other).trans (if_neg new))
      rw [kept_clearLost, ← renewed]
      split
      · rfl
      · exact kept_raise ..

theorem units_takeIdent (s : State) (u k : Fin 12) (f : IdentFrame) : (takeIdent s u f).bus.units[k] =
    if u = k then identRec s.tables.fiu[u].typeCode f s.bus.units[k] else s.bus.units[k] := by
  have written := bus_units_of_kept (kept_takeIdent s u f)
  simp only [written]
  exact units_setUnit (between s) u k _

theorem exec_identReceived (s : State) (f : IdentFrame) : exec (.identReceived f) s = .next (finish (identArrives s f)) := rfl

theorem identArrives_idle (f : IdentFrame) (h : s.bus.round.called = none) : identArrives s f = s := by
  unfold identArrives
  rw [h]

theorem identArrives_called {f : IdentFrame} (h : s.bus.round.called = some u) :
    identArrives s f = callOver (if f.good && decide (f.unit = num u) then takeIdent s u f else s) := by
  unfold identArrives
  rw [h]

/-- A corrupt or foreign IDENT ends the wait as a timeout does. -/
theorem identArrives_foreign {f : IdentFrame} (h : s.bus.round.called = some u) (bad : ¬ (f.good = true ∧ f.unit = num u)) :
    identArrives s f = callOver s := by
  rw [identArrives_called h, if_neg]
  rw [Bool.and_eq_true, decide_eq_true_eq]
  exact bad

theorem identArrives_good {f : IdentFrame} (h : s.bus.round.called = some u) (good : f.good = true) (unit : f.unit = num u) :
    identArrives s f = callOver (takeIdent s u f) := by
  rw [identArrives_called h, if_pos]
  rw [good, decide_eq_true unit]
  rfl

/-- Going on after a call leaves the units but for the dim tap and the log that composition writes. -/
theorem callOver_core (s : State) (k : Fin 12) : unitCore (finish (callOver s)).bus.units[k] = unitCore s.bus.units[k] := by
  rw [finish_bus_units]
  exact goRound_core _ k

theorem identReceived_taken {f : IdentFrame} (called : s.bus.round.called = some u) (good : f.good = true) (unit : f.unit = num u) :
    ∃ t : State, exec (.identReceived f) s = .next t ∧
      t.bus.units[u] = { identRec s.tables.fiu[u].typeCode f s.bus.units[u] with
        dim := t.bus.units[u].dim, log := t.bus.units[u].log } ∧
      ∀ k : Fin 12, k ≠ u → t.bus.units[k].state = s.bus.units[k].state := by
  refine ⟨_, (exec_identReceived s f).trans (by rw [identArrives_good called good unit]), core_eq ?_, fun k other => core_state ?_⟩
  · rw [callOver_core, units_takeIdent, if_pos rfl]
  · rw [callOver_core, units_takeIdent, if_neg (Ne.symm other)]

theorem identRec_stored (expected : Nat) (f : IdentFrame) (x : UnitRec) :
    (identRec expected f x).typeCode = some f.typeCode ∧ (identRec expected f x).serial = some f.serial := by
  unfold identRec
  split
  · exact ⟨rfl, rfl⟩
  · split <;> exact ⟨rfl, rfl⟩

/-- Settles O37: the roll call begun by its command and by the last exchange, a timeout, and an IDENT by the type code it gives. -/
theorem unitsAdmitted : Obligations.UnitsAdmitted := by
  refine fun s => ⟨rollCall_taken, fun u active awaiting called open_ poll isRoll =>
      senseMiss_calls (Round.ext active poll awaiting isRoll rfl called open_), unadmitted_eq s, fun f nobody => ?_, fun u other => ?_,
    fun u called => ⟨identTimeout_calls called, fun f bad => ?_, fun f good unit => ?_⟩⟩
  · rw [exec_identReceived, identArrives_idle f nobody]
  · rw [exec_identTimeout, identTimedOut_other other]
  · rw [exec_identReceived, exec_identTimeout, identArrives_foreign called bad, identTimedOut_called called]
  · obtain ⟨t, run, here, others⟩ := identReceived_taken called good unit
    obtain ⟨code, serial⟩ := identRec_stored s.tables.fiu[u].typeCode f s.bus.units[u]
    refine ⟨t, run, by rw [here]; exact code, by rw [here]; exact serial, others, fun expected => ?_, fun wrong => ?_⟩
    · rw [here, identRec, if_pos expected]
      exact ⟨rfl, rfl, rfl, rfl, rfl, rfl⟩
    · rw [here, identRec, if_neg wrong]
      split
      next known => exact ⟨known, fun new => absurd known new⟩
      next => exact ⟨rfl, fun _ => ⟨rfl, rfl⟩⟩

end Sys2Proof.Machine

namespace Sys2Proof.Machine

open Sys2Proof

variable {s t : State} {u : Fin 12} {k : Fin 8} {c : Fin 96}

/-! ## Masks by terminal and by position (R7, R114) -/

/-- Each report order undoes itself (R7). -/
theorem pos_pos (o : ReportOrder) (p : Fin 8) : o.pos (o.pos p) = p := by
  cases o <;> revert p <;> decide

theorem mem_permute (o : ReportOrder) (m : BitVec 8) (k : Fin 8) : mem (permute o m) (o.pos k).val = mem m k.val := by
  unfold permute
  rw [mem_gather (fun p : Fin 8 => mem m (o.pos p)) (Nat.le_refl 8), mem_zero]
  simp [pos_pos]

theorem mem_foldl_terminals (f : Fin 8 × Fin 96 → Bool) (l : List (Fin 8 × Fin 96)) (m : BitVec 8) :
    mem (l.foldl (fun acc tc => if f tc then ins acc tc.1.val else acc) m) k.val = true ↔
      mem m k.val = true ∨ ∃ tc ∈ l, tc.1 = k ∧ f tc = true := by
  induction l generalizing m with
  | nil => simp
  | cons a l ih =>
    rw [List.foldl_cons, ih]
    simp only [List.mem_cons, exists_eq_or_imp, ← or_assoc]
    refine or_congr_left ?_
    split
    next on => rw [mem_ins _ _ _ a.1.isLt, Bool.or_eq_true, decide_eq_true_eq, ← Fin.ext_iff, and_iff_left on]
    next off => simp only [off, and_false, or_false, Bool.false_eq_true]

theorem mem_terminalMask {f : Fin 8 × Fin 96 → Bool} :
    mem (terminalMask s u f) k.val = true ↔ ∃ c, circuitAt s u k = some c ∧ f (k, c) = true := by
  unfold terminalMask
  rw [mem_foldl_terminals, mem_zero]
  constructor
  · rintro (none | ⟨⟨_, c⟩, mem, rfl, on⟩)
    · cases none
    · exact ⟨c, mem_circuitsOf.1 mem, on⟩
  · rintro ⟨c, at_, on⟩
    exact .inr ⟨(k, c), mem_circuitsOf.2 at_, rfl, on⟩

/-- A spare terminal is in no mask. -/
theorem terminalMask_spare {f : Fin 8 × Fin 96 → Bool} (h : circuitAt s u k = none) : mem (terminalMask s u f) k.val = false := by
  rw [← Bool.not_eq_true, mem_terminalMask, h]
  rintro ⟨c, at_, -⟩
  cases at_

theorem terminalMask_circuit {f : Fin 8 × Fin 96 → Bool} (h : circuitAt s u k = some c) :
    mem (terminalMask s u f) k.val = f (k, c) := by
  rw [Bool.eq_iff_iff, mem_terminalMask, h]
  simp

/-! ## The test choice (R147) -/

/-- The element with the highest `f` kept so far, the earlier of two equal ones. -/
def keepMost {α : Type} (f : α → Nat) (best : Option α) (x : α) : Option α :=
  match best with
  | some b => if f b < f x then some x else best
  | none => some x

/-- Of a list in ascending key the fold keeps the element of the highest `f`, and of equal ones that of the lowest key. -/
theorem foldl_keepMost {α : Type} (f : α → Nat) (key : α → Fin 8) (l : List α) (b : α)
    (asc : (b :: l).Pairwise fun x y => key x < key y) :
    ∃ m ∈ b :: l, l.foldl (keepMost f) (some b) = some m ∧ ∀ x ∈ b :: l, f x < f m ∨ (f x = f m ∧ key m ≤ key x) := by
  induction l generalizing b with
  | nil =>
    refine ⟨b, List.mem_singleton_self b, rfl, fun x hx => ?_⟩
    rw [List.mem_singleton.1 hx]
    exact .inr ⟨rfl, le_refl _⟩
  | cons a l ih =>
    have first : key b < key a := List.rel_of_pairwise_cons asc (List.mem_cons_self ..)
    have rest : (a :: l).Pairwise fun x y => key x < key y := (List.pairwise_cons.1 asc).2
    have skip : (b :: l).Pairwise fun x y => key x < key y := asc.sublist ((List.sublist_cons_self a l).cons_cons b)
    rw [List.foldl_cons]
    by_cases more : f b < f a
    · obtain ⟨m, hm, kept, most⟩ := ih a rest
      refine ⟨m, List.mem_cons_of_mem b hm, by rw [keepMost, if_pos more]; exact kept, fun x hx => ?_⟩
      rcases List.mem_cons.1 hx with rfl | hx
      · rcases most a (List.mem_cons_self ..) with above | ⟨same, -⟩
        · exact .inl (more.trans above)
        · exact .inl (same ▸ more)
      · exact most x hx
    · obtain ⟨m, hm, kept, most⟩ := ih b skip
      have hm' : m ∈ b :: a :: l := by
        rcases List.mem_cons.1 hm with e | hm
        · exact e ▸ List.mem_cons_self ..
        · exact List.mem_cons_of_mem b (List.mem_cons_of_mem a hm)
      refine ⟨m, hm', by rw [keepMost, if_neg more]; exact kept, fun x hx => ?_⟩
      rcases List.mem_cons.1 hx with rfl | hx
      · exact most x (List.mem_cons_self ..)
      · rcases List.mem_cons.1 hx with rfl | hx
        · rcases most b (List.mem_cons_self ..) with above | ⟨same, low⟩
          · exact .inl (lt_of_le_of_lt (Nat.not_lt.1 more) above)
          · rcases Nat.lt_or_eq_of_le (Nat.not_lt.1 more) with less | eq
            · exact .inl (same ▸ less)
            · exact .inr ⟨eq.trans same, low.trans (le_of_lt first)⟩
        · exact most x (List.mem_cons_of_mem b hx)

theorem circuitsOf_ascending (s : State) (u : Fin 12) : (circuitsOf s u).Pairwise fun x y => x.1 < y.1 := by
  unfold circuitsOf
  rw [List.pairwise_filterMap]
  refine (List.pairwise_lt_finRange 8).imp ?_
  intro k k' lt x hx y hy
  obtain ⟨c, -, rfl⟩ := Option.map_eq_some_iff.1 hx
  obtain ⟨d, -, rfl⟩ := Option.map_eq_some_iff.1 hy
  exact lt

/-- The circuits of a unit that may be tested in the window composed, with their terminals (R147). -/
def testable (s : State) (u : Fin 12) (w : Nat) (on : BitVec 8) : List (Fin 8 × Fin 96) := (circuitsOf s u).filter (testEligible s u w on)

theorem mem_testable {w : Nat} {on : BitVec 8} {tc : Fin 8 × Fin 96} :
    tc ∈ testable s u w on ↔ circuitAt s u tc.1 = some tc.2 ∧ testEligible s u w on tc = true := by
  unfold testable
  rw [List.mem_filter, mem_circuitsOf]

/-- The time since test of a circuit with its terminal (R146). -/
def untested (s : State) (tc : Fin 8 × Fin 96) : Nat := s.cable.circuits[tc.2].sinceTest

theorem testChoice_eq (s : State) (u : Fin 12) (w : Nat) (on : BitVec 8) :
    testChoice s u w on = (testable s u w on).foldl (keepMost (untested s)) none := by
  unfold testChoice
  congr 1
  funext best tc
  cases best <;> rfl

/-- The choice is the testable circuit longest untested, and of equal ones the lowest terminal; there is one where some circuit is testable. -/
theorem testChoice_iff {w : Nat} {on : BitVec 8} {m : Fin 8 × Fin 96} : testChoice s u w on = some m ↔ m ∈ testable s u w on ∧
    ∀ x ∈ testable s u w on, untested s x < untested s m ∨ (untested s x = untested s m ∧ m.1 ≤ x.1) := by
  have asc : (testable s u w on).Pairwise fun x y => x.1 < y.1 := (circuitsOf_ascending s u).filter _
  have single {x y : Fin 8 × Fin 96} (hx : x ∈ testable s u w on) (hy : y ∈ testable s u w on) (e : x.1 = y.1) : x = y := by
    obtain ⟨atx, -⟩ := mem_testable.1 hx
    obtain ⟨aty, -⟩ := mem_testable.1 hy
    rw [e] at atx
    exact Prod.ext e (Option.some.inj (atx.symm.trans aty))
  rw [testChoice_eq]
  generalize testable s u w on = l at asc single ⊢
  cases l with
  | nil => exact ⟨nofun, fun h => nomatch h.1⟩
  | cons b l =>
    obtain ⟨n, hn, kept, most⟩ := foldl_keepMost (untested s) Prod.fst l b asc
    rw [List.foldl_cons, keepMost, kept]
    constructor
    · intro e
      cases e
      exact ⟨hn, most⟩
    · rintro ⟨hm, best⟩
      refine congrArg some (single hn hm ?_)
      have a := most m hm
      have b := best n hn
      omega

/-- What makes a circuit testable (R147). -/
theorem testEligible_iff {w : Nat} {on : BitVec 8} : testEligible s u w on (k, c) = true ↔
    s.tables.circuit[c].cableTest = 1 ∧ s.cable.circuits[c].inFlight = none ∧
    (∀ r : WinRec, s.bus.units[u].log.find? (fun r => decide (r.window = w)) = some r → mem r.on k.val = false) ∧
    mem on k.val = false ∧ s.tables.cable.testInterval ≤ s.cable.circuits[c].sinceTest := by
  have logged : (!loggedOn s u w k) = true ↔
      ∀ r : WinRec, s.bus.units[u].log.find? (fun r => decide (r.window = w)) = some r → mem r.on k.val = false := by
    rw [Bool.not_eq_true', ← Bool.not_eq_true, loggedOn_iff]
    simp only [not_exists, not_and, Bool.not_eq_true]
  unfold testEligible testOn
  dsimp only
  rw [Bool.and_eq_true, Bool.and_eq_true, Bool.and_eq_true, Bool.and_eq_true, logged, decide_eq_true_eq, Option.isNone_iff_eq_none,
    Bool.not_eq_true', decide_eq_true_eq, and_assoc, and_assoc, and_assoc]

/-! ## The window record composed (R114, R115, R147) -/

/-- The record composed for a unit. -/
abbrev composed (s : State) (u : Fin 12) : WinRec := (composeRecord s u).1

/-- The circuit chosen for a test in the window composed, with its terminal. -/
abbrev chosen (s : State) (u : Fin 12) : Option (Fin 8 × Fin 96) := testChoice s u s.bus.seq (composed s u).on

theorem composed_test (s : State) (u : Fin 12) : mem (composed s u).test k.val = true ↔ ∃ c, chosen s u = some (k, c) := by
  have test : (composed s u).test = match chosen s u with | some tc => ins 0 tc.1.val | none => 0 := rfl
  rw [test]
  cases chosen s u with
  | none =>
    refine iff_of_false ?_ fun ⟨c, e⟩ => nomatch e
    rw [mem_zero]
    nofun
  | some tc =>
    dsimp only
    rw [mem_ins _ _ _ tc.1.isLt, mem_zero, Bool.false_or, decide_eq_true_eq, ← Fin.ext_iff]
    constructor
    · rintro rfl
      exact ⟨tc.2, rfl⟩
    · rintro ⟨c, e⟩
      rw [Option.some.inj e]

theorem chosen_at {tc : Fin 8 × Fin 96} (h : chosen s u = some tc) : circuitAt s u tc.1 = some tc.2 :=
  (mem_testable.1 (testChoice_iff.1 h).1).1

theorem composed_test_circuit (h : circuitAt s u k = some c) : mem (composed s u).test k.val = true ↔ chosen s u = some (k, c) := by
  rw [composed_test]
  refine ⟨fun ⟨d, hd⟩ => ?_, fun hc => ⟨c, hc⟩⟩
  have same : some c = some d := h.symm.trans (chosen_at hd)
  rw [Option.some.inj same]
  exact hd

theorem composed_test_spare (h : circuitAt s u k = none) : mem (composed s u).test k.val = false := by
  rw [← Bool.not_eq_true, composed_test]
  rintro ⟨c, hc⟩
  cases h.symm.trans (chosen_at hc)

/-- The test request is on the terminal of the circuit longest untested among those that can be tested, and of equal ones on the lowest (R147). -/
theorem composed_test_most (h : circuitAt s u k = some c) (can : Fin 8 → Fin 96 → Prop)
    (hcan : ∀ (x : Fin 8) (d : Fin 96), can x d ↔ testEligible s u s.bus.seq (composed s u).on (x, d) = true) :
    mem (composed s u).test k.val = true ↔ can k c ∧ ∀ (x : Fin 8) (d : Fin 96), circuitAt s u x = some d → can x d →
      s.cable.circuits[d].sinceTest < s.cable.circuits[c].sinceTest ∨
        (s.cable.circuits[d].sinceTest = s.cable.circuits[c].sinceTest ∧ k.val ≤ x.val) := by
  rw [composed_test_circuit h, testChoice_iff, mem_testable, hcan]
  refine and_congr (and_iff_right h) ⟨fun best x d at_ able => best (x, d) (mem_testable.2 ⟨at_, (hcan x d).1 able⟩), fun best x hx => ?_⟩
  obtain ⟨at_, able⟩ := mem_testable.1 hx
  exact best x.1 x.2 at_ ((hcan x.1 x.2).2 able)

theorem composed_on (h : circuitAt s u k = some c) : mem (composed s u).on k.val = true ↔
    composedLit s c = true ∧ forcedOff s c = false ∧ s.jm.mode ≠ .dark := by
  have on : mem (composed s u).on k.val = commandOn s c := terminalMask_circuit h
  rw [on, commandOn, Bool.and_eq_true, Bool.and_eq_true, Bool.not_eq_true', decide_eq_true_eq, and_assoc]

theorem composed_called (h : circuitAt s u k = some c) : mem (composed s u).called k.val = true ↔ called s c = true := by
  have on : mem (composed s u).called k.val = called s c := terminalMask_circuit h
  rw [on]

theorem composed_bleed (h : circuitAt s u k = some c) : mem (composed s u).bleed k.val = true ↔
    mem (composed s u).on k.val = false ∧ mem (composed s u).test k.val = false ∧ s.tables.circuit[c].bleed = 1 := by
  have on : mem (composed s u).bleed k.val = (!mem (composed s u).on k.val && bleedOn s c && !mem (composed s u).test k.val) :=
    terminalMask_circuit h
  rw [on, bleedOn, Bool.and_eq_true, Bool.and_eq_true, Bool.not_eq_true', Bool.not_eq_true', decide_eq_true_eq, and_assoc,
    and_comm (a := s.tables.circuit[c].bleed = 1)]

theorem reference_isSome {d : Fin 96} : (reference s d .dim).isSome = true ↔ s.tables.reference[d].dim.held = 1 := by
  rw [← not_iff_not, Bool.not_eq_true, Option.isSome_eq_false_iff, reference_dim_isNone]

/-- The tap composed is DIM when DIM is demanded and no circuit of the unit keeps it from dimming (R115). -/
theorem composed_tap : (composed s u).tap = .dim ↔ s.sched.effDim = .dim ∧ ∀ (t : Fin 8) (c : Fin 96), circuitAt s u t = some c →
    s.tables.circuit[c].proving = 1 → (reference s c .dim).isSome = true ∨
      (s.prov.learn[c].state = .learning ∧ s.prov.learn[c].tap = .dim) := by
  have tap : (composed s u).tap = if s.sched.effDim = .dim ∧ unitUnlearned s u = false then .dim else .bright := rfl
  have chosen : (composed s u).tap = .dim ↔ s.sched.effDim = .dim ∧ unitUnlearned s u = false := by
    rw [tap]
    split
    next dims => exact iff_of_true rfl dims
    next stays => exact iff_of_false nofun stays
  rw [chosen, ← Bool.not_eq_true, unitUnlearned_iff]
  refine and_congr_right fun _ => ?_
  unfold Undimmable
  simp only [not_exists, not_and, reference_isSome]
  refine forall_congr' fun x => forall_congr' fun d => imp_congr_right fun _ => imp_congr_right fun _ => ?_
  tauto

/-! ## Composing a unit (R114, R147) -/

theorem compose_cable (s : State) (u : Fin 12) : (compose s u).cable = match chosen s u with
    | some tc => { s.cable with circuits := upd s.cable.circuits tc.2 fun r => { r with inFlight := some (composed s u).window } }
    | none => s.cable := by
  have tested : (composeRecord s u).2 = (chosen s u).map Prod.snd := rfl
  unfold compose
  dsimp only
  rw [tested]
  cases chosen s u <;> rfl

theorem compose_rest (s : State) (u : Fin 12) : compose s u = { s with bus := (compose s u).bus, cable := (compose s u).cable } := by
  unfold compose
  dsimp only
  split <;> rfl

theorem compose_leak (s : State) (u : Fin 12) : (compose s u).cable.leak = s.cable.leak := by
  rw [compose_cable]
  split <;> rfl

/-- Composition marks the test in flight of the circuit chosen, and no other. -/
theorem compose_circuit (s : State) (u : Fin 12) (c : Fin 96) : (compose s u).cable.circuits[c] =
    if (chosen s u).map Prod.snd = some c then { s.cable.circuits[c] with inFlight := some (composed s u).window }
    else s.cable.circuits[c] := by
  rw [compose_cable]
  cases chosen s u with
  | none => rfl
  | some tc =>
    by_cases e : tc.2 = c
    · subst e
      rw [Option.map_some, if_pos rfl]
      exact getElem_upd_self ..
    · rw [Option.map_some, if_neg fun h => e (Option.some.inj h)]
      exact getElem_upd_of_ne _ _ _ _ e

theorem compose_unit (s : State) (u : Fin 12) : (compose s u).bus.units[u] = { s.bus.units[u] with
    dim := (composed s u).tap, log := joinLog s.bus.units[u].log (composed s u) } := by
  rw [compose_bus]
  exact getElem_upd_self ..

theorem compose_unit_of_ne {j : Fin 12} (h : j ≠ u) : (compose s u).bus.units[j] = s.bus.units[j] := by
  rw [compose_bus]
  exact getElem_upd_of_ne _ _ _ _ (Ne.symm h)

theorem compose_tested (h : circuitAt s u k = some c) (test : mem (composed s u).test k.val = true) :
    (compose s u).cable.circuits[c] = { s.cable.circuits[c] with inFlight := some (composed s u).window } := by
  rw [compose_circuit, (composed_test_circuit h).1 test]
  exact if_pos rfl

theorem compose_untested (h : ∀ k : Fin 8, circuitAt s u k = some c → mem (composed s u).test k.val = false) :
    (compose s u).cable.circuits[c] = s.cable.circuits[c] := by
  rw [compose_circuit]
  refine if_neg fun chose => ?_
  obtain ⟨⟨k, d⟩, choice, rfl⟩ := Option.map_eq_some_iff.1 chose
  have at_ := chosen_at choice
  exact absurd ((composed_test_circuit at_).2 choice) (by rw [h k at_]; nofun)

/-! ## Circuits called for and composed lit (R8, R9) -/

theorem roleOf_eq_some {r : Role} : roleOf s c = some r ↔ s.tables.circuit[c].role = match r with | .red => 0 | .amber => 1 | .green => 2 := by
  unfold roleOf
  match s.tables.circuit[c].role with
  | 0 => cases r <;> simp [Role.ofCode]
  | 1 => cases r <;> simp [Role.ofCode]
  | 2 => cases r <;> simp [Role.ofCode]
  | n + 3 => cases r <;> simp [Role.ofCode]

theorem aspectCalls_red {a : Aspect} : aspectCalls a .red = true ↔ a = .red ∨ a = .redAmber := by cases a <;> decide
theorem aspectCalls_amber {a : Aspect} : aspectCalls a .amber = true ↔ a = .redAmber ∨ a = .amber ∨ a = .flashAmber := by
  cases a <;> decide
theorem aspectCalls_green {a : Aspect} : aspectCalls a .green = true ↔ a = .green ∨ a = .greenFlash := by cases a <;> decide

theorem called_cases : called s c = true ↔ ∃ (g : Fin 32) (r : Role), groupOf s c = some g ∧ roleOf s c = some r ∧ live s g = true ∧
    aspectCalls s.groups[g].aspect r = true := by
  unfold called
  split
  next g r hg hr => simp [hg, hr]
  next other =>
    refine iff_of_false nofun ?_
    rintro ⟨g, r, hg, hr, -⟩
    exact other g r hg hr

theorem called_iff : called s c = true ↔ ∃ g : Fin 32, s.tables.circuit[c].group = num g ∧ live s g = true ∧
    ((s.tables.circuit[c].role = 0 ∧ (s.groups[g].aspect = .red ∨ s.groups[g].aspect = .redAmber)) ∨
      (s.tables.circuit[c].role = 1 ∧
        (s.groups[g].aspect = .redAmber ∨ s.groups[g].aspect = .amber ∨ s.groups[g].aspect = .flashAmber)) ∨
      (s.tables.circuit[c].role = 2 ∧ (s.groups[g].aspect = .green ∨ s.groups[g].aspect = .greenFlash))) := by
  rw [called_cases]
  refine exists_congr fun g => ?_
  constructor
  · rintro ⟨r, hg, hr, used, calls⟩
    refine ⟨(groupOf_eq_some s).1 hg, used, ?_⟩
    rw [roleOf_eq_some] at hr
    cases r with
    | red => exact .inl ⟨hr, aspectCalls_red.1 calls⟩
    | amber => exact .inr (.inl ⟨hr, aspectCalls_amber.1 calls⟩)
    | green => exact .inr (.inr ⟨hr, aspectCalls_green.1 calls⟩)
  · rintro ⟨hg, used, ⟨hr, calls⟩ | ⟨hr, calls⟩ | ⟨hr, calls⟩⟩
    · exact ⟨.red, (groupOf_eq_some s).2 hg, roleOf_eq_some.2 hr, used, aspectCalls_red.2 calls⟩
    · exact ⟨.amber, (groupOf_eq_some s).2 hg, roleOf_eq_some.2 hr, used, aspectCalls_amber.2 calls⟩
    · exact ⟨.green, (groupOf_eq_some s).2 hg, roleOf_eq_some.2 hr, used, aspectCalls_green.2 calls⟩

/-- The gating run of a circuit's group: the junction flash run under FLASH_AMBER, the clearance run under GREEN_FLASH, else none. -/
theorem gateOn_iff {g : Fin 32} (hg : groupOf s c = some g) : gateOn s c = true ↔
    (s.groups[g].aspect = .flashAmber → runOn s s.junctionRun = true) ∧
    (s.groups[g].aspect = .greenFlash → ∃ r : Run, s.clearRuns[g] = some r ∧ runOn s r = true) := by
  unfold gateOn
  rw [hg]
  dsimp only
  cases s.groups[g].aspect with
  | greenFlash => cases s.clearRuns[g] <;> simp
  | _ => simp

theorem composedLit_iff : composedLit s c = true ↔ called s c = true ∧ ∀ g : Fin 32, s.tables.circuit[c].group = num g →
    (s.groups[g].aspect = .flashAmber → runOn s s.junctionRun = true) ∧
    (s.groups[g].aspect = .greenFlash → ∃ r : Run, s.clearRuns[g] = some r ∧ runOn s r = true) := by
  rw [composedLit, Bool.and_eq_true]
  refine and_congr_right fun calls => ?_
  obtain ⟨g, -, hg, -⟩ := called_cases.1 calls
  rw [gateOn_iff hg]
  refine ⟨fun gate j hj => ?_, fun gates => gates g ((groupOf_eq_some s).1 hg)⟩
  have same : some g = some j := hg.symm.trans ((groupOf_eq_some s).2 hj)
  rw [← Option.some.inj same]
  exact gate

theorem runOn_iff {r : Run} {p : Fin 4} {k : Fin 8} (hp : r.pattern = p.val) (hk : r.step = k.val) :
    runOn s r = true ↔ s.tables.pattern[p].slots[k].level = 1 := by
  have pattern : patternAt s r.pattern = s.tables.pattern[p] := by simp [patternAt, hp]
  have slot : runSlot s r = s.tables.pattern[p].slots[k] := by simp [runSlot, pattern, hk]
  rw [runOn, slot, decide_eq_true_eq]

end Sys2Proof.Machine

namespace Sys2Proof.Machine

open Sys2Proof

variable {s t : State} {u k : Fin 12} {f : SenseFrame}

/-! ## What the intake of a frame leaves of the line (R116) -/

theorem line_takeConfirm (s : State) (c : Fin 96) : line (takeConfirm s c) = line s := by
  unfold takeConfirm
  split
  · exact line_of_ground (ground_changeVerdict ..)
  · rfl

theorem line_learnWindow (s : State) (c : Fin 96) (t : Tap) (isum vsup : Nat) : line (learnWindow s c t isum vsup) = line s := by
  have converge (x : State) : line (takeConverge x c) = line x := by
    unfold takeConverge
    dsimp only
    repeat' split
    all_goals rfl
  have unstable (x : State) : line (takeUnstable x c) = line x := by
    unfold takeUnstable
    dsimp only
    split <;> rfl
  unfold learnWindow
  dsimp only
  split
  · rw [unstable, converge]
    rfl
  · rfl

theorem line_judgeEligible (s : State) (f : SenseFrame) (c : Fin 96) (x : Sample) : line (judgeEligible s f c x) = line s := by
  unfold judgeEligible
  dsimp only
  rw [line_learnWindow]
  split
  · rw [line_takeConfirm]
    rfl
  · rfl

theorem line_proveFrame (s : State) (u : Fin 12) (f : SenseFrame) (xs : Vector Sample 8) : line (proveFrame s u f xs) = line s := by
  have circuit (b : Bool) (x : State) (tc : Fin 8 × Fin 96) : line (proveCircuit u f xs b x tc) = line x := by
    unfold proveCircuit
    dsimp only
    split
    · rw [line_judgeEligible]
      rfl
    · rfl
  exact (line_of_ground (ground_recomputeRed _)).trans (line_foldl _ (circuit _) (circuitsOf s u) s)

theorem line_takeFlags (s : State) (u : Fin 12) (f : SenseFrame) : line (takeFlags s u f) = line s := by
  have raise_ (x : State) : line (takeHotRaise x u) = line x := by
    unfold takeHotRaise
    split
    · exact (line_of_kept (kept_raise ..)).trans rfl
    · rfl
  have clear_ (x : State) : line (takeHotClear x u) = line x := by
    unfold takeHotClear
    split
    · exact (line_of_kept (kept_clear ..)).trans rfl
    · rfl
  rw [takeFlags, clear_, raise_, line_setUnit]

theorem line_takeInputs (s : State) (u : Fin 12) (f : SenseFrame) : line (takeInputs s u f) = line s := by
  have frame := (takeReadings u f.inputs (idx 64) (List.nodup_finRange 64) s).frame
  rw [takeInputs_eq, line_of_kept (kept_settle _)]
  generalize (idx 64).foldl (takeReading u f.inputs) s = v at frame ⊢
  rw [frame]
  rfl

theorem line_forward (s : State) (u : Fin 12) (f : SenseFrame) : line (forward s u f) = line s := by
  cases inside : mem s.bus.forward u with
  | false => rw [forward_outside inside]
  | true =>
    rw [forward_inside inside]
    split <;> rfl

theorem line_intake (s : State) (u : Fin 12) (f : SenseFrame) : line (intake s u f) = line s := by
  have supervised (x : State) (v : Nat) (xs : Vector Sample 8) : line (superviseFrame x u v f xs) = line x := by
    rw [line, (superviseFrame_frame x u v f xs).1]
    rfl
  unfold intake
  split
  · exact line_of_ground (ground_resolveTests ..)
  · dsimp only
    rw [line_forward, line_takeInputs, line_takeFlags, supervised, line_proveFrame]

theorem line_takeValid (s : State) (u : Fin 12) (f : SenseFrame) : line (takeValid s u f) = line s := by
  unfold takeValid
  dsimp only
  rw [line_intake]
  split <;> rfl

/-! ## The units driven in a round (R109) -/

/-- The units driven so far in the round, followed by those still to be polled. -/
def agenda (s : State) : List (Fin 12) := drivesOf s ++ s.bus.round.poll

theorem agenda_of_line (h : line t = line s) : agenda t = agenda s := by
  obtain ⟨sent, -, round⟩ := bus_of_line (b := s.bus) h
  simp only [agenda, drivesOf, sent, round]

theorem agenda_finish (s : State) : agenda (finish s) = agenda s := agenda_of_line (line_of_kept (kept_finish s))

theorem drivesOf_passStep (s : State) : drivesOf (passStep s) = drivesOf s := by
  unfold passStep
  split
  · split
    · exact List.filterMap_append.trans (List.append_nil _)
    · rfl
  all_goals rfl

theorem drivesOf_compose (s : State) (u : Fin 12) : drivesOf (compose s u) = drivesOf s ++ [u] := by
  unfold drivesOf
  rw [compose_bus]
  exact List.filterMap_append

/-- Going on with the round takes a unit from those to be polled to those driven, or none. -/
theorem agenda_goRound (s : State) : agenda (goRound s) = agenda s := by
  rcases goRound_cases s with stands | ⟨u, rest, i, l, h⟩ | ⟨i, l, h⟩
  · rw [stands]
  · rw [goRound_polls h, agenda, agenda, drivesOf_compose, compose_bus, h, List.append_assoc]
    rfl
  · rw [goRound_rolls h]
    have none_ : agenda s = drivesOf s := by rw [agenda, h]; exact List.append_nil _
    rw [none_]
    cases (if i then unadmitted s else l) with
    | nil =>
      rw [rollStep_over, agenda, drivesOf_passStep, passStep_round]
      exact List.append_nil _
    | cons v rest =>
      rw [rollStep_takes]
      exact (List.append_nil _).trans (List.filterMap_append.trans (List.append_nil _))

theorem agenda_exchangeOver (s : State) : agenda (exchangeOver s) = agenda s := agenda_goRound _

theorem agenda_senseMissed (s : State) (u : Fin 12) : agenda (senseMissed s u) = agenda s := by
  unfold senseMissed
  split
  · rw [agenda_exchangeOver, agenda_of_line (line_takeMiss s u)]
  · rfl

theorem agenda_senseArrives (s : State) (f : SenseFrame) : agenda (senseArrives s f) = agenda s := by
  unfold senseArrives
  split
  · rw [agenda_exchangeOver]
    split
    · exact agenda_of_line (line_takeValid ..)
    · exact agenda_of_line (line_takeMiss ..)
  · rfl

/-- Judging DIM_UNLEARNED writes the unit's mark and hands it on (R115). -/
theorem kept_judgeDim (s : State) (u : Fin 12) : ∃ b : Bool, kept (judgeDim s u) = kept (setUnit s u fun x => { x with dimRaised := b }) := by
  have same : kept s = kept (setUnit s u fun x => { x with dimRaised := s.bus.units[u].dimRaised }) := congrArg kept (setUnit_same rfl).symm
  by_cases unused : s.bus.units[u].state = .unused
  · rw [judgeDim_unused unused]
    exact ⟨_, same⟩
  · rw [judgeDim_used unused]
    split
    · exact ⟨true, kept_raise ..⟩
    · split
      · exact ⟨false, kept_clear ..⟩
      · exact ⟨_, same⟩

theorem line_judgeDim (s : State) (u : Fin 12) : line (judgeDim s u) = line s := by
  obtain ⟨b, judged⟩ := kept_judgeDim s u
  exact (line_of_kept judged).trans (line_setUnit ..)

theorem admitted_judgeDim (s : State) (u : Fin 12) : admitted (judgeDim s u) = admitted s := by
  obtain ⟨b, judged⟩ := kept_judgeDim s u
  have state (k : Fin 12) : (judgeDim s u).bus.units[k].state = s.bus.units[k].state := by
    rw [bus_units_of_kept judged, units_setUnit]
    split <;> rfl
  simp only [admitted, state]

/-- The round that begins is to poll the units then ADMITTED, ascending. -/
theorem agenda_beginRound (runs : s.jm.started = true) (fresh : s.bus.sent = []) : agenda (beginRound s) = admitted s := by
  have judged := foldl_inv line judgeDim line_judgeDim (idx 12) s
  have units := foldl_inv admitted judgeDim admitted_judgeDim (idx 12) s
  rw [beginRound_runs runs rfl, agenda_goRound]
  generalize (idx 12).foldl judgeDim s = j at judged units ⊢
  obtain ⟨sent, -, -⟩ := bus_of_line (b := s.bus) judged
  have none_ : drivesOf (roundBegun j) = [] := by
    have frames : (roundBegun j).bus.sent = [] := sent.trans fresh
    rw [drivesOf, frames]
    rfl
  rw [agenda, none_, ← units]
  rfl

/-- The miss of the unit awaited goes on to compose the next. -/
theorem senseMissed_next {i : Bool} {l rest : List (Fin 12)} (h : s.bus.round = ⟨true, u :: rest, some k, i, l, none, false⟩) :
    ∃ v : State, senseMissed s k = compose v u ∧ v.bus.round = ⟨true, rest, some u, i, l, none, false⟩ ∧ steady v = steady s := by
  obtain ⟨-, -, kept⟩ := bus_of_line (b := s.bus) (line_takeMiss s k)
  rw [senseMissed_awaited (by rw [h])]
  have round : (setRound (takeMiss s k) fun r => { r with awaiting := none }).bus.round = ⟨true, u :: rest, none, i, l, none, false⟩ := by
    show { (takeMiss s k).bus.round with awaiting := none } = _
    rw [kept, h]
  exact ⟨_, goRound_polls round, rfl, steady_takeMiss s k⟩

theorem missOutstanding_awaited (h : s.bus.round.awaiting = some u) : missOutstanding s = senseMissed s u := by
  unfold missOutstanding
  rw [h]

theorem missOutstanding_idle (h : s.bus.round.awaiting = none) : missOutstanding s = s := by
  unfold missOutstanding
  rw [h]

theorem agenda_missOutstanding (s : State) : agenda (missOutstanding s) = agenda s := by
  unfold missOutstanding
  split
  · exact agenda_senseMissed ..
  · rfl

theorem agenda_times (n : Nat) (s : State) : agenda (times n missOutstanding s) = agenda s := by
  induction n generalizing s with
  | zero => rfl
  | succ n ih => rw [times, ih, agenda_missOutstanding]

theorem times_idle (n : Nat) (h : s.bus.round.awaiting = none) : times n missOutstanding s = s := by
  induction n with
  | zero => rfl
  | succ n ih => rw [times, missOutstanding_idle h, ih]

/-- The last exchange of the polling leaves nobody awaited and nobody to be polled. -/
theorem missOutstanding_last {i : Bool} {l : List (Fin 12)} (h : s.bus.round = ⟨true, [], some k, i, l, none, false⟩) :
    (missOutstanding s).bus.round.awaiting = none ∧ (missOutstanding s).bus.round.poll = [] := by
  obtain ⟨-, -, kept⟩ := bus_of_line (b := s.bus) (line_takeMiss s k)
  have awaited : s.bus.round.awaiting = some k := by rw [h]
  rw [missOutstanding_awaited awaited, senseMissed_awaited awaited, exchangeOver]
  have round : (setRound (takeMiss s k) fun r => { r with awaiting := none }).bus.round = ⟨true, [], none, i, l, none, false⟩ := by
    show { (takeMiss s k).bus.round with awaiting := none } = _
    rw [kept, h]
  rw [goRound_rolls round]
  generalize (if i then unadmitted (setRound (takeMiss s k) fun r => { r with awaiting := none }) else l) = calls
  cases calls with
  | nil =>
    rw [rollStep_over, passStep_round]
    exact ⟨rfl, rfl⟩
  | cons v rest =>
    rw [rollStep_takes]
    exact ⟨rfl, rfl⟩

/-- Every unit to be polled is polled in as many misses and one more. -/
theorem times_polled {i : Bool} {l : List (Fin 12)} (n : Nat) (p : List (Fin 12)) (short : p.length < n)
    (h : s.bus.round = ⟨true, p, some k, i, l, none, false⟩) : (times n missOutstanding s).bus.round.poll = [] := by
  induction n generalizing s k p with
  | zero => exact absurd short (Nat.not_lt_zero _)
  | succ n ih =>
    rw [times]
    cases p with
    | nil =>
      obtain ⟨idle, polled⟩ := missOutstanding_last h
      rw [times_idle n idle, polled]
    | cons u rest =>
      obtain ⟨v, next, round, -⟩ := senseMissed_next h
      refine ih (k := u) rest (Nat.lt_of_succ_lt_succ short) ?_
      rw [missOutstanding_awaited (by rw [h]), next, compose_bus, round]

/-- Settles O38: the record composed field by field, the circuits it calls for, and the round by the units driven and still to be polled. -/
theorem driveComposed : Obligations.DriveComposed := by
  refine ⟨fun s u => ⟨composed s u, permute (reportOrder s u) (composed s u).on, permute (reportOrder s u) (composed s u).test,
      permute (reportOrder s u) (composed s u).bleed, compose_rest s u, ?_, compose_unit s u, fun k other => compose_unit_of_ne other, rfl, rfl,
      fun t => ⟨mem_permute .., mem_permute .., mem_permute ..⟩, composed_tap, fun t spare => ⟨terminalMask_spare spare,
      composed_test_spare spare, terminalMask_spare spare⟩, fun t c at_ => ⟨composed_on at_, composed_called at_, composed_bleed at_,
      fun can hcan => composed_test_most at_ can fun x d => (hcan x d).trans testEligible_iff.symm⟩, fun t t' test test' => ?_,
      compose_leak s u, fun c => ⟨fun ⟨t, at_, test⟩ => compose_tested at_ test, compose_untested⟩⟩,
    fun s c => ⟨called_iff, composedLit_iff, fun r p k => runOn_iff⟩, fun s k u rest active awaiting called open_ poll => ?_,
    fun s => agenda_beginRound, fun s c sense => ?_, fun s active awaiting called open_ short => ?_⟩
  · rw [compose_bus]
    rfl
  · obtain ⟨c, choice⟩ := (composed_test s u).1 test
    obtain ⟨c', choice'⟩ := (composed_test s u).1 test'
    exact congrArg Prod.fst (Option.some.inj (choice.symm.trans choice'))
  · have round : s.bus.round = ⟨true, u :: rest, some k, s.bus.round.isRoll, s.bus.round.roll, none, false⟩ :=
      Round.ext active poll awaiting rfl rfl called open_
    obtain ⟨v, next, after, same⟩ := senseMissed_next round
    refine ⟨v, (exec_senseMiss s k).trans (by rw [next]), ?_, congrArg Steady.seq same, congrArg Steady.tables same, congrArg Steady.map same⟩
    rw [after]
    exact Round.ext active.symm rfl rfl rfl rfl called.symm open_.symm
  · rcases sense with ⟨u, rfl⟩ | ⟨f, rfl⟩
    · exact ⟨_, rfl, (agenda_finish _).trans (agenda_senseMissed s u)⟩
    · exact ⟨_, rfl, (agenda_finish _).trans (agenda_senseArrives s f)⟩
  · obtain ⟨k, awaited⟩ := Option.isSome_iff_exists.1 awaiting
    have round : s.bus.round = ⟨true, s.bus.round.poll, some k, s.bus.round.isRoll, s.bus.round.roll, none, false⟩ :=
      Round.ext active rfl awaited rfl rfl called open_
    have polled := times_polled 12 s.bus.round.poll (Nat.lt_succ_of_le short) round
    have driven : agenda (times 12 missOutstanding s) = agenda s := agenda_times 12 s
    rw [agenda, polled, List.append_nil] at driven
    exact ⟨polled, driven⟩

end Sys2Proof.Machine

namespace Sys2Proof.Machine

open Sys2Proof

variable {s t x : State} {u : Fin 12} {c : Fin 96} {f : SenseFrame}

/-! ## The records of the circuits of a unit rewritten (R113, R148) -/

/-- The circuit is on a terminal of the unit in the map (R15). -/
abbrev OnUnit (s : State) (u : Fin 12) (c : Fin 96) : Prop := ∃ p : Fin 8, circuitAt s u p = some c

/-- The records of the circuits of a list rewritten one after another. -/
def sweep {α : Type} (f : α → α) (l : List (Fin 8 × Fin 96)) (v : Vector α 96) : Vector α 96 := l.foldl (fun v tc => upd v tc.2 f) v

/-- A rewriting that is done once it is done reaches each circuit of the list, on however many terminals it stands, and no other. -/
theorem getElem_sweep {α : Type} {f : α → α} (once : ∀ r, f (f r) = f r) (l : List (Fin 8 × Fin 96)) (v : Vector α 96) (c : Fin 96) :
    ((∃ tc ∈ l, tc.2 = c) → (sweep f l v)[c] = f v[c]) ∧ ((¬ ∃ tc ∈ l, tc.2 = c) → (sweep f l v)[c] = v[c]) := by
  induction l generalizing v with
  | nil => exact ⟨fun ⟨_, h, _⟩ => absurd h List.not_mem_nil, fun _ => rfl⟩
  | cons a l ih =>
    obtain ⟨named, unnamed⟩ := ih (upd v a.2 f)
    have start : sweep f (a :: l) v = sweep f l (upd v a.2 f) := rfl
    rw [start]
    simp only [List.mem_cons, exists_eq_or_imp, not_or]
    by_cases e : a.2 = c
    · subst e
      rw [getElem_upd_self] at named unnamed
      refine ⟨fun _ => ?_, fun h => absurd rfl h.1⟩
      by_cases again : ∃ tc ∈ l, tc.2 = a.2
      · rw [named again, once]
      · exact unnamed again
    · rw [getElem_upd_of_ne _ _ _ _ e] at named unnamed
      exact ⟨fun h => named (h.resolve_left e), fun h => unnamed h.2⟩

theorem onUnit_iff : (∃ tc ∈ circuitsOf s u, tc.2 = c) ↔ OnUnit s u c := by
  constructor
  · rintro ⟨tc, mem, rfl⟩
    exact ⟨tc.1, mem_circuitsOf.1 mem⟩
  · rintro ⟨p, at_⟩
    exact ⟨(p, c), mem_circuitsOf.2 at_, rfl⟩

theorem sweep_on {α : Type} {f : α → α} (once : ∀ r, f (f r) = f r) (v : Vector α 96) (h : OnUnit s u c) :
    (sweep f (circuitsOf s u) v)[c] = f v[c] := (getElem_sweep once _ v c).1 (onUnit_iff.2 h)

theorem sweep_off {α : Type} {f : α → α} (once : ∀ r, f (f r) = f r) (v : Vector α 96) (h : ¬ OnUnit s u c) :
    (sweep f (circuitsOf s u) v)[c] = v[c] := (getElem_sweep once _ v c).2 fun named => h (onUnit_iff.1 named)

/-- A record with its test in flight for window `v` resolved without a result (R148). -/
def landedRec (v : Nat) (r : CableRec) : CableRec := if r.inFlight = some v then { r with inFlight := none } else r

/-- A record with its test in flight abandoned (R148). -/
def groundedRec (r : CableRec) : CableRec := { r with inFlight := none }

theorem landedRec_once (v : Nat) (r : CableRec) : landedRec v (landedRec v r) = landedRec v r := by
  by_cases h : r.inFlight = some v
  · simp only [landedRec, h, if_true, reduceCtorEq, if_false]
  · simp only [landedRec, h, if_false]

theorem groundedRec_landedRec (v : Nat) (r : CableRec) : groundedRec (landedRec v r) = groundedRec r := by
  unfold landedRec
  split <;> rfl

theorem foldl_setCable (f : CableRec → CableRec) (l : List (Fin 8 × Fin 96)) (s : State) :
    l.foldl (fun s tc => setCable s tc.2 f) s = { s with cable := { s.cable with circuits := sweep f l s.cable.circuits } } := by
  induction l generalizing s with
  | nil => rfl
  | cons a l ih =>
    rw [List.foldl_cons, ih]
    rfl

theorem resolveTest_silent (v : Nat) (s : State) (tc : Fin 8 × Fin 96) : resolveTest v none s tc = setCable s tc.2 (landedRec v) := by
  unfold resolveTest
  split
  next flies =>
    have same : landedRec v s.cable.circuits[tc.2] = { s.cable.circuits[tc.2] with inFlight := none } := if_pos flies
    simp only [setCable, upd, same]
  next lies =>
    have same : landedRec v s.cable.circuits[tc.2] = s.cable.circuits[tc.2] := if_neg lies
    unfold setCable
    rw [upd_id _ _ _ same]

/-- With no frame the unit's tests in flight for the window are resolved without a result, and nothing else is done (R148). -/
theorem resolveTests_silent (s : State) (u : Fin 12) (v : Nat) : resolveTests s u v none =
    { s with cable := { s.cable with circuits := sweep (landedRec v) (circuitsOf s u) s.cable.circuits } } := by
  have step : resolveTest v none = fun s tc => setCable s tc.2 (landedRec v) := funext fun s => funext fun tc => resolveTest_silent v s tc
  unfold resolveTests
  rw [step, foldl_setCable]

/-- A record of leakage counts started afresh (R156). -/
def freshLeak (r : LeakRec) : LeakRec := { r with run := 0, quiet := 0, suspects := [] }

theorem unitLeavesCable_eq (s : State) (u : Fin 12) : unitLeavesCable s u = { s with cable := { s.cable with
    circuits := sweep groundedRec (circuitsOf s u) s.cable.circuits, leak := upd s.cable.leak u freshLeak } } := by
  have grounded : abandonTests s u =
      { s with cable := { s.cable with circuits := sweep groundedRec (circuitsOf s u) s.cable.circuits } } := foldl_setCable groundedRec _ s
  rw [unitLeavesCable, grounded]
  rfl

/-! ## Lamp proving of a unit that leaves ADMITTED (R113, R128) -/

/-- A proving record whose unit has left ADMITTED (R128). -/
def leftRec (r : ProvRec) : ProvRec :=
  if r.verdict = .forced then r else { r with verdict := .unknown, cand := none, run := 0, onRun := 0, fault := none }

theorem leftRec_once (r : ProvRec) : leftRec (leftRec r) = leftRec r := by
  by_cases h : r.verdict = .forced
  · simp only [leftRec, h, if_true]
  · simp only [leftRec, h, if_false, reduceCtorEq]

/-- Lamp proving's part in a circuit's unit leaving ADMITTED (R128). -/
def leaveCircuit (s : State) (tc : Fin 8 × Fin 96) : State :=
  if s.prov.circuits[tc.2].verdict = .forced then s
  else setProv (changeVerdict s tc.2 .unknown) tc.2 fun r => { r with onRun := 0 }

theorem kept_leaveCircuit (s : State) (tc : Fin 8 × Fin 96) : kept (leaveCircuit s tc) = (kept s).withProv (s.prov.withCircuit tc.2 leftRec) := by
  unfold leaveCircuit
  split
  next forced =>
    have same : leftRec s.prov.circuits[tc.2] = s.prov.circuits[tc.2] := if_pos forced
    rw [Proving.withCircuit, upd_id _ _ _ same]
    rfl
  next free =>
    have changed := kept_changeVerdict s tc.2 .unknown
    have left : leftRec s.prov.circuits[tc.2] =
        { s.prov.circuits[tc.2] with verdict := .unknown, cand := none, run := 0, onRun := 0, fault := none } := if_neg free
    rw [kept_setProv', changed, prov_eq_of_kept changed, Kept.withProv, Kept.withProv, Kept.withProv, withCircuit_withCircuit]
    simp only [Proving.withCircuit, upd, left]
    rfl

theorem kept_leaveCircuits (l : List (Fin 8 × Fin 96)) (s : State) :
    kept (l.foldl leaveCircuit s) = (kept s).withProv { s.prov with circuits := sweep leftRec l s.prov.circuits } := by
  induction l generalizing s with
  | nil => rfl
  | cons a l ih =>
    have first := kept_leaveCircuit s a
    rw [List.foldl_cons, ih, first, prov_eq_of_kept first]
    rfl

/-- Red status formed afresh stands as formed (R143). -/
theorem red_recomputeRed (s : State) (g : Fin 32) : (recomputeRed s).prov.red[g] = redStatusNow (recomputeRed s) g := by
  have formed := kept_recomputeRed s
  have prov : (recomputeRed s).prov = { s.prov with red := tab fun g => redStatusNow s g } := prov_eq_of_kept formed
  have cable : (recomputeRed s).cable = s.cable := cable_eq_of_kept formed
  have same : redStatusNow (recomputeRed s) = redStatusNow s :=
    redStatusNow_congr (tables_eq_of_kept formed) (map_eq_of_kept formed) (by rw [prov]) (by rw [cable])
  rw [same, prov, getElem_tab]

theorem unitLeavesProving_eq (s : State) (u : Fin 12) : unitLeavesProving s u =
    recomputeRed ((circuitsOf s u).foldl leaveCircuit { s with prov := { s.prov with lastWin := put s.prov.lastWin u none } }) := rfl

/-- Lamp proving when a unit leaves ADMITTED: the records of its circuits and its last window, with red status formed afresh. -/
theorem unitLeavesProving_prov (s : State) (u : Fin 12) : kept (unitLeavesProving s u) = (kept s).withProv
      { s.prov with
        circuits := sweep leftRec (circuitsOf s u) s.prov.circuits, lastWin := put s.prov.lastWin u none
        red := (unitLeavesProving s u).prov.red } ∧
    ∀ g : Fin 32, (unitLeavesProving s u).prov.red[g] = redStatusNow (unitLeavesProving s u) g := by
  refine ⟨?_, fun g => red_recomputeRed _ g⟩
  rw [unitLeavesProving_eq]
  have left := kept_leaveCircuits (circuitsOf s u) { s with prov := { s.prov with lastWin := put s.prov.lastWin u none } }
  generalize (circuitsOf s u).foldl leaveCircuit _ = y at left ⊢
  have formed := kept_recomputeRed y
  have red : (recomputeRed y).prov.red = tab fun g => redStatusNow y g := congrArg Proving.red (prov_eq_of_kept formed)
  rw [red, formed, left, prov_eq_of_kept left]
  rfl

theorem tables_of_steady (h : steady t = steady s) : t.tables = s.tables := congrArg Steady.tables h
theorem map_of_steady (h : steady t = steady s) : t.map = s.map := congrArg Steady.map h
theorem clock_of_steady (h : steady t = steady s) : t.clock = s.clock := congrArg Steady.clock h

/-! ## A unit that leaves ADMITTED (R49, R113, R128, R148, R156) -/

/-- What a unit's leaving ADMITTED makes of lamp proving and of cable supervision, besides the steady part. -/
structure Leaves (u : Fin 12) (s t : State) : Prop where
  steady : steady t = steady s
  lastWin : t.prov.lastWin = put s.prov.lastWin u none
  learn : t.prov.learn = s.prov.learn
  red : ∀ g : Fin 32, t.prov.red[g] = redStatusNow t g
  circuits : t.prov.circuits = sweep leftRec (circuitsOf s u) s.prov.circuits
  leak : t.cable.leak = upd s.cable.leak u freshLeak
  tests : t.cable.circuits = sweep groundedRec (circuitsOf s u) s.cable.circuits

theorem leaves_leaveAdmitted (s : State) (u : Fin 12) : Leaves u s (leaveAdmitted s u) := by
  have same := steady_leaveAdmitted s u
  unfold leaveAdmitted at same ⊢
  dsimp only at same ⊢
  generalize hx : (setUnit s u fun x => { x with miss := 0, hotRun := 0, hotQuiet := 0, log := [] }) = x at same ⊢
  obtain ⟨i, coll, eng, dropped, -⟩ := dropInputs_frame x u
  have settled := kept_settle (dropInputs x u)
  generalize settle (dropInputs x u) = y at settled same ⊢
  have map : y.map = s.map := by rw [map_of_kept settled, dropped, ← hx]; rfl
  have prov : y.prov = s.prov := by rw [prov_of_kept settled, dropped, ← hx]; rfl
  have cable : y.cable = s.cable := by rw [cable_of_kept settled, dropped, ← hx]; rfl
  have circuits : circuitsOf y u = circuitsOf s u := by simp only [circuitsOf, circuitAt, map]
  rw [unitLeavesCable_eq, cable, circuits] at same ⊢
  generalize hz : ({ y with cable := _ } : State) = z at same ⊢
  obtain ⟨left, red⟩ := unitLeavesProving_prov z u
  have circuits : circuitsOf z u = circuitsOf s u := by rw [← hz]; exact circuits
  have prov : z.prov = s.prov := by rw [← hz]; exact prov
  rw [circuits, prov] at left
  have prov := prov_eq_of_kept left
  have cable : (unitLeavesProving z u).cable = z.cable := cable_eq_of_kept left
  exact ⟨same, by rw [prov]; rfl, by rw [prov]; rfl, red, by rw [prov]; rfl,
    by rw [cable, ← hz], by rw [cable, ← hz]⟩

/-! ## A miss of the exchange awaited (R112, R113) -/

theorem counting_iff : counting s = true ↔ s.mains.gap = false ∧ s.bus.lastInGap = false := by
  simp only [counting, Bool.and_eq_true, Bool.not_eq_true']

/-- The exchange's tests in flight resolved, as a miss leaves them. -/
abbrev unanswered (s : State) (u : Fin 12) : State := resolveTests (between s) u (lastWindowNo s) none

theorem units_unanswered (s : State) (u : Fin 12) : (unanswered s u).bus = s.bus := by
  rw [unanswered, resolveTests_silent]
  rfl

theorem takeMiss_counted (h : counting s = true) : takeMiss s u = takeLost (countMiss (unanswered s u) u) u := by
  unfold takeMiss
  dsimp only
  rw [if_pos h]

/-- A miss more brings the unit to the limit (R112). -/
abbrev Exhausted (s : State) (u : Fin 12) : Prop :=
  s.bus.units[u].state = .admitted ∧ s.tables.cable.missLimit ≤ min 10 (s.bus.units[u].miss + 1)

theorem lostDue_countMiss (tables : x.tables = s.tables) (bus : x.bus = s.bus) : lostDue (countMiss x u) u = true ↔ Exhausted s u := by
  have unit : (countMiss x u).bus.units[u] = { s.bus.units[u] with miss := bump 10 s.bus.units[u].miss } := by
    rw [countMiss, units_setUnit, if_pos rfl, bus]
  have tables : (countMiss x u).tables = s.tables := tables
  rw [lostDue, Bool.and_eq_true, decide_eq_true_eq, decide_eq_true_eq, unit, tables]
  rfl

theorem lostDue_unanswered : lostDue (countMiss (unanswered s u) u) u = true ↔ Exhausted s u :=
  lostDue_countMiss (by rw [unanswered, resolveTests_silent]; rfl) (units_unanswered s u)

/-- A miss that is counted and does not lose the unit advances its count. -/
theorem takeMiss_short (h : counting s = true) (short : ¬ Exhausted s u) :
    (takeMiss s u).bus.units[u] = { s.bus.units[u] with miss := min 10 (s.bus.units[u].miss + 1) } := by
  rw [takeMiss_counted h, takeLost_not_due _ _ (Bool.eq_false_iff.2 fun due => short (lostDue_unanswered.1 due)), countMiss, units_setUnit,
    if_pos rfl, units_unanswered]
  rfl

/-- The record of a unit just LOST (R112, R113). -/
def lostRec (r : UnitRec) : UnitRec := { r with state := .lost, lostRaised := true, miss := 0, hotRun := 0, hotQuiet := 0, log := [] }

/-- The miss that loses the unit: the units and the inputs. -/
theorem takeMiss_lost (h : counting s = true) (exhausted : Exhausted s u) :
    (∀ k : Fin 12, (takeMiss s u).bus.units[k] = if u = k then lostRec s.bus.units[k] else s.bus.units[k]) ∧
    (∀ e : Fin 64, (takeMiss s u).inputs[e] = if inputUnit s e = some u then inputRecPor else s.inputs[e]) ∧
    (takeMiss s u).bus.round = s.bus.round := by
  obtain ⟨units, inputs, round⟩ := takeLost_site (countMiss (unanswered s u) u) u (lostDue_unanswered.2 exhausted)
  have bus := units_unanswered s u
  have silent := resolveTests_silent (between s) u (lastWindowNo s)
  rw [takeMiss_counted h]
  refine ⟨fun k => ?_, fun e => ?_, ?_⟩
  · rw [units k, countMiss, units_setUnit, bus]
    split <;> rfl
  · rw [inputs e, countMiss, unanswered, silent]
    rfl
  · rw [round]
    generalize unanswered s u = x at bus ⊢
    exact (congrArg Bus.round bus : x.bus.round = s.bus.round)

/-- The miss that loses the unit: lamp proving and cable supervision. -/
theorem leaves_takeMiss (h : counting s = true) (exhausted : Exhausted s u) : Leaves u s (takeMiss s u) := by
  have silent : unanswered s u = _ := resolveTests_silent (between s) u (lastWindowNo s)
  have same := steady_takeMiss s u
  have due := lostDue_unanswered.2 exhausted
  rw [takeMiss_counted h] at same ⊢
  generalize hx : countMiss (unanswered s u) u = x at due same ⊢
  unfold takeLost at same ⊢
  rw [if_pos due] at same ⊢
  dsimp only at same ⊢
  generalize hy : (if x.bus.units[u].lostRaised = true then setUnit x u fun x => { x with state := .lost, lostRaised := true }
    else raise (setUnit x u fun x => { x with state := .lost, lostRaised := true }) .fiuLost (num u) .absent) = y at same ⊢
  have handed : kept y = kept (setUnit x u fun x => { x with state := .lost, lostRaised := true }) := by
    rw [← hy]
    split
    · rfl
    · exact kept_raise ..
  have prov : y.prov = s.prov := by rw [prov_of_kept handed, ← hx, silent]; rfl
  have leak : y.cable.leak = s.cable.leak := by rw [cable_of_kept handed, ← hx, silent]; rfl
  have tests : y.cable.circuits = sweep (landedRec (lastWindowNo s)) (circuitsOf s u) s.cable.circuits := by
    rw [cable_of_kept handed, ← hx, silent]; rfl
  have map : y.map = s.map := by rw [map_of_kept handed, ← hx, silent]; rfl
  have circuits : circuitsOf y u = circuitsOf s u := by simp only [circuitsOf, circuitAt, map]
  have left := leaves_leaveAdmitted y u
  refine ⟨same, by rw [left.lastWin, prov], by rw [left.learn, prov], left.red, by rw [left.circuits, prov, circuits],
    by rw [left.leak, leak], ?_⟩
  rw [left.tests, tests, circuits]
  refine Vector.ext fun i hi => ?_
  have once : ∀ r, groundedRec (groundedRec r) = groundedRec r := fun _ => rfl
  by_cases on : OnUnit s u ⟨i, hi⟩
  · have first := sweep_on once (sweep (landedRec (lastWindowNo s)) (circuitsOf s u) s.cable.circuits) on
    rw [sweep_on (landedRec_once _) _ on, groundedRec_landedRec] at first
    exact first.trans (sweep_on once _ on).symm
  · have first := sweep_off once (sweep (landedRec (lastWindowNo s)) (circuitsOf s u) s.cable.circuits) on
    rw [sweep_off (landedRec_once _) _ on] at first
    exact first.trans (sweep_off once _ on).symm

/-! ## What going on with the round leaves (R109, R114) -/

theorem passStep_cable (s : State) : (passStep s).cable = s.cable := by
  unfold passStep
  split
  · split <;> rfl
  all_goals rfl

theorem rollStep_cable (s : State) : (rollStep s).cable = s.cable := by
  unfold rollStep
  split
  · rfl
  · exact passStep_cable _

theorem rollStep_units (s : State) : (rollStep s).bus.units = s.bus.units := by
  unfold rollStep
  split
  · rfl
  · exact passStep_units _

/-- Of a cable record composition writes the test in flight, and that only on the units to be polled. -/
theorem goRound_tests (s : State) (c : Fin 96) : (goRound s).cable.circuits[c] =
      { s.cable.circuits[c] with inFlight := (goRound s).cable.circuits[c].inFlight } ∧
    ((∀ k ∈ s.bus.round.poll, ¬ OnUnit s k c) → (goRound s).cable.circuits[c] = s.cable.circuits[c]) := by
  rcases goRound_cases s with stands | ⟨u, rest, i, l, h⟩ | ⟨i, l, h⟩
  · rw [stands]
    exact ⟨rfl, fun _ => rfl⟩
  · rw [goRound_polls h, h]
    refine ⟨?_, fun off => compose_untested fun k at_ => absurd ⟨k, at_⟩ (off u (List.mem_cons_self ..))⟩
    rw [compose_circuit]
    split <;> rfl
  · rw [goRound_rolls h, rollStep_cable]
    exact ⟨rfl, fun _ => rfl⟩

theorem goRound_leak (s : State) : (goRound s).cable.leak = s.cable.leak := by
  rcases goRound_cases s with stands | ⟨u, rest, i, l, h⟩ | ⟨i, l, h⟩
  · rw [stands]
  · rw [goRound_polls h, compose_leak]
  · rw [goRound_rolls h, rollStep_cable]

/-- A unit not to be polled keeps its record. -/
theorem goRound_unit (h : u ∉ s.bus.round.poll) : (goRound s).bus.units[u] = s.bus.units[u] := by
  rcases goRound_cases s with stands | ⟨v, rest, i, l, hr⟩ | ⟨i, l, hr⟩
  · rw [stands]
  · rw [hr] at h
    have other : u ≠ v := by
      rintro rfl
      exact h (List.mem_cons_self ..)
    rw [goRound_polls hr, compose_unit_of_ne other]
  · rw [goRound_rolls hr, rollStep_units]

/-- Red status does not read which tests are in flight (R141 to R143). -/
theorem redStatusNow_of_tests (ht : t.tables = s.tables) (hm : t.map = s.map) (hp : t.prov.circuits = s.prov.circuits)
    (hc : ∀ c : Fin 96, t.cable.circuits[c] = { s.cable.circuits[c] with inFlight := t.cable.circuits[c].inFlight }) :
    redStatusNow t = redStatusNow s := by
  have active : cableActive t = cableActive s := by
    funext c
    unfold cableActive
    dsimp only
    rw [hc c]
  have forced : forcedOff t = forcedOff s := by
    funext c
    unfold forcedOff
    rw [hc c]
  have gives : givesRed t = givesRed s := by funext c; simp only [givesRed, active, forced, hp]
  have judged : redJudged t = redJudged s := by funext c; simp only [redJudged, active, forced, hp]
  have sets : setStatus t = setStatus s := by funext cs; simp only [setStatus, gives, judged]
  funext g
  have statuses : setStatuses t g = setStatuses s g := by simp only [setStatuses, sets, live_congr ht, ht, hm]
  unfold redStatusNow
  rw [hm, hp, statuses, active, live_congr ht]

/-- What the part is when a command ends that ends an exchange. -/
abbrev exchanged (s : State) : State := finish (exchangeOver s)

theorem exchanged_core (s : State) (k : Fin 12) : unitCore (exchanged s).bus.units[k] = unitCore s.bus.units[k] := by
  rw [finish_bus_units]
  exact goRound_core _ k

theorem exchanged_unit (h : u ∉ s.bus.round.poll) : (exchanged s).bus.units[u] = s.bus.units[u] := by
  rw [finish_bus_units]
  exact goRound_unit (s := setRound s fun r => { r with awaiting := none }) h

theorem exchanged_prov (s : State) : (exchanged s).prov = s.prov := by
  rw [finish_prov]
  exact (goRound_frame _).2.1

theorem exchanged_inputs (s : State) : (exchanged s).inputs = s.inputs := by
  rw [finish_inputs]
  exact (goRound_frame _).2.2

theorem exchanged_steady (s : State) : steady (exchanged s) = steady s := by
  rw [steady_finish, steady_exchangeOver]

theorem exchanged_leak (s : State) : (exchanged s).cable.leak = s.cable.leak := by
  rw [finish_cable]
  exact goRound_leak _

theorem exchanged_tests (s : State) (c : Fin 96) : (exchanged s).cable.circuits[c] =
      { s.cable.circuits[c] with inFlight := (exchanged s).cable.circuits[c].inFlight } ∧
    ((∀ k ∈ s.bus.round.poll, ¬ OnUnit s k c) → (exchanged s).cable.circuits[c] = s.cable.circuits[c]) := by
  have tests := goRound_tests (setRound s fun r => { r with awaiting := none }) c
  rw [finish_cable]
  exact tests

/-- Red status formed before an exchange ends stands after it. -/
theorem exchanged_red (h : ∀ g : Fin 32, s.prov.red[g] = redStatusNow s g) (g : Fin 32) :
    (exchanged s).prov.red[g] = redStatusNow (exchanged s) g := by
  have same := exchanged_steady s
  have prov := exchanged_prov s
  have status : redStatusNow (exchanged s) = redStatusNow s := redStatusNow_of_tests (tables_of_steady same) (map_of_steady same)
    (by rw [prov]) fun c => (exchanged_tests s c).1
  rw [status, prov, h]

/-! ## SENSE_MISS and FIU_LOST (R112, R113) -/

theorem exec_senseMiss_awaited (h : s.bus.round.awaiting = some u) : exec (.senseMiss u) s = .next (exchanged (takeMiss s u)) := by
  rw [exec_senseMiss, senseMissed_awaited h]

theorem exec_fiuLost (s : State) (u : Fin 12) : exec (.fiuLost u) s = .next (finish (if lostByMiss s u then senseMissed s u else s)) := rfl

theorem lostByMiss_exhausted : lostByMiss s u = true ↔ s.bus.round.awaiting = some u ∧ s.mains.gap = false ∧ s.bus.lastInGap = false ∧
    Exhausted s u := by
  rw [lostByMiss_iff, counting_iff, lostDue_countMiss rfl rfl, and_assoc]

/-- What a miss of the unit awaited makes of its state and its count. -/
theorem senseMiss_counts (awaited : s.bus.round.awaiting = some u) : ∃ t : State, exec (.senseMiss u) s = .next t ∧
    (s.mains.gap = true ∨ s.bus.lastInGap = true →
      t.bus.units[u].state = s.bus.units[u].state ∧ t.bus.units[u].miss = s.bus.units[u].miss) ∧
    (s.mains.gap = false → s.bus.lastInGap = false →
      (s.bus.units[u].state = .admitted → s.tables.cable.missLimit ≤ min 10 (s.bus.units[u].miss + 1) →
        t.bus.units[u].state = .lost ∧ t.bus.units[u].miss = 0 ∧ t.bus.units[u].lostRaised = true) ∧
      (s.bus.units[u].state ≠ .admitted ∨ min 10 (s.bus.units[u].miss + 1) < s.tables.cable.missLimit →
        t.bus.units[u].state = s.bus.units[u].state ∧ t.bus.units[u].miss = min 10 (s.bus.units[u].miss + 1))) := by
  refine ⟨_, exec_senseMiss_awaited awaited, ?_⟩
  have record := core_eq (exchanged_core (takeMiss s u) u)
  rw [record]
  refine ⟨fun gap => ?_, fun gap lastInGap => ⟨fun adm limit => ?_, fun short => ?_⟩⟩
  · have uncounted : counting s = false := by
      rw [← Bool.not_eq_true, counting_iff]
      rintro ⟨open_, last⟩
      rw [open_, last] at gap
      simp at gap
    rw [takeMiss_not_counted s u uncounted, units_unanswered]
    exact ⟨rfl, rfl⟩
  · obtain ⟨units, -⟩ := takeMiss_lost (counting_iff.2 ⟨gap, lastInGap⟩) ⟨adm, limit⟩
    rw [units u, if_pos rfl]
    exact ⟨rfl, rfl, rfl⟩
  · have stays : ¬ Exhausted s u := fun e => short.elim (fun out => out e.1) fun low => absurd e.2 (Nat.not_le.2 low)
    rw [takeMiss_short (counting_iff.2 ⟨gap, lastInGap⟩) stays]
    exact ⟨rfl, rfl⟩

/-- A proving record whose unit has left ADMITTED, by its verdict. -/
theorem leftRec_eq (r : ProvRec) : leftRec r = if r.verdict = .forced then r
    else { r with verdict := .unknown, cand := none, run := 0, onRun := 0, fault := none } := rfl

/-- The tests in flight once the exchange has ended that lost the unit: its own abandoned, and others as they were but on units to be polled. -/
theorem lost_tests (left : Leaves u s x) (round : x.bus.round = s.bus.round) (c : Fin 96) :
    (exchanged x).cable.circuits[c] = { s.cable.circuits[c] with inFlight := (exchanged x).cable.circuits[c].inFlight } ∧
    ((∀ k ∈ s.bus.round.poll, ∀ p : Fin 8, circuitAt s k p ≠ some c) → (exchanged x).cable.circuits[c].inFlight =
      if OnUnit s u c then none else s.cable.circuits[c].inFlight) := by
  have map : x.map = s.map := map_of_steady left.steady
  have at_ (k : Fin 12) (p : Fin 8) : circuitAt x k p = circuitAt s k p := by simp only [circuitAt, map]
  have once : ∀ r, groundedRec (groundedRec r) = groundedRec r := fun _ => rfl
  have abandoned : x.cable.circuits[c] = if OnUnit s u c then groundedRec s.cable.circuits[c] else s.cable.circuits[c] := by
    rw [left.tests]
    split
    next on => exact sweep_on once _ on
    next off => exact sweep_off once _ off
  obtain ⟨written, idle⟩ := exchanged_tests x c
  generalize (exchanged x).cable.circuits[c] = y at written idle ⊢
  refine ⟨?_, fun off => ?_⟩
  · rw [written, abandoned]
    split <;> rfl
  · rw [idle (by rw [round]; exact fun k polled ⟨p, h⟩ => off k polled p ((at_ k p).symm.trans h)), abandoned]
    split <;> rfl

/-- Settles O36: a miss by what it makes of the count, and the miss that loses the unit block by block. -/
theorem missesCounted : Obligations.MissesCounted := by
  refine fun s u => ⟨fun other => ?_, senseMiss_counts, fun short => ?_, fun awaited gap lastInGap adm limit => ⟨?_, ?_⟩⟩
  · rw [exec_senseMiss, senseMissed_other other]
  · rw [exec_fiuLost, if_neg fun lost => short (lostByMiss_exhausted.1 lost)]
  · rw [exec_fiuLost, exec_senseMiss, if_pos (lostByMiss_exhausted.2 ⟨awaited, gap, lastInGap, adm, limit⟩)]
  · refine ⟨exchanged (takeMiss s u), ?_, ?_⟩
    · rw [exec_fiuLost, if_pos (lostByMiss_exhausted.2 ⟨awaited, gap, lastInGap, adm, limit⟩), senseMissed_awaited awaited]
    have left := leaves_takeMiss (counting_iff.2 ⟨gap, lastInGap⟩) ⟨adm, limit⟩
    obtain ⟨units, inputs, round⟩ := takeMiss_lost (counting_iff.2 ⟨gap, lastInGap⟩) ⟨adm, limit⟩
    generalize takeMiss s u = x at left units inputs round ⊢
    have same := (exchanged_steady x).trans left.steady
    have record := core_eq (exchanged_core x u)
    have lost : x.bus.units[u] = lostRec s.bus.units[u] := by rw [units u, if_pos rfl]
    rw [lost] at record
    refine ⟨by rw [record]; rfl, by rw [record]; rfl, by rw [record]; rfl, by rw [record]; rfl, by rw [record]; rfl, fun unpolled => ?_,
      fun k other => ?_, fun e mine => ?_, fun e other => ?_, tables_of_steady same, clock_of_steady same, ?_, ?_,
      exchanged_red left.red, fun c on => ?_, fun c off => ?_, ?_, lost_tests left round⟩
    · rw [exchanged_unit (by rw [round]; exact unpolled), lost]
      rfl
    · have kept : x.bus.units[k] = s.bus.units[k] := by rw [units k, if_neg (Ne.symm other)]
      rw [← kept]
      exact core_eq (exchanged_core x k)
    · rw [exchanged_inputs, inputs e, if_pos mine]
      exact (Vector.getElem_replicate _).symm
    · rw [exchanged_inputs, inputs e, if_neg other]
    · rw [exchanged_prov, left.lastWin]
    · rw [exchanged_prov, left.learn]
    · rw [exchanged_prov, left.circuits, sweep_on leftRec_once _ on, leftRec_eq]
    · rw [exchanged_prov, left.circuits, sweep_off leftRec_once _ fun ⟨p, h⟩ => off p h]
    · rw [exchanged_leak, left.leak]
      rfl
end Sys2Proof.Machine

namespace Sys2Proof.Machine

open Sys2Proof

variable {s t w : State} {u : Fin 12} {f : SenseFrame}

/-! ## Which frames are taken (R112) -/

theorem exec_senseReceived (s : State) (f : SenseFrame) : exec (.senseReceived f) s = .next (finish (senseArrives s f)) := rfl

theorem senseArrives_idle (f : SenseFrame) (h : s.bus.round.awaiting = none) : senseArrives s f = s := by
  unfold senseArrives
  rw [h]

theorem senseArrives_awaited (f : SenseFrame) (h : s.bus.round.awaiting = some u) :
    senseArrives s f = exchangeOver (if validSense s u f then takeValid s u f else takeMiss s u) := by
  unfold senseArrives
  rw [h]

/-- The checks of a frame from the unit awaited. -/
theorem validSense_iff : validSense s u f = true ↔ f.crcGood = true ∧ f.sizeGood = true ∧ f.unit = num u ∧ f.window =
    if (logOf s u ((s.bus.seq + 254) % 255)).isSome = true then (s.bus.seq + 254) % 255 else 255 := by
  rw [validSense, Bool.and_eq_true, Bool.and_eq_true, Bool.and_eq_true, decide_eq_true_eq, decide_eq_true_eq, and_assoc, and_assoc]
  rfl

theorem gapFrame_iff : gapFrame s = true ↔ s.bus.lastInGap = true ∨ s.bus.windowInGap = true := by rw [gapFrame, Bool.or_eq_true]

theorem gapFrame_off : gapFrame s = false ↔ s.bus.lastInGap = false ∧ s.bus.windowInGap = false := by rw [gapFrame, Bool.or_eq_false_iff]

/-! ## The OVERTEMP flag of a frame (R117) -/

/-- A unit's record with the OVERTEMP flag of a frame taken: the two counts, and FIU_OVERTEMP held from run 10 until quiet 50. -/
def flaggedRec (hot : Bool) (x : UnitRec) : UnitRec :=
  { countHot hot x with
    hotRaised := ((countHot hot x).hotRaised || decide (10 ≤ (countHot hot x).hotRun)) && !decide (50 ≤ (countHot hot x).hotQuiet) }

theorem kept_takeHotRaise (s : State) (u : Fin 12) : kept (takeHotRaise s u) =
    kept (setUnit s u fun x => { x with hotRaised := x.hotRaised || decide (10 ≤ x.hotRun) }) := by
  unfold takeHotRaise hotRaiseDue
  split
  next due =>
    rw [Bool.and_eq_true] at due
    rw [kept_raise]
    exact congrArg kept (setUnit_congr (by rw [due.1, Bool.or_true]))
  next idle =>
    refine congrArg kept (setUnit_same ?_).symm
    have kept_ : ∀ a b : Bool, ¬ (a && !b) = true → (b || a) = b := by decide
    rw [kept_ _ _ idle]

theorem kept_takeHotClear (s : State) (u : Fin 12) : kept (takeHotClear s u) =
    kept (setUnit s u fun x => { x with hotRaised := x.hotRaised && !decide (50 ≤ x.hotQuiet) }) := by
  unfold takeHotClear hotClearDue
  split
  next due =>
    rw [Bool.and_eq_true] at due
    rw [kept_clear]
    exact congrArg kept (setUnit_congr (by rw [due.2, Bool.not_true, Bool.and_false]))
  next idle =>
    refine congrArg kept (setUnit_same ?_).symm
    have kept_ : ∀ a b : Bool, ¬ (b && a) = true → (b && !a) = b := by decide
    rw [kept_ _ _ idle]

theorem unit_takeFlags (s : State) (u : Fin 12) (f : SenseFrame) :
    (takeFlags s u f).bus.units[u] = flaggedRec f.overtemp s.bus.units[u] := by
  have written (a b : State) (g : UnitRec → UnitRec) (h : kept a = kept (setUnit b u g)) : a.bus.units[u] = g b.bus.units[u] := by
    rw [bus_units_of_kept h, units_setUnit, if_pos rfl]
  rw [takeFlags, written _ _ _ (kept_takeHotClear _ u), written _ _ _ (kept_takeHotRaise _ u), units_setUnit, if_pos rfl]
  rfl

/-- The counts and the mark of a record with the OVERTEMP flag taken. -/
theorem flaggedRec_fields (hot : Bool) (x : UnitRec) :
    (flaggedRec hot x).miss = x.miss ∧
    (flaggedRec hot x).hotRun = (if hot = true then min 10 (x.hotRun + 1) else 0) ∧
    (flaggedRec hot x).hotQuiet = (if hot = true then 0 else min 50 (x.hotQuiet + 1)) ∧
    ((flaggedRec hot x).hotRaised = true ↔
      (x.hotRaised = true ∨ (hot = true ∧ 10 ≤ x.hotRun + 1)) ∧ (hot = true ∨ x.hotQuiet + 1 < 50)) := by
  cases hot with
  | true =>
    refine ⟨rfl, rfl, rfl, ?_⟩
    have run : (10 ≤ min 10 (x.hotRun + 1)) ↔ 10 ≤ x.hotRun + 1 := by omega
    simp [flaggedRec, countHot, bump, run]
  | false =>
    refine ⟨rfl, rfl, rfl, ?_⟩
    have quiet : (50 ≤ min 50 (x.hotQuiet + 1)) ↔ ¬ x.hotQuiet + 1 < 50 := by omega
    simp [flaggedRec, countHot, bump, quiet]
    omega

/-! ## A valid frame taken through the stages of intake (R116) -/

/-- The state in which a valid frame is taken in: the frame stands, and the miss count is 0 where misses are counted. -/
def admittedFrame (s : State) (u : Fin 12) (f : SenseFrame) : State :=
  let s1 : State := { s with moment := frameMoment s u f }
  if counting s1 then setUnit s1 u fun x => { x with miss := 0 } else s1

theorem takeValid_eq (s : State) (u : Fin 12) (f : SenseFrame) : takeValid s u f = intake (admittedFrame s u f) u f := rfl

/-- The miss count of a unit after a valid frame (R112, R116). -/
abbrev missAfter (s : State) (u : Fin 12) : Nat := if s.mains.gap = true ∨ s.bus.lastInGap = true then s.bus.units[u].miss else 0

theorem admittedFrame_eq (s : State) (u : Fin 12) (f : SenseFrame) : admittedFrame s u f = { s with
    moment := frameMoment s u f
    bus := { s.bus with units := put s.bus.units u { s.bus.units[u] with miss := missAfter s u } } } := by
  have counts : counting { s with moment := frameMoment s u f } = true ↔ ¬ (s.mains.gap = true ∨ s.bus.lastInGap = true) := by
    rw [counting_iff, not_or, Bool.not_eq_true, Bool.not_eq_true]
  unfold admittedFrame missAfter
  dsimp only
  split
  next counted =>
    rw [if_neg (counts.1 counted)]
    rfl
  next gap =>
    have same : upd s.bus.units u (fun x => { x with miss := s.bus.units[u].miss }) = s.bus.units := upd_id _ _ _ rfl
    rw [if_pos (not_not.1 fun open_ => gap (counts.2 open_))]
    exact congrArg (fun units : Vector UnitRec 12 => { s with moment := frameMoment s u f, bus := { s.bus with units := units } }) same.symm

theorem frameMoment_gap (h : s.bus.lastInGap = true ∨ s.bus.windowInGap = true) : frameMoment s u f = .between := if_pos (gapFrame_iff.2 h)

theorem frameMoment_frame (h : gapFrame s = false) : frameMoment s u f = .frame u
    { judged := judgedBy s u f (inOrder s u f), learned := learnedBy s u f (inOrder s u f)
      tested := testedBy s u (lastWindowNo s) (inOrder s u f), lit := litBy s u f.window (inOrder s u f) } :=
  if_neg (by rw [h]; exact Bool.false_ne_true)

theorem intake_gap (h : gapFrame s = true) : intake s u f = resolveTests s u (lastWindowNo s) none := if_pos h

/-- Outside gap windows the frame goes through lamp proving, cable supervision, the OVERTEMP flag, the inputs and the sense report. -/
theorem intake_stages (h : gapFrame s = false) : intake s u f = forward (takeInputs (takeFlags (superviseFrame
    (proveFrame s u f (inOrder s u f)) u (lastWindowNo s) f (inOrder s u f)) u f) u f) u f := by
  rw [intake, if_neg (by rw [h]; exact Bool.false_ne_true)]

theorem unit_intake (h : gapFrame s = false) : (intake s u f).bus.units[u] = flaggedRec f.overtemp s.bus.units[u] := by
  have units_of_taking {a b : State} (h : taking a = taking b) : a.bus.units = b.bus.units := congrArg Prod.fst h
  have proved := taking_proveFrame s u f (inOrder s u f)
  rw [taking, Prod.mk.injEq] at proved
  rw [intake_stages h, units_of_taking (taking_forward ..), units_of_taking (taking_takeInputs ..), unit_takeFlags,
    units_of_taking (taking_superviseFrame ..), proved.1]

theorem lastWin_intake (h : gapFrame s = false) : (intake s u f).prov.lastWin = put s.prov.lastWin u (some (f.window, f.tap)) :=
  ((taking_intake s u f).2 h).2.1

/-- A frame of a gap window leaves all but the unit's tests in flight. -/
theorem intake_gap_eq (h : gapFrame s = true) : intake s u f = { s with cable := { s.cable with
    circuits := sweep (landedRec (lastWindowNo s)) (circuitsOf s u) s.cable.circuits } } := by
  rw [intake_gap h, resolveTests_silent]

/-! ## SENSE_RECEIVED (R112, R116) -/

theorem exec_senseReceived_valid (awaited : s.bus.round.awaiting = some u) (valid : validSense s u f = true) :
    exec (.senseReceived f) s = .next (exchanged (intake (admittedFrame s u f) u f)) := by
  rw [exec_senseReceived, senseArrives_awaited f awaited, if_pos valid, takeValid_eq]

/-- A frame that fails a check acts as a miss. -/
theorem exec_senseReceived_invalid (awaited : s.bus.round.awaiting = some u) (invalid : ¬ validSense s u f = true) :
    exec (.senseReceived f) s = exec (.senseMiss u) s := by
  rw [exec_senseReceived, senseArrives_awaited f awaited, if_neg invalid, exec_senseMiss_awaited awaited]

/-- What a valid frame makes of the unit and of its last window, in a gap window and outside one. -/
theorem intake_unit (hw : w = admittedFrame s u f) :
    (exchanged (intake w u f)).bus.units[u].miss = missAfter s u ∧
    (s.bus.lastInGap = true ∨ s.bus.windowInGap = true →
      (exchanged (intake w u f)).prov.lastWin[u] = s.prov.lastWin[u] ∧
      (exchanged (intake w u f)).bus.units[u].hotRun = s.bus.units[u].hotRun ∧
      (exchanged (intake w u f)).bus.units[u].hotQuiet = s.bus.units[u].hotQuiet) ∧
    (s.bus.lastInGap = false → s.bus.windowInGap = false →
      (exchanged (intake w u f)).prov.lastWin[u] = some (f.window, f.tap) ∧
      (exchanged (intake w u f)).bus.units[u].hotRun = (if f.overtemp = true then min 10 (s.bus.units[u].hotRun + 1) else 0) ∧
      (exchanged (intake w u f)).bus.units[u].hotQuiet = (if f.overtemp = true then 0 else min 50 (s.bus.units[u].hotQuiet + 1)) ∧
      ((exchanged (intake w u f)).bus.units[u].hotRaised = true ↔
        (s.bus.units[u].hotRaised = true ∨ (f.overtemp = true ∧ 10 ≤ s.bus.units[u].hotRun + 1)) ∧
        (f.overtemp = true ∨ s.bus.units[u].hotQuiet + 1 < 50))) := by
  rw [admittedFrame_eq] at hw
  have unit : w.bus.units[u] = { s.bus.units[u] with miss := missAfter s u } := by rw [hw]; exact getElem_put_self ..
  have prov : w.prov = s.prov := by rw [hw]
  have gap_iff : gapFrame w = gapFrame s := by rw [hw]; rfl
  have record := core_eq (exchanged_core (intake w u f) u)
  rw [record, exchanged_prov]
  cases gap : gapFrame s with
  | true =>
    rw [intake_gap_eq (gap_iff.trans gap)]
    dsimp only
    rw [unit, prov]
    refine ⟨rfl, fun _ => ⟨rfl, rfl, rfl⟩, fun last window => ?_⟩
    rw [gapFrame_off.2 ⟨last, window⟩] at gap
    cases gap
  | false =>
    rw [lastWin_intake (gap_iff.trans gap), unit_intake (gap_iff.trans gap), unit, prov]
    obtain ⟨miss, run, quiet, raised⟩ := flaggedRec_fields f.overtemp { s.bus.units[u] with miss := missAfter s u }
    refine ⟨miss, fun inGap => ?_, fun _ _ => ⟨getElem_put_self .., run, quiet, raised⟩⟩
    rw [gapFrame_iff.2 inGap] at gap
    cases gap

/-- Settles O32: a frame by the checks of R112, then the state it is taken in and the stages, or the tests resolved in a gap window. -/
theorem senseTaken : Obligations.SenseTaken := by
  refine fun s f => ⟨fun idle => ?_, fun u awaited => ⟨fun invalid => ?_, fun crc size unit window => ?_⟩⟩
  · rw [exec_senseReceived, senseArrives_idle f idle]
  · exact exec_senseReceived_invalid awaited fun valid => invalid (validSense_iff.1 valid)
  · have run := exec_senseReceived_valid awaited (validSense_iff.2 ⟨crc, size, unit, window⟩)
    obtain ⟨miss, inGap, outside⟩ := intake_unit (s := s) (u := u) (f := f) rfl
    have written := admittedFrame_eq s u f
    refine ⟨_, run, miss, inGap, outside, admittedFrame s u f, ?_⟩
    generalize admittedFrame s u f = w at run written ⊢
    have moment : w.moment = frameMoment s u f := by rw [written]
    have gap_iff : gapFrame w = gapFrame s := by rw [written]; rfl
    refine ⟨?_, by rw [moment]; exact written, fun last window => ?_, fun gap => ⟨_, run, ?_⟩⟩
    · rw [moment]
      split
      next gap => exact frameMoment_gap gap
      next plain => exact frameMoment_frame (Bool.eq_false_iff.2 fun gap => plain (gapFrame_iff.1 gap))
    · rw [run, intake_stages (gap_iff.trans (gapFrame_off.2 ⟨last, window⟩)), written]
      rfl
    · have cable : w.cable = s.cable := by rw [written]
      have circuits : circuitsOf w u = circuitsOf s u := by rw [written]; rfl
      have number : lastWindowNo w = (s.bus.seq + 254) % 255 := by rw [written]; rfl
      rw [intake_gap_eq (gap_iff.trans (gapFrame_iff.2 gap)), cable, circuits, number]
      refine ⟨rfl, rfl, fun c => ⟨fun on flies => ?_, fun away => ?_⟩⟩
      · exact (sweep_on (landedRec_once _) _ on).trans (if_pos flies)
      · by_cases on : OnUnit s u c
        · exact (sweep_on (landedRec_once _) _ on).trans (if_neg (away.resolve_left fun off => on.elim off))
        · exact sweep_off (landedRec_once _) _ on

end Sys2Proof.Machine

namespace Sys2Proof.Machine

open Sys2Proof

/-! ## The window verdict (R129 to R133) -/

section WindowVerdict

variable {s : State} {c : Fin 96} {t : Tap} {isum vsup : Nat}

theorem lampsLit_all {k q : Nat} (h : k ≤ (k * q + 500) / 1000) : lampsLit k q = k := Nat.min_eq_left h

theorem lampsLit_some {k q : Nat} (h : ¬ k ≤ (k * q + 500) / 1000) : lampsLit k q = (k * q + 500) / 1000 :=
  Nat.min_eq_right (Nat.le_of_not_le h)

/-- The verdict by the nearest equal share, written out (R132). -/
theorem windowVerdict_eq (tLo tHi k q : Nat) : windowVerdict tLo tHi k q =
    if 1000 + tHi < q then .high
    else if k ≤ (k * q + 500) / 1000 then (if 1000 - tLo ≤ q then .ok else .low)
    else if k * q < 500 then .out
    else .partialOf ((k * q + 500) / 1000) := by
  unfold windowVerdict
  by_cases all : k ≤ (k * q + 500) / 1000
  · rw [lampsLit_all all, if_pos rfl, if_pos all]
  · have short : (k * q + 500) / 1000 ≠ k := fun e => all (Nat.le_of_eq e.symm)
    have dark : (k * q + 500) / 1000 = 0 ↔ k * q < 500 := by
      generalize k * q = x
      omega
    rw [lampsLit_some all, if_neg short, if_neg all]
    simp only [dark]

/-- The expected current, by the code of the load class (R131). -/
theorem iexp_loadClassOf (iref vref : Nat) : iexp (loadClassOf s c) iref vref vsup =
    if s.tables.circuit[c].loadClass = 2 then (iref * vref + vsup / 2) / vsup else (iref * vsup + vref / 2) / vref := by
  unfold loadClassOf
  match s.tables.circuit[c].loadClass with
  | 0 => rfl
  | 1 => rfl
  | 2 => rfl
  | n + 3 => simp [LoadClass.ofCode, iexp, roundDiv]

theorem judgeWindow_presence (h : s.tables.circuit[c].proving ≠ 1 ∨ (RefEntry.part s.tables.reference[c] t).held ≠ 1) :
    judgeWindow s c t isum vsup = (some (presenceVerdict s.tables.proving.presence isum), none) := by
  have unreferenced : (if provingOn s c then reference s c t else none) = none := by
    rcases h with off | unheld
    · simp only [provingOn, off, decide_false, Bool.false_eq_true, if_false]
    · simp only [reference, unheld, if_false, ite_self]
  rw [judgeWindow, unreferenced]

theorem judgeWindow_referenced (on : s.tables.circuit[c].proving = 1) (held : (RefEntry.part s.tables.reference[c] t).held = 1) :
    judgeWindow s c t isum vsup =
      if supplyInRange (RefEntry.part s.tables.reference[c] t).vref vsup then
        let q := ratioOf isum (iexp (loadClassOf s c) (RefEntry.part s.tables.reference[c] t).iref
          (RefEntry.part s.tables.reference[c] t).vref vsup)
        (some (windowVerdict s.tables.proving.tLo s.tables.proving.tHi s.tables.circuit[c].k q), some q)
      else (none, none) := by
  have referenced : (if provingOn s c then reference s c t else none) = some (RefEntry.part s.tables.reference[c] t) := by
    simp only [provingOn, on, decide_true, if_true, reference, held]
  rw [judgeWindow, referenced]

theorem supplyInRange_iff {vref : Nat} : supplyInRange vref vsup = true ↔ 3 * vref ≤ 4 * vsup ∧ 4 * vsup ≤ 5 * vref := by
  rw [supplyInRange, Bool.and_eq_true, decide_eq_true_eq, decide_eq_true_eq]

end WindowVerdict

/-- Settles O53: by the count of lamps lit, and by whether a reference is held and the supply is in its range. -/
theorem windowJudged : Obligations.WindowJudged := by
  refine ⟨windowVerdict_eq, fun s c t isum vsup => ⟨judgeWindow_presence, fun on held => ?_⟩⟩
  rw [judgeWindow_referenced on held]
  refine ⟨fun out => ?_, fun expected q low high he hq => ?_⟩
  · rw [if_neg]
    rw [supplyInRange_iff]
    omega
  · rw [if_pos (supplyInRange_iff.2 ⟨low, high⟩), iexp_loadClassOf, ← he, hq]
    rfl

end Sys2Proof.Machine

namespace Sys2Proof.Machine

open Sys2Proof

/-! ## The candidate confirmed (R134, R135) -/

section Confirmed

variable {s : State} {c : Fin 96} {v : Verdict}

/-- A record with its candidate taken once its run has confirmed it (R134, R135). -/
def concludedRec (s : State) (c : Fin 96) (r : ProvRec) : ProvRec :=
  match r.cand with
  | some v => if confirmCount s v ≤ r.run then { r with verdict := v, cand := none, run := 0, fault := lampFault s c v } else r
  | none => r

theorem concludedRec_due {r : ProvRec} (hv : r.cand = some v) (due : confirmCount s v ≤ r.run) :
    concludedRec s c r = { r with verdict := v, cand := none, run := 0, fault := lampFault s c v } := by
  rw [concludedRec, hv]
  exact if_pos due

theorem concludedRec_waits {r : ProvRec} (h : r.cand = none ∨ ∃ v : Verdict, r.cand = some v ∧ r.run < confirmCount s v) :
    concludedRec s c r = r := by
  rw [concludedRec]
  rcases h with none | ⟨v, hv, short⟩
  · rw [none]
  · rw [hv]
    exact if_neg (Nat.not_le_of_lt short)

theorem withCircuit_congr {p : Proving} {f g : ProvRec → ProvRec} (h : f p.circuits[c] = g p.circuits[c]) :
    p.withCircuit c f = p.withCircuit c g := by
  unfold Proving.withCircuit upd
  rw [h]

/-- Confirming rewrites the circuit's record, and what is kept besides stays. -/
theorem kept_takeConfirm_concluded (s : State) (c : Fin 96) :
    kept (takeConfirm s c) = (kept s).withProv (s.prov.withCircuit c (concludedRec s c)) := by
  rw [kept_takeConfirm, confirmDue]
  cases hv : s.prov.circuits[c].cand with
  | none =>
    rw [Proving.withCircuit, upd_id _ _ _ (concludedRec_waits (.inl hv))]
    rfl
  | some v =>
    dsimp only
    by_cases due : confirmCount s v ≤ s.prov.circuits[c].run
    · have concluded : s.prov.withCircuit c (concludedRec s c) = s.prov.withCircuit c fun r =>
          { r with verdict := v, cand := none, run := 0, fault := lampFault s c v } := withCircuit_congr (concludedRec_due hv due)
      rw [if_pos due, concluded]
    · rw [if_neg due, Proving.withCircuit, upd_id _ _ _ (concludedRec_waits (.inr ⟨v, hv, Nat.lt_of_not_le due⟩))]
      rfl

theorem confirmCount_eq (s : State) (v : Verdict) : confirmCount s v =
    if v = .ok ∨ v = .present then s.tables.proving.recoverConfirm else s.tables.proving.failConfirm := by
  cases v <;> simp [confirmCount]

theorem lampFault_eq (s : State) (c : Fin 96) (v : Verdict) : lampFault s c v =
    match v with
    | .out => some .out
    | .absent => if s.tables.circuit[c].proving = 1 then some .out else none
    | .partialOf _ => some .part
    | .low => some .low
    | .high => some .high
    | .ok | .present | .unknown | .forced => none := by
  cases v
  case absent => simp only [lampFault, provingOn, decide_eq_true_eq]
  all_goals rfl

theorem exec_verdictConfirm_idle (h : frameWorked s FrameWork.judged c = false) :
    exec (.verdictConfirm c) s = .next (finish s) :=
  congrArg Host.Outcome.next (atFrame_idle s _ h)

theorem exec_verdictConfirm_stands (h : frameWorked s FrameWork.judged c = true) :
    exec (.verdictConfirm c) s = .next (finish (recomputeRed (takeConfirm s c))) :=
  congrArg Host.Outcome.next (atFrame_stands s _ h)

/-- The command at its frame: the circuit's record concluded, then red status formed afresh. -/
theorem kept_verdictConfirm (s : State) (c : Fin 96) : kept (finish (recomputeRed (takeConfirm s c))) =
    (kept s).withProv { s.prov.withCircuit c (concludedRec s c) with
      red := (finish (recomputeRed (takeConfirm s c))).prov.red } := by
  have concluded := kept_takeConfirm_concluded s c
  generalize takeConfirm s c = x at concluded ⊢
  have formed := (kept_finish (recomputeRed x)).trans (kept_recomputeRed x)
  have red : (finish (recomputeRed x)).prov.red = tab fun g => redStatusNow x g := congrArg Proving.red (prov_eq_of_kept formed)
  rw [red, formed, concluded, prov_eq_of_kept concluded]
  rfl

/-- The end of a command leaves red status as it was formed (R143). -/
theorem red_finish_recomputeRed (x : State) (g : Fin 32) :
    (finish (recomputeRed x)).prov.red[g] = redStatusNow (finish (recomputeRed x)) g := by
  have ended := kept_finish (recomputeRed x)
  have same : redStatusNow (finish (recomputeRed x)) = redStatusNow (recomputeRed x) :=
    redStatusNow_congr (tables_of_kept ended) (map_of_kept ended) (by rw [prov_of_kept ended]) (by rw [cable_of_kept ended])
  rw [same, ← red_recomputeRed, prov_of_kept ended]

end Confirmed

/-- Settles O48: the circuit's record alone is concluded, by whether its candidate has run to its count. -/
theorem verdictConfirmed : Obligations.VerdictConfirmed := by
  refine fun s c => ⟨exec_verdictConfirm_idle, fun stands => ⟨_, exec_verdictConfirm_stands stands, ?_⟩⟩
  have after := kept_verdictConfirm s c
  have red := red_finish_recomputeRed (takeConfirm s c)
  generalize finish (recomputeRed (takeConfirm s c)) = t at after red ⊢
  have prov : t.prov = { s.prov.withCircuit c (concludedRec s c) with red := t.prov.red } := prov_eq_of_kept after
  have circuits : t.prov.circuits = (s.prov.withCircuit c (concludedRec s c)).circuits := (congrArg Proving.circuits prov).trans rfl
  refine ⟨(congrArg Proving.learn prov).trans rfl, cable_eq_of_kept after, tables_eq_of_kept after, map_eq_of_kept after,
    (congrArg Proving.lastWin prov).trans rfl, red, fun d other => ?_, fun v cand due => ?_, fun waits => ?_⟩
  · rw [circuits, withCircuit_of_ne _ _ _ _ (Ne.symm other)]
  · rw [← confirmCount_eq] at due
    rw [circuits, withCircuit_self, concludedRec_due cand due]
    exact congrArg (fun x => { s.prov.circuits[c] with verdict := v, cand := none, run := 0, fault := x }) (lampFault_eq s c v)
  · simp only [← confirmCount_eq] at waits
    rw [circuits, withCircuit_self, concludedRec_waits waits]

/-! ## The end of learning (R139) -/

section Learning

variable {s : State} {c : Fin 96}

theorem testMade_iff {l : LearnRec} : testMade l = true ↔ l.state = .learning ∧ l.nMin ≤ l.count ∧ l.ring.length = 8 := by
  simp only [testMade, Bool.and_eq_true, decide_eq_true_eq, and_assoc]

theorem converged_iff {l : LearnRec} :
    converged s l = true ↔ 1000 * ringSpread l ≤ s.tables.proving.spread * ringMean l := decide_eq_true_iff

theorem takeConverge_idle (h : ¬ (testMade s.prov.learn[c] = true ∧ converged s s.prov.learn[c] = true)) : takeConverge s c = s := by
  rw [← Bool.and_eq_true] at h
  exact if_neg h

theorem takeConverge_due (made : testMade s.prov.learn[c] = true) (conv : converged s s.prov.learn[c] = true) : takeConverge s c =
    if ringMean s.prov.learn[c] < 32 then setLearn s c fun l => LearnRec.failed l .noLoad
    else if ringVmean s.prov.learn[c] < 50 then setLearn s c fun l => LearnRec.failed l .noSupply
    else learnDone s c := by
  unfold takeConverge
  dsimp only
  rw [made, conv]
  rfl

theorem takeUnstable_idle (h : ¬ testMade s.prov.learn[c] = true ∨ converged s s.prov.learn[c] = true ∨
    s.prov.learn[c].count < s.prov.learn[c].nMax) : takeUnstable s c = s := by
  refine if_neg fun due => ?_
  simp only [Bool.and_eq_true, Bool.not_eq_true', decide_eq_true_eq] at due
  obtain ⟨⟨made, apart⟩, last⟩ := due
  rcases h with unmade | conv | more
  · exact unmade made
  · rw [conv] at apart; cases apart
  · exact Nat.not_le_of_lt more last

theorem takeUnstable_due (made : testMade s.prov.learn[c] = true) (apart : ¬ converged s s.prov.learn[c] = true)
    (last : s.prov.learn[c].nMax ≤ s.prov.learn[c].count) :
    takeUnstable s c = setLearn s c fun l => LearnRec.failed l .unstable := by
  refine if_pos ?_
  rw [made, Bool.eq_false_iff.2 apart, decide_eq_true last]
  rfl

theorem exec_learnConverge_idle (h : frameWorked s FrameWork.learned c = false) :
    exec (.learnConverge c) s = .next (finish s) := congrArg Host.Outcome.next (atFrame_idle s _ h)

theorem exec_learnConverge_stands (h : frameWorked s FrameWork.learned c = true) :
    exec (.learnConverge c) s = .next (finish (takeConverge s c)) := congrArg Host.Outcome.next (atFrame_stands s _ h)

theorem exec_learnUnstable_idle (h : frameWorked s FrameWork.learned c = false) :
    exec (.learnUnstable c) s = .next (finish s) := congrArg Host.Outcome.next (atFrame_idle s _ h)

theorem exec_learnUnstable_stands (h : frameWorked s FrameWork.learned c = true) :
    exec (.learnUnstable c) s = .next (finish (takeUnstable s c)) := congrArg Host.Outcome.next (atFrame_stands s _ h)

/-- With no test to be made both commands change nothing. -/
theorem learning_idle (h : frameWorked s FrameWork.learned c = false ∨ ¬ testMade s.prov.learn[c] = true) :
    exec (.learnConverge c) s = .next (finish s) ∧ exec (.learnUnstable c) s = .next (finish s) := by
  cases stands : frameWorked s FrameWork.learned c with
  | false => exact ⟨exec_learnConverge_idle stands, exec_learnUnstable_idle stands⟩
  | true =>
    have unmade : ¬ testMade s.prov.learn[c] = true := h.resolve_left (by rw [stands]; exact Bool.noConfusion)
    rw [exec_learnConverge_stands stands, exec_learnUnstable_stands stands, takeConverge_idle fun due => unmade due.1,
      takeUnstable_idle (.inl unmade)]
    exact ⟨rfl, rfl⟩

end Learning

/-- Settles O50: by whether the test is made, then by whether the ring has converged. -/
theorem learningEnds : Obligations.LearningEnds := by
  intro s c l r hl hr
  subst hl
  obtain rfl : r = ringResult s.prov.learn[c] := hr
  refine ⟨fun stands state count full => ⟨fun within => ?_, fun apart => ?_⟩, fun idle => ?_⟩
  · have made := testMade_iff.2 ⟨state, count, full⟩
    have conv : converged s s.prov.learn[c] = true := converged_iff.2 within
    rw [exec_learnConverge_stands stands, exec_learnUnstable_stands stands, takeUnstable_idle (.inr (.inl conv)),
      takeConverge_due made conv]
    refine ⟨rfl, fun dark => ?_, fun lit low => ?_, fun lit supplied => ?_⟩
    · exact congrArg (Host.Outcome.next <| finish ·) (if_pos dark)
    · exact congrArg (Host.Outcome.next <| finish ·) ((if_neg (Nat.not_lt_of_le lit)).trans (if_pos low))
    · exact congrArg (Host.Outcome.next <| finish ·)
        ((if_neg (Nat.not_lt_of_le lit)).trans (if_neg (Nat.not_lt_of_le supplied)))
  · have made := testMade_iff.2 ⟨state, count, full⟩
    have wide : ¬ converged s s.prov.learn[c] = true := fun conv => Nat.not_le_of_lt apart (converged_iff.1 conv)
    rw [exec_learnConverge_stands stands, exec_learnUnstable_stands stands, takeConverge_idle fun due => wide due.2]
    refine ⟨rfl, fun last => ?_, fun more => ?_⟩
    · rw [takeUnstable_due made wide last]
      rfl
    · rw [takeUnstable_idle (.inr (.inr more))]
  · refine learning_idle (idle.imp_right fun unfit made => ?_)
    obtain ⟨state, count, full⟩ := testMade_iff.1 made
    rcases unfit with other | early | short
    · exact other state
    · exact Nat.not_le_of_lt early count
    · exact short full

end Sys2Proof.Machine

namespace Sys2Proof.Machine

open Sys2Proof

/-! ## Red sets and red status (R141 to R143) -/

section RedStatus

variable {s : State} {c : Fin 96} {g : Fin 32} {m : CircuitMap} {cs : List (Fin 96)} {xs : List SetStatus}

theorem cableActive_iff : cableActive s c = true ↔ s.cable.circuits[c].openRaised = true ∨
    s.cable.circuits[c].shortRaised = true ∨ s.cable.circuits[c].ovcRaised = true := by
  simp only [cableActive, Bool.or_eq_true, or_assoc]

theorem givesRed_iff : givesRed s c = true ↔ ¬ cableActive s c = true ∧ s.cable.circuits[c].retry = .normal ∧
    (s.prov.circuits[c].verdict = .ok ∨ s.prov.circuits[c].verdict = .low ∨
      (∃ n : Nat, s.prov.circuits[c].verdict = .partialOf n) ∨ s.prov.circuits[c].verdict = .high ∨
      s.prov.circuits[c].verdict = .present) := by
  unfold givesRed forcedOff
  rw [Bool.and_eq_true, Bool.and_eq_true, Bool.not_eq_true', Bool.not_eq_true', decide_eq_false_iff_not, not_not, Bool.not_eq_true,
    and_assoc]
  cases s.prov.circuits[c].verdict <;> simp

theorem redJudged_iff : redJudged s c = true ↔
    s.prov.circuits[c].verdict ≠ .unknown ∨ s.cable.circuits[c].retry ≠ .normal ∨ cableActive s c = true := by
  simp only [redJudged, forcedOff, Bool.or_eq_true, decide_eq_true_eq, or_assoc]

/-- The status of a red set by its circuits (R142). -/
theorem setStatus_iff (s : State) (cs : List (Fin 96)) :
    (setStatus s cs = .gives ↔ ∃ c ∈ cs, givesRed s c = true) ∧
    (setStatus s cs = .lost ↔ ∀ c ∈ cs, ¬ givesRed s c = true ∧ redJudged s c = true) ∧
    (setStatus s cs = .unknown ↔ (∀ c ∈ cs, ¬ givesRed s c = true) ∧ ∃ c ∈ cs, ¬ redJudged s c = true) := by
  unfold setStatus
  by_cases given : ∃ c ∈ cs, givesRed s c = true
  · obtain ⟨c, hc, red⟩ := given
    rw [if_pos (List.any_eq_true.2 ⟨c, hc, red⟩)]
    refine ⟨⟨fun _ => ⟨c, hc, red⟩, fun _ => rfl⟩, ⟨SetStatus.noConfusion, fun dark => absurd red (dark c hc).1⟩,
      ⟨SetStatus.noConfusion, fun dark => absurd red (dark.1 c hc)⟩⟩
  · have dark : ∀ c ∈ cs, ¬ givesRed s c = true := fun c hc red => given ⟨c, hc, red⟩
    rw [if_neg fun any => given (List.any_eq_true.1 any)]
    by_cases judged : ∀ c ∈ cs, redJudged s c = true
    · rw [if_pos (List.all_eq_true.2 judged)]
      exact ⟨⟨SetStatus.noConfusion, fun some => absurd some given⟩, ⟨fun _ c hc => ⟨dark c hc, judged c hc⟩, fun _ => rfl⟩,
        ⟨SetStatus.noConfusion, fun ⟨_, c, hc, open_⟩ => absurd (judged c hc) open_⟩⟩
    · rw [if_neg fun all => judged (List.all_eq_true.1 all)]
      refine ⟨⟨SetStatus.noConfusion, fun some => absurd some given⟩,
        ⟨SetStatus.noConfusion, fun all => absurd (fun c hc => (all c hc).2) judged⟩, fun _ => ⟨dark, ?_⟩, fun _ => rfl⟩
      push Not at judged
      simpa only [Bool.not_eq_true, ne_eq, exists_prop] using judged

theorem setStatuses_none (h : s.map = none ∨ live s g = false) : setStatuses s g = [] := by
  unfold setStatuses
  cases map : s.map with
  | none => rfl
  | some m =>
    have unused : live s g = false := h.resolve_left (by rw [map]; exact Option.some_ne_none m)
    simp only [unused, Bool.false_eq_true, if_false]

theorem redStatusNow_none (h : s.map = none ∨ live s g = false) : redStatusNow s g = .unknown := by
  unfold redStatusNow
  cases map : s.map with
  | none => rfl
  | some m =>
    have unused : live s g = false := h.resolve_left (by rw [map]; exact Option.some_ne_none m)
    simp only [unused, Bool.not_false, if_true]

theorem setStatuses_live (map : s.map = some m) (lives : live s g = true) :
    setStatuses s g = (m.groups[g].redSets.toList.take s.tables.group[g].redSets).map (setStatus s) := by
  unfold setStatuses
  rw [map]
  exact if_pos lives

theorem length_setStatuses (map : s.map = some m) (lives : live s g = true) (few : s.tables.group[g].redSets ≤ 4) :
    (setStatuses s g).length = s.tables.group[g].redSets := by
  rw [setStatuses_live map lives, List.length_map, List.length_take, Vector.length_toList, Nat.min_eq_left few]

theorem getElem_setStatuses (map : s.map = some m) (lives : live s g = true) {k : Fin 4}
    (used : k.val < s.tables.group[g].redSets) : (setStatuses s g)[k.val]? = some (setStatus s m.groups[g].redSets[k]) := by
  rw [setStatuses_live map lives, List.getElem?_map, List.getElem?_take_of_lt used, List.getElem?_eq_getElem (by simp),
    Vector.getElem_toList]
  rfl

/-- A status of one of the four places is a status of the group's sets. -/
theorem mem_places {x : SetStatus} (few : xs.length ≤ 4) : some x ∈ ((idx 4).map fun k => xs[k.val]?) ↔ x ∈ xs := by
  rw [List.mem_map, List.mem_iff_getElem?]
  constructor
  · rintro ⟨k, -, hk⟩
    exact ⟨k.val, hk⟩
  · rintro ⟨k, hk⟩
    obtain ⟨short, -⟩ := List.getElem?_eq_some_iff.1 hk
    exact ⟨⟨k, by omega⟩, List.mem_finRange _, hk⟩

/-- With no set LOST and none UNKNOWN each gives red. -/
theorem all_gives_iff : (∀ x ∈ xs, x = .gives) ↔ SetStatus.lost ∉ xs ∧ SetStatus.unknown ∉ xs := by
  constructor
  · intro all
    exact ⟨fun h => SetStatus.noConfusion (all _ h), fun h => SetStatus.noConfusion (all _ h)⟩
  · rintro ⟨lost, unknown⟩ x hx
    cases x with
    | gives => rfl
    | lost => exact absurd hx lost
    | unknown => exact absurd hx unknown

/-- Every RED circuit is OK with no cable record active (R143). -/
theorem redCircuits_iff : (cs.all fun c => decide (s.prov.circuits[c].verdict = .ok) && !cableActive s c) = true ↔
    ∀ c ∈ cs, s.prov.circuits[c].verdict = .ok ∧ ¬ cableActive s c = true := by
  simp only [List.all_eq_true, Bool.and_eq_true, decide_eq_true_eq, Bool.not_eq_true', Bool.not_eq_true]

/-- The red status of a group in use, in the order in which R143 asks. -/
theorem redStatusNow_live (map : s.map = some m) (lives : live s g = true) : redStatusNow s g =
    if SetStatus.lost ∈ setStatuses s g then .lost
    else if SetStatus.unknown ∈ setStatuses s g then .unknown
    else if ∀ c ∈ m.groups[g].red, s.prov.circuits[c].verdict = .ok ∧ ¬ cableActive s c = true then .proven
    else .degraded := by
  have any_iff (x : SetStatus) : ((setStatuses s g).any fun y => decide (y = x)) = true ↔ x ∈ setStatuses s g := by
    simp only [List.any_eq_true, decide_eq_true_eq, exists_eq_right]
  unfold redStatusNow
  rw [map]
  simp only [lives, Bool.not_true, Bool.false_eq_true, if_false, any_iff, redCircuits_iff]

/-- The statuses of a group in use told apart (R143). -/
theorem redStatusNow_iff (map : s.map = some m) (lives : live s g = true) :
    (redStatusNow s g = .lost ↔ SetStatus.lost ∈ setStatuses s g) ∧
    (redStatusNow s g = .unknown ↔ SetStatus.lost ∉ setStatuses s g ∧ SetStatus.unknown ∈ setStatuses s g) ∧
    (redStatusNow s g = .proven ↔ (∀ x ∈ setStatuses s g, x = .gives) ∧
      ∀ c ∈ m.groups[g].red, s.prov.circuits[c].verdict = .ok ∧ ¬ cableActive s c = true) ∧
    (redStatusNow s g = .degraded ↔ (∀ x ∈ setStatuses s g, x = .gives) ∧
      ∃ c ∈ m.groups[g].red, ¬ (s.prov.circuits[c].verdict = .ok ∧ ¬ cableActive s c = true)) := by
  have short : (∃ c ∈ m.groups[g].red, ¬ (s.prov.circuits[c].verdict = .ok ∧ ¬ cableActive s c = true)) ↔
      ¬ ∀ c ∈ m.groups[g].red, s.prov.circuits[c].verdict = .ok ∧ ¬ cableActive s c = true := by
    push Not
    rfl
  rw [redStatusNow_live map lives, all_gives_iff, short]
  split_ifs with lost unknown proven
  · tauto
  · tauto
  · tauto
  · tauto

end RedStatus

/-! ## The inhibit set (R32, R41) -/

section InhibitSet

variable {s : State} {j : Fin 32}

theorem monitored_iff : monitored s j = true ↔
    (s.port.configOpen = false ∧ live s j = true) ∨ (s.port.configOpen = true ∧ mem s.acting j = true) := by
  unfold monitored
  cases s.port.configOpen <;> simp

theorem inhibitedNow_iff : inhibitedNow s j = true ↔
    ((s.port.configOpen = false ∧ live s j = true) ∨ (s.port.configOpen = true ∧ mem s.acting j = true)) ∧
    (mem s.coll.inhibitDemand j = true ∨ ((s.jm.mode = .plan ∨ s.jm.mode = .directDrive) ∧
      ∃ i : Fin 32, live s i = true ∧ (s.prov.red[i] = .lost ∨ s.prov.red[i] = .unknown) ∧ conflicts s i j = true)) := by
  simp only [inhibitedNow, Bool.and_eq_true, Bool.or_eq_true, decide_eq_true_eq, monitored_iff, List.any_eq_true, List.mem_finRange,
    true_and, and_assoc]

end InhibitSet

/-- Settles O49: the sets by their circuits, the group by its sets, the inhibit set by its two clauses. -/
theorem redStatusFormed : Obligations.RedStatusFormed := by
  refine ⟨fun s cut gives judged hcut hgives hjudged => ?_, fun s => ⟨rfl, fun j => ?_⟩⟩
  · obtain rfl : cut = fun c => cableActive s c = true := by funext c; exact propext ((hcut c).trans cableActive_iff.symm)
    obtain rfl : gives = fun c => givesRed s c = true := by funext c; exact propext ((hgives c).trans givesRed_iff.symm)
    obtain rfl : judged = fun c => redJudged s c = true := by funext c; exact propext ((hjudged c).trans redJudged_iff.symm)
    refine ⟨fun g unused => ⟨redStatusNow_none unused, setStatuses_none unused⟩, fun m g map lives few => ?_⟩
    have length := length_setStatuses map lives few
    obtain ⟨lost, unknown, proven, degraded⟩ := redStatusNow_iff map lives
    refine ⟨⟨length, fun k used => ?_⟩, lost.trans (mem_places (length ▸ few)).symm, unknown, proven, degraded⟩
    simp only [getElem_setStatuses map lives used, Option.some.injEq]
    exact setStatus_iff s _
  · rw [← inhibitedNow_iff]
    simp only [refreshInhibit, getElem_tab, and_self]

end Sys2Proof.Machine

namespace Sys2Proof.Machine

open Sys2Proof

/-! ## LEARN and LEARN_CANCEL (R137, R140) -/

section LearnRequests

variable {s : State} {c : Fin 96} {cs : CircuitList} {t : Tap} {kind tag : Byte}

theorem badCircuitList_iff : badCircuitList cs = true ↔ ∃ l : List Nat, cs = .list l ∧ ¬ (1 ≤ l.length ∧ l.length ≤ 96) := by
  cases cs with
  | all => simp only [badCircuitList, Bool.false_eq_true, reduceCtorEq, false_and, exists_false]
  | list l => simp only [badCircuitList, within, Bool.not_eq_true', Bool.and_eq_false_iff, decide_eq_false_iff_not,
      CircuitList.list.injEq, exists_eq_left', not_and_or]

theorem badCircuitIndex_iff : badCircuitIndex cs = true ↔ ∃ l : List Nat, cs = .list l ∧ ∃ n ∈ l, n = 0 ∨ 96 < n := by
  have out_iff (n : Nat) : (!within 1 96 n) = true ↔ n = 0 ∨ 96 < n := by
    simp only [within, Bool.not_eq_true', Bool.and_eq_false_iff, decide_eq_false_iff_not]
    omega
  cases cs with
  | all => simp only [badCircuitIndex, Bool.false_eq_true, reduceCtorEq, false_and, exists_false]
  | list l => simp only [badCircuitIndex, List.any_eq_true, out_iff, CircuitList.list.injEq, exists_eq_left']

theorem mem_circuitSet {l : List Nat} : c ∈ circuitSet l ↔ num c ∈ l := by
  simp only [circuitSet, List.mem_filter, List.mem_finRange, true_and, List.contains_iff_mem]

/-- A circuit in the map is there with a map. -/
theorem map_of_inMap (h : inMap s c = true) : s.map.isSome = true := by
  unfold inMap circuitAt at h
  cases map : s.map with
  | some m => rfl
  | none =>
    rw [map] at h
    split at h
    · simp only [reduceCtorEq, decide_false, Bool.false_eq_true] at h
    · cases h

theorem mem_mapped : c ∈ mapped s ↔ inMap s c = true := by
  unfold mapped
  split
  next map => simp only [List.mem_filter, List.mem_finRange, true_and]
  next unmapped => exact ⟨fun h => absurd h List.not_mem_nil, fun h => absurd (map_of_inMap h) unmapped⟩

theorem unmapped_iff : unmapped s cs = true ↔ s.map = none ∨ ∃ c : Fin 96, c ∈ namedCircuits s cs ∧ inMap s c = false := by
  cases cs with
  | all =>
    have all_in : ¬ ∃ c : Fin 96, c ∈ namedCircuits s .all ∧ inMap s c = false := by
      rintro ⟨c, hc, out⟩
      rw [mem_mapped.1 hc] at out
      cases out
    rw [unmapped, Option.isNone_iff_eq_none, or_iff_left all_in]
  | list l => simp only [unmapped, namedCircuits, Bool.or_eq_true, Option.isNone_iff_eq_none, List.any_eq_true, Bool.not_eq_true']

theorem learnMin_eq (n : Nat) : learnMin n = if n < 8 then 8 else if 255 < n then 255 else n := by
  unfold learnMin clampTo
  split_ifs <;> omega

theorem learnMax_eq (n : Nat) : learnMax n = if n < 1 then 1 else if 1000 < n then 1000 else n := by
  unfold learnMax clampTo
  split_ifs <;> omega

/-- The reply of a LEARN whose limits stand or are clamped. -/
theorem writeResult_limits (a b nMin nMax : Nat) :
    writeResult (decide (a ≠ nMin) || decide (b ≠ nMax)) = if a = nMin ∧ b = nMax then .done else .clamped := by
  simp only [writeResult, Bool.or_eq_true, decide_eq_true_eq, ← not_and_or, ite_not]

/-- Learn records rewritten one after another: a rewriting done once it is done reaches the circuits named and no other. -/
theorem getElem_foldl_upd {α : Type} {f : α → α} (once : ∀ r, f (f r) = f r) (l : List (Fin 96)) (v : Vector α 96) (c : Fin 96) :
    (c ∈ l → (l.foldl (fun v c => upd v c f) v)[c] = f v[c]) ∧ (c ∉ l → (l.foldl (fun v c => upd v c f) v)[c] = v[c]) := by
  have swept := getElem_sweep once (l.map fun d => ((0 : Fin 8), d)) v c
  simpa [sweep, List.foldl_map] using swept

/-- A rewriting of learn records, circuit after circuit, in the state in which a request is judged. -/
theorem foldl_setLearn_taken (f : LearnRec → LearnRec) (l : List (Fin 96)) :
    l.foldl (fun s c => setLearn s c f) (taken kind tag s) =
      { taken kind tag s with prov := { s.prov with learn := l.foldl (fun v c => upd v c f) s.prov.learn } } := by
  have folded (x : State) : l.foldl (fun s c => setLearn s c f) x =
      { x with prov := { x.prov with learn := l.foldl (fun v c => upd v c f) x.prov.learn } } := by
    induction l generalizing x with
    | nil => rfl
    | cons d l ih =>
      rw [List.foldl_cons, ih]
      rfl
  rw [folded, taken_prov]

theorem cancelLearning_eq (s : State) (c : Fin 96) : cancelLearning s c = setLearn s c relearned := by
  unfold cancelLearning
  split
  next learning =>
    have aborted : relearned s.prov.learn[c] = LearnRec.aborted s.prov.learn[c] := if_pos learning
    simp only [setLearn, upd, aborted]
  next other =>
    have same : relearned s.prov.learn[c] = s.prov.learn[c] := if_neg other
    unfold setLearn
    rw [upd_id _ _ _ same]

/-- What LEARN leaves when no check refuses it. -/
theorem learnReq_taken {code nMin nMax : Nat} (list : ¬ badCircuitList cs = true) (number : ¬ badCircuitIndex cs = true)
    (fit : ¬ unmapped s cs = true) (ht : Tap.ofCode code = some t) (ordered : learnMin nMin ≤ learnMax nMax) :
    learnReq cs code nMin nMax (taken kind tag s) =
      ⟨(namedCircuits s cs).foldl
          (fun s c => setLearn s c fun _ => LearnRec.started t (learnMin nMin) (learnMax nMax)) (taken kind tag s),
        if learnMin nMin = nMin ∧ learnMax nMax = nMax then .done else .clamped, .none⟩ := by
  rw [Bool.not_eq_true] at list number fit
  unfold learnReq
  dsimp only
  rw [checked_pass, ht, taken_namedCircuits, writeResult_limits]
  · rfl
  · rw [list, number, taken_unmapped, fit, ht, decide_eq_false (Nat.not_lt_of_le ordered)]
    rfl

/-- LEARN refused by the first check that applies. -/
theorem learnReq_refused {code nMin nMax : Nat} {r : Result}
    (h : firstRefusal [(badCircuitList cs, .malformed), (badCircuitIndex cs, .badIndex), (unmapped s cs, .badState),
      ((Tap.ofCode code).isNone, .badValue), (decide (learnMax nMax < learnMin nMin), .badValue)] = some r) :
    learnReq cs code nMin nMax (taken kind tag s) = ⟨taken kind tag s, r, .none⟩ :=
  checked_refuse (by rw [taken_unmapped]; exact h)

theorem exec_learn {code nMin nMax : Nat} {u : State} {r : Result} (free : s.port.inService = none)
    (h : learnReq cs code nMin nMax (taken 0x17 tag s) = ⟨u, r, .none⟩) :
    exec (.learn tag cs code nMin nMax) s = .next (answered 0x17 tag u r .none) := congrArg Host.Outcome.next (serve_of free h)

theorem exec_learnCancel {u : State} {r : Result} (free : s.port.inService = none)
    (h : learnCancelReq cs (taken 0x18 tag s) = ⟨u, r, .none⟩) :
    exec (.learnCancel tag cs) s = .next (answered 0x18 tag u r .none) := congrArg Host.Outcome.next (serve_of free h)

/-- LEARN past its checks: the records of the circuits named are started. -/
theorem learn_accepted {code nMin nMax : Nat} (free : s.port.inService = none) (list : ¬ badCircuitList cs = true)
    (number : ¬ badCircuitIndex cs = true) (fit : ¬ unmapped s cs = true) (ht : Tap.ofCode code = some t)
    (ordered : learnMin nMin ≤ learnMax nMax) :
    ∃ u : State, exec (.learn tag cs code nMin nMax) s = .next (answered 0x17 tag u
        (if learnMin nMin = nMin ∧ learnMax nMax = nMax then .done else .clamped) .none) ∧
      u = { taken 0x17 tag s with prov := { s.prov with learn := u.prov.learn } } ∧
      ∀ c : Fin 96, (c ∈ namedCircuits s cs → u.prov.learn[c] = LearnRec.started t (learnMin nMin) (learnMax nMax)) ∧
        (c ∉ namedCircuits s cs → u.prov.learn[c] = s.prov.learn[c]) := by
  refine ⟨_, exec_learn free (learnReq_taken list number fit ht ordered), ?_⟩
  rw [foldl_setLearn_taken]
  exact ⟨rfl, fun c => getElem_foldl_upd (f := fun _ => LearnRec.started t (learnMin nMin) (learnMax nMax)) (fun _ => rfl)
    (namedCircuits s cs) s.prov.learn c⟩

/-- LEARN_CANCEL past its checks: the records of the circuits named that are LEARNING are aborted. -/
theorem learnCancel_accepted (free : s.port.inService = none) (list : ¬ badCircuitList cs = true)
    (number : ¬ badCircuitIndex cs = true) : ∃ u : State,
      exec (.learnCancel tag cs) s = .next (answered 0x18 tag u .done .none) ∧
      u = { taken 0x18 tag s with prov := { s.prov with learn := u.prov.learn } } ∧
      ∀ c : Fin 96, (c ∈ namedCircuits s cs → u.prov.learn[c] = relearned s.prov.learn[c]) ∧
        (c ∉ namedCircuits s cs → u.prov.learn[c] = s.prov.learn[c]) := by
  rw [Bool.not_eq_true] at list number
  have cancelled : learnCancelReq cs (taken 0x18 tag s) =
      ⟨(namedCircuits s cs).foldl (fun s c => setLearn s c relearned) (taken 0x18 tag s), .done, .none⟩ := by
    unfold learnCancelReq
    rw [checked_pass (by rw [list, number]; rfl), taken_namedCircuits, funext₂ cancelLearning_eq]
    rfl
  refine ⟨_, exec_learnCancel free cancelled, ?_⟩
  rw [foldl_setLearn_taken]
  exact ⟨rfl, fun c => getElem_foldl_upd relearned_relearned (namedCircuits s cs) s.prov.learn c⟩

end LearnRequests

/-- Settles O23: the checks in their order, then the records of the circuits named rewritten one after another. -/
theorem learningSet : Obligations.LearningSet := by
  intro s tag cs badLength badNumber unfit named free hlength hnumber hnamed hunfit
  obtain rfl : badLength = (badCircuitList cs = true) := propext (hlength.trans badCircuitList_iff.symm)
  obtain rfl : badNumber = (badCircuitIndex cs = true) := propext (hnumber.trans badCircuitIndex_iff.symm)
  obtain rfl : named = fun c => c ∈ namedCircuits s cs := by
    funext c
    refine propext ((hnamed c).trans ?_)
    cases cs with
    | all => exact mem_mapped.symm
    | list l => exact mem_circuitSet.symm
  obtain rfl : unfit = (unmapped s cs = true) := propext (hunfit.trans unmapped_iff.symm)
  refine ⟨fun code nMin nMax a b ha hb => ?_, fun bad => ?_, fun list bad => ?_, fun list number => ?_⟩
  · rw [← learnMin_eq] at ha
    rw [← learnMax_eq] at hb
    subst ha hb
    refine ⟨fun bad => ?_, fun list bad => ?_, fun list number bad => ?_, fun list number fit bad => ?_,
      fun t list number fit ht ordered => learn_accepted free list number fit ht ordered⟩
    · exact exec_learn free (learnReq_refused (by rw [bad]; rfl))
    · rw [Bool.not_eq_true] at list
      exact exec_learn free (learnReq_refused (by rw [list, bad]; rfl))
    · rw [Bool.not_eq_true] at list number
      exact exec_learn free (learnReq_refused (by rw [list, number, bad]; rfl))
    · rw [Bool.not_eq_true] at list number fit
      refine exec_learn free (learnReq_refused ?_)
      rw [list, number, fit]
      cases code_tap : Tap.ofCode code with
      | none => rfl
      | some t =>
        rw [code_tap] at bad
        rw [decide_eq_true (bad.resolve_left (Option.some_ne_none t))]
        rfl
  · exact exec_learnCancel free (checked_refuse (by rw [bad]; rfl))
  · rw [Bool.not_eq_true] at list
    exact exec_learnCancel free (checked_refuse (by rw [list, bad]; rfl))
  · obtain ⟨u, run, frame, records⟩ := learnCancel_accepted (tag := tag) free list number
    refine ⟨u, run, frame, fun c => ⟨fun isNamed learning => ?_, fun other => ?_⟩⟩
    · exact ((records c).1 isNamed).trans (if_pos learning)
    · by_cases isNamed : c ∈ namedCircuits s cs
      · exact ((records c).1 isNamed).trans (if_neg fun learning => other ⟨isNamed, learning⟩)
      · exact (records c).2 isNamed

end Sys2Proof.Machine

namespace Sys2Proof.Machine

open Sys2Proof

/-! ## What lamp proving reads and leaves (R126 to R139) -/

section ProvingGround

variable {s t x : State} {c d : Fin 96}

/-- The kept part but for the proving records, the learn records and the references. -/
def Kept.proofless (k : Kept) : Kept :=
  { k with
    tables := { k.tables with reference := Vector.replicate 96 ⟨⟨0, 0, 0⟩, ⟨0, 0, 0⟩⟩ }
    prov := { k.prov with circuits := Vector.replicate 96 ⟨.unknown, none, 0, 0, none, none⟩, learn := Vector.replicate 96 learnPor } }

/-- What the work of lamp proving on circuits leaves: the kept part but for the records it writes, and the report queue. -/
def provingGround (s : State) : Kept × List Report := ((kept s).proofless, s.bus.queue)

/-- What lamp proving writes of one circuit: its proving record, its learn record and its reference. -/
def provenOf (s : State) (c : Fin 96) : ProvRec × LearnRec × RefEntry :=
  (s.prov.circuits[c], s.prov.learn[c], s.tables.reference[c])

theorem provingGround_bus (h : provingGround t = provingGround s) : t.bus = s.bus :=
  congrArg (fun x => { x.1.bus with queue := x.2 }) h

theorem provingGround_tables (h : provingGround t = provingGround s) : t.tables = { s.tables with reference := t.tables.reference } :=
  congrArg (fun x => { x.1.tables with reference := t.tables.reference }) h

theorem provingGround_cable (h : provingGround t = provingGround s) : t.cable = s.cable := congrArg (fun x => x.1.cable) h
theorem provingGround_map (h : provingGround t = provingGround s) : t.map = s.map := congrArg (fun x => x.1.map) h
theorem provingGround_clock (h : provingGround t = provingGround s) : t.clock = s.clock := congrArg (fun x => x.1.clock) h
theorem provingGround_inputs (h : provingGround t = provingGround s) : t.inputs = s.inputs := congrArg (fun x => x.1.inputs) h
theorem provingGround_lastWin (h : provingGround t = provingGround s) : t.prov.lastWin = s.prov.lastWin :=
  congrArg (fun x => x.1.prov.lastWin) h

theorem provingGround_proving (h : provingGround t = provingGround s) : t.tables.proving = s.tables.proving :=
  congrArg (fun x => x.1.tables.proving) h

theorem provingGround_circuit (h : provingGround t = provingGround s) : t.tables.circuit = s.tables.circuit :=
  congrArg (fun x => x.1.tables.circuit) h

/-- Work of lamp proving on one circuit: it leaves the ground and what it writes of every other circuit. -/
structure WorksOn (c : Fin 96) (s t : State) : Prop where
  ground : provingGround t = provingGround s
  apart : ∀ d : Fin 96, c ≠ d → provenOf t d = provenOf s d

theorem WorksOn.refl (c : Fin 96) (s : State) : WorksOn c s s := ⟨rfl, fun _ _ => rfl⟩

theorem WorksOn.trans (h : WorksOn c s t) (h' : WorksOn c t x) : WorksOn c s x :=
  ⟨h'.ground.trans h.ground, fun d ne => (h'.apart d ne).trans (h.apart d ne)⟩

theorem worksOn_setProv (s : State) (c : Fin 96) (f : ProvRec → ProvRec) : WorksOn c s (setProv s c f) := by
  refine ⟨rfl, fun d ne => ?_⟩
  simp only [provenOf, setProv, getElem_upd_of_ne _ _ _ _ ne]

theorem worksOn_setLearn (s : State) (c : Fin 96) (f : LearnRec → LearnRec) : WorksOn c s (setLearn s c f) := by
  refine ⟨rfl, fun d ne => ?_⟩
  simp only [provenOf, setLearn, getElem_upd_of_ne _ _ _ _ ne]

theorem worksOn_reference (s : State) (c : Fin 96) (f : RefEntry → RefEntry) :
    WorksOn c s (setTables s fun t => { t with reference := upd t.reference c f }) := by
  refine ⟨rfl, fun d ne => ?_⟩
  simp only [provenOf, setTables, getElem_upd_of_ne _ _ _ _ ne]

theorem worksOn_learnDone (s : State) (c : Fin 96) : WorksOn c s (learnDone s c) :=
  ((worksOn_reference s c _).trans (worksOn_setProv _ c _)).trans (worksOn_setLearn _ c _)

theorem worksOn_takeConfirm (s : State) (c : Fin 96) : WorksOn c s (takeConfirm s c) := by
  have concluded := kept_takeConfirm_concluded s c
  have queue : (takeConfirm s c).bus.queue = s.bus.queue := by
    unfold takeConfirm
    split
    · exact ground_queue (ground_changeVerdict ..)
    · rfl
  generalize takeConfirm s c = t at concluded queue
  have prov : t.prov = s.prov.withCircuit c (concludedRec s c) := prov_eq_of_kept concluded
  have tables : t.tables = s.tables := tables_eq_of_kept concluded
  refine ⟨?_, fun d ne => ?_⟩
  · rw [provingGround, concluded, queue]
    rfl
  · rw [provenOf, prov, tables, withCircuit_of_ne _ _ _ _ ne]
    rfl

theorem worksOn_takeConverge (s : State) (c : Fin 96) : WorksOn c s (takeConverge s c) := by
  unfold takeConverge
  dsimp only
  split
  · split
    · exact worksOn_setLearn s c _
    · split
      · exact worksOn_setLearn s c _
      · exact worksOn_learnDone s c
  · exact .refl c s

theorem worksOn_takeUnstable (s : State) (c : Fin 96) : WorksOn c s (takeUnstable s c) := by
  unfold takeUnstable
  dsimp only
  split
  · exact worksOn_setLearn s c _
  · exact .refl c s

theorem worksOn_learnWindow (s : State) (c : Fin 96) (tap : Tap) (isum vsup : Nat) : WorksOn c s (learnWindow s c tap isum vsup) := by
  unfold learnWindow
  dsimp only
  split
  · exact ((worksOn_setLearn s c _).trans (worksOn_takeConverge _ c)).trans (worksOn_takeUnstable _ c)
  · exact .refl c s

/-- An eligible window judged for its verdict: the last measurement and the circuit verdict, before learning (R130 to R134). -/
def judgeVerdict (s : State) (f : SenseFrame) (c : Fin 96) (x : Sample) : State :=
  let w := judgeWindow s c f.tap x.isum f.vsup
  let s1 := setProv s c fun r => { r with last := some ⟨f.window, f.tap, x.isum, f.vsup, w.1, w.2⟩ }
  match w.1 with
  | some v => takeConfirm (setProv s1 c fun r => countVerdict r v) c
  | none => s1

theorem judgeEligible_eq (s : State) (f : SenseFrame) (c : Fin 96) (x : Sample) :
    judgeEligible s f c x = learnWindow (judgeVerdict s f c x) c f.tap x.isum f.vsup := rfl

theorem worksOn_judgeVerdict (s : State) (f : SenseFrame) (c : Fin 96) (x : Sample) : WorksOn c s (judgeVerdict s f c x) := by
  unfold judgeVerdict
  dsimp only
  split
  · exact ((worksOn_setProv s c _).trans (worksOn_setProv _ c _)).trans (worksOn_takeConfirm _ c)
  · exact worksOn_setProv s c _

theorem worksOn_proveCircuit (u : Fin 12) (f : SenseFrame) (xs : Vector Sample 8) (cont : Bool) (s : State) (tc : Fin 8 × Fin 96) :
    WorksOn tc.2 s (proveCircuit u f xs cont s tc) := by
  unfold proveCircuit
  dsimp only
  split
  · rw [judgeEligible_eq]
    exact ((worksOn_setProv s tc.2 _).trans (worksOn_judgeVerdict _ f tc.2 _)).trans (worksOn_learnWindow _ tc.2 _ _ _)
  · exact worksOn_setProv s tc.2 _

end ProvingGround

/-! ## The frame as a whole (R126, R143) -/

section FrameWhole

variable {s : State} {u : Fin 12} {f : SenseFrame} {xs : Vector Sample 8} {c : Fin 96}

/-- In a fold in which the elements but one leave what is looked at, that one's step makes the difference, on the ground of the start. -/
theorem foldl_single {σ α β γ : Type} (f : σ → α → σ) (v : σ → β) (ground : σ → γ) (fixed : ∀ s a, ground (f s a) = ground s)
    {a : α} {l : List α} (hn : l.Nodup) (ha : a ∈ l) (away : ∀ s, ∀ b ∈ l, b ≠ a → v (f s b) = v s) (s : σ) :
    ∃ t : σ, ground t = ground s ∧ v t = v s ∧ v (l.foldl f s) = v (f t a) := by
  obtain ⟨before, after, rfl⟩ := List.append_of_mem ha
  have ne : ∀ b, b ∈ before ∨ b ∈ after → b ≠ a := by
    rintro b hb rfl
    rw [List.nodup_middle, List.nodup_cons, List.mem_append] at hn
    exact hn.1 hb
  refine ⟨before.foldl f s, foldl_inv ground f fixed before s, ?_, ?_⟩
  · exact foldl_away f v before (fun s b hb => away s b (List.mem_append_left _ hb) (ne b (.inl hb))) s
  · rw [List.foldl_append, List.foldl_cons]
    exact foldl_away f v after
      (fun s b hb => away s b (List.mem_append_right _ (List.mem_cons_of_mem _ hb)) (ne b (.inr hb))) _

/-- Lamp proving's work on the circuits of a frame, before red status (R126 to R139). -/
def proveCircuits (s : State) (u : Fin 12) (f : SenseFrame) (xs : Vector Sample 8) : State :=
  (circuitsOf s u).foldl (proveCircuit u f xs (follows s u f.window f.tap)) s

/-- The frame's work with the unit's last window written (R126). -/
def windowTaken (s : State) (u : Fin 12) (f : SenseFrame) (xs : Vector Sample 8) : State :=
  { proveCircuits s u f xs with
    prov := { (proveCircuits s u f xs).prov with lastWin := put (proveCircuits s u f xs).prov.lastWin u (some (f.window, f.tap)) } }

theorem proveFrame_eq (s : State) (u : Fin 12) (f : SenseFrame) (xs : Vector Sample 8) :
    proveFrame s u f xs = recomputeRed (windowTaken s u f xs) := rfl

theorem provingGround_proveCircuits (s : State) (u : Fin 12) (f : SenseFrame) (xs : Vector Sample 8) :
    provingGround (proveCircuits s u f xs) = provingGround s :=
  foldl_inv provingGround _ (fun t tc => (worksOn_proveCircuit u f xs _ t tc).ground) _ s

/-- What the stage leaves, and red status formed at its end. -/
theorem proveFrame_frame (s : State) (u : Fin 12) (f : SenseFrame) (xs : Vector Sample 8) :
    (proveFrame s u f xs).prov.lastWin = put s.prov.lastWin u (some (f.window, f.tap)) ∧ (proveFrame s u f xs).bus = s.bus ∧
    (proveFrame s u f xs).cable = s.cable ∧ (proveFrame s u f xs).map = s.map ∧ (proveFrame s u f xs).clock = s.clock ∧
    (proveFrame s u f xs).inputs = s.inputs ∧
    (proveFrame s u f xs).tables = { s.tables with reference := (proveFrame s u f xs).tables.reference } ∧
    (∀ g : Fin 32, (proveFrame s u f xs).prov.red[g] = redStatusNow (proveFrame s u f xs) g) ∧
    ∀ c : Fin 96, provenOf (proveFrame s u f xs) c = provenOf (proveCircuits s u f xs) c := by
  have red := red_recomputeRed (windowTaken s u f xs)
  have formed := kept_recomputeRed (windowTaken s u f xs)
  have queue := recomputeRed_queue (windowTaken s u f xs)
  rw [← proveFrame_eq] at red formed queue
  have ground := provingGround_proveCircuits s u f xs
  unfold windowTaken at formed queue
  generalize proveCircuits s u f xs = a at ground formed queue ⊢
  generalize proveFrame s u f xs = r at red formed queue ⊢
  have prov : r.prov.lastWin = put a.prov.lastWin u (some (f.window, f.tap)) ∧ r.prov.circuits = a.prov.circuits ∧
      r.prov.learn = a.prov.learn := by
    rw [prov_eq_of_kept formed]
    exact ⟨rfl, rfl, rfl⟩
  obtain ⟨lastWin, circuits, learn⟩ := prov
  have tables : r.tables = a.tables := tables_eq_of_kept formed
  have bus : r.bus = a.bus := by
    have kept_bus : (kept r).bus = (kept a).bus := by rw [formed]; rfl
    exact congrArg₂ (fun (b : Bus) (q : List Report) => { b with queue := q }) kept_bus queue
  refine ⟨?_, bus.trans (provingGround_bus ground), (cable_eq_of_kept formed).trans (provingGround_cable ground),
    (map_eq_of_kept formed).trans (provingGround_map ground), (clock_eq_of_kept formed).trans (provingGround_clock ground),
    (inputs_eq_of_kept formed).trans (provingGround_inputs ground), ?_, red, fun c => ?_⟩
  · rw [lastWin, provingGround_lastWin ground]
  · rw [tables]
    exact provingGround_tables ground
  · rw [provenOf, circuits, learn, tables]
    rfl

/-- Circuits of other units are left. -/
theorem provenOf_proveCircuits_away (h : ∀ k : Fin 8, circuitAt s u k ≠ some c) :
    provenOf (proveCircuits s u f xs) c = provenOf s c :=
  foldl_away _ (provenOf · c) _ (fun t tc htc => (worksOn_proveCircuit u f xs _ t tc).apart c fun e =>
    h tc.1 (e ▸ mem_circuitsOf.1 htc)) s

/-- A circuit on one terminal of the unit is worked on once, in a state that has of it, and of the ground, what the frame found. -/
theorem provenOf_proveCircuits {k : Fin 8} (hk : circuitAt s u k = some c) (once : ∀ k' : Fin 8, circuitAt s u k' = some c → k' = k) :
    ∃ t : State, provingGround t = provingGround s ∧ provenOf t c = provenOf s c ∧
      provenOf (proveCircuits s u f xs) c = provenOf (proveCircuit u f xs (follows s u f.window f.tap) t (k, c)) c :=
  foldl_single _ (provenOf · c) provingGround (fun t tc => (worksOn_proveCircuit u f xs _ t tc).ground) (nodup_circuitsOf s u)
    (mem_circuitsOf.2 hk) (fun t tc htc ne => (worksOn_proveCircuit u f xs _ t tc).apart c fun e =>
      ne (Prod.ext (once tc.1 (e ▸ mem_circuitsOf.1 htc)) e)) s

end FrameWhole

end Sys2Proof.Machine

namespace Sys2Proof.Machine

open Sys2Proof

/-! ## The on-run and the eligible windows (R126, R127) -/

section Eligible

variable {s t : State} {u : Fin 12} {f : SenseFrame} {xs : Vector Sample 8} {k : Fin 8} {c : Fin 96} {v n : Nat} {tap : Tap} {x : Sample}

theorem follows_iff : follows s u v tap = true ↔ v ≠ 255 ∧ s.prov.lastWin[u] = some ((v + 254) % 255, tap) := by
  unfold follows prevWin
  cases s.prov.lastWin[u] with
  | none => simp only [Bool.false_eq_true, reduceCtorEq, and_false]
  | some last =>
    obtain ⟨w, tap'⟩ := last
    by_cases h : v = 255
    · simp only [h, if_true, reduceCtorEq, decide_false, Bool.false_and, Bool.false_eq_true, ne_eq, not_true_eq_false, false_and]
    · simp only [h, if_false, Option.some.injEq, Bool.and_eq_true, decide_eq_true_eq, ne_eq, not_false_eq_true, true_and, Prod.mk.injEq,
        eq_comm (a := w)]

/-- The on-run as R126 counts it. -/
theorem nextOnRun_of
    (runs : loggedOn s u f.window k = true ∧ x.driven = true ∧ x.ovc = false →
      (f.window ≠ 255 ∧ s.prov.lastWin[u] = some ((f.window + 254) % 255, f.tap) → n = min 3 (s.prov.circuits[c].onRun + 1)) ∧
      (¬ (f.window ≠ 255 ∧ s.prov.lastWin[u] = some ((f.window + 254) % 255, f.tap)) → n = 1))
    (stops : ¬ (loggedOn s u f.window k = true ∧ x.driven = true ∧ x.ovc = false) → n = 0) :
    nextOnRun s u f (follows s u f.window f.tap) (k, c) x = n := by
  have on_iff : (loggedOn s u f.window k && x.driven && !x.ovc) = true ↔
      loggedOn s u f.window k = true ∧ x.driven = true ∧ x.ovc = false := by
    simp only [Bool.and_eq_true, Bool.not_eq_true', and_assoc]
  unfold nextOnRun
  by_cases on : loggedOn s u f.window k = true ∧ x.driven = true ∧ x.ovc = false
  · rw [if_pos (on_iff.2 on)]
    obtain ⟨longer, fresh⟩ := runs on
    rw [← follows_iff] at longer fresh
    by_cases cont : follows s u f.window f.tap = true
    · rw [if_pos cont, longer cont]
      rfl
    · rw [if_neg cont, fresh cont]
      rfl
  · rw [if_neg (mt on_iff.1 on), stops on]

theorem loggedOn_of_provingGround (h : provingGround t = provingGround s) : loggedOn t = loggedOn s := by
  funext u w k
  simp only [loggedOn, logOf, provingGround_bus h]

theorem nextOnRun_congr (h : provingGround t = provingGround s) (hc : provenOf t c = provenOf s c) (cont : Bool) :
    nextOnRun t u f cont (k, c) x = nextOnRun s u f cont (k, c) x := by
  have own : t.prov.circuits[c] = s.prov.circuits[c] := congrArg Prod.fst hc
  simp only [nextOnRun, loggedOn_of_provingGround h, own]

/-- The window is eligible for the circuit with its on-run at `n`, as R127 says. -/
theorem eligible_setProv_iff : eligible (setProv s c fun r => { r with onRun := n }) u v (k, c) = true ↔
    loggedOn s u v k = true ∧ v ≠ 255 ∧ loggedOn s u ((v + 254) % 255) k = true ∧
      (if s.tables.circuit[c].loadClass = 2 then 3 else 2) ≤ n ∧ s.cable.circuits[c].retry = .normal := by
  have own : (setProv s c fun r => { r with onRun := n }).prov.circuits[c].onRun = n := by
    rw [setProv_prov, getElem_upd_self]
  rw [eligible_iff, own]
  simp only [setProv_tables, setProv_cable, and_comm]
  rfl

theorem eligible_congr (h : provingGround t = provingGround s) :
    eligible (setProv t c fun r => { r with onRun := n }) u v (k, c) = eligible (setProv s c fun r => { r with onRun := n }) u v (k, c) := by
  rw [Bool.eq_iff_iff, eligible_setProv_iff, eligible_setProv_iff, loggedOn_of_provingGround h, provingGround_circuit h,
    provingGround_cable h]

/-- A window judged reads of the circuit its reference alone. -/
theorem judgeWindow_congr (h : provingGround t = provingGround s) (hc : t.tables.reference[c] = s.tables.reference[c]) :
    judgeWindow t c = judgeWindow s c := by
  have circuit := provingGround_circuit h
  have enabled : provingOn t c = provingOn s c := by rw [provingOn, provingOn, circuit]
  have held : reference t c = reference s c := by funext tap; rw [reference, reference, hc]
  have load : loadClassOf t c = loadClassOf s c := by rw [loadClassOf, loadClassOf, circuit]
  funext tap isum vsup
  rw [judgeWindow, judgeWindow, enabled, held, load, circuit, provingGround_proving h]

theorem mem_judgedBy (hk : circuitAt s u k = some c) (once : ∀ k' : Fin 8, circuitAt s u k' = some c → k' = k) :
    c ∈ judgedBy s u f xs ↔ eligibleIn s u f xs (k, c) = true ∧ (judgeWindow s c f.tap xs[k].isum f.vsup).1 ≠ none := by
  unfold judgedBy
  rw [List.mem_map]
  constructor
  · rintro ⟨⟨k', d⟩, listed, rfl⟩
    rw [List.mem_filter, mem_circuitsOf, Bool.and_eq_true, Option.isSome_iff_ne_none] at listed
    obtain ⟨here, fit⟩ := listed
    obtain rfl := once k' here
    exact fit
  · intro fit
    refine ⟨(k, c), ?_, rfl⟩
    rw [List.mem_filter, mem_circuitsOf, Bool.and_eq_true, Option.isSome_iff_ne_none]
    exact ⟨hk, fit⟩

theorem mem_learnedBy (hk : circuitAt s u k = some c) (once : ∀ k' : Fin 8, circuitAt s u k' = some c → k' = k) :
    c ∈ learnedBy s u f xs ↔
      eligibleIn s u f xs (k, c) = true ∧ s.prov.learn[c].state = .learning ∧ s.prov.learn[c].tap = f.tap := by
  unfold learnedBy
  rw [List.mem_map]
  constructor
  · rintro ⟨⟨k', d⟩, listed, rfl⟩
    rw [List.mem_filter, mem_circuitsOf, Bool.and_eq_true, Bool.and_eq_true, decide_eq_true_eq, decide_eq_true_eq, and_assoc] at listed
    obtain ⟨here, fit⟩ := listed
    obtain rfl := once k' here
    exact fit
  · intro fit
    refine ⟨(k, c), ?_, rfl⟩
    rw [List.mem_filter, mem_circuitsOf, Bool.and_eq_true, Bool.and_eq_true, decide_eq_true_eq, decide_eq_true_eq, and_assoc]
    exact ⟨hk, fit⟩

/-- Circuits of other units are neither judged nor learned. -/
theorem not_mem_work (h : ∀ k : Fin 8, circuitAt s u k ≠ some c) : c ∉ judgedBy s u f xs ∧ c ∉ learnedBy s u f xs := by
  have away (p : Fin 8 × Fin 96 → Bool) : c ∉ ((circuitsOf s u).filter p).map Prod.snd := by
    rw [List.mem_map]
    rintro ⟨⟨k, d⟩, listed, rfl⟩
    exact h k (mem_circuitsOf.1 (List.mem_of_mem_filter listed))
  exact ⟨away _, away _⟩

end Eligible

/-! ## The verdict of an eligible window (R130 to R135) -/

section Verdicts

variable {s t : State} {c : Fin 96} {v : Verdict} {p : ProvRec} {m : Nat}

theorem agrees_iff {a b : Verdict} : agrees a b = true ↔ a = b ∨ ∃ m n : Nat, a = .partialOf m ∧ b = .partialOf n := by
  unfold agrees
  split
  next m n => exact ⟨fun _ => .inr ⟨m, n, rfl, rfl⟩, fun _ => rfl⟩
  next apart =>
    rw [decide_eq_true_eq]
    refine ⟨.inl, fun h => h.resolve_right ?_⟩
    rintro ⟨m, n, rfl, rfl⟩
    exact apart m n rfl rfl

/-- A verdict that does not agree starts a candidate or advances its run (R134). -/
theorem countVerdict_differs (apart : ¬ agrees v p.verdict = true)
    (again : (∃ x : Verdict, p.cand = some x ∧ agrees v x = true) → m = min 200 (p.run + 1))
    (afresh : (∀ x : Verdict, p.cand = some x → ¬ agrees v x = true) → m = 1) :
    countVerdict p v = { p with cand := some v, run := m } := by
  unfold countVerdict
  rw [if_neg apart]
  cases cand : p.cand with
  | none =>
    rw [afresh fun x hx => by rw [cand] at hx; cases hx]
  | some x =>
    by_cases same : agrees v x = true
    · rw [again ⟨x, cand, same⟩]
      exact if_pos same
    · have one : m = 1 := afresh fun y hy => by
        rw [cand] at hy
        cases hy
        exact same
      rw [one]
      exact if_neg same

/-- A proving record with a window verdict taken, none for SUPPLY_OOR (R130, R134). -/
def verdictRec (s : State) (c : Fin 96) (w : Option Verdict) (p : ProvRec) : ProvRec :=
  match w with
  | some v => concludedRec s c (countVerdict p v)
  | none => p

theorem verdictRec_agrees (same : agrees v p.verdict = true) :
    verdictRec s c (some v) p = { p with verdict := v, cand := none, run := 0 } := by
  have counted : countVerdict p v = { p with verdict := v, cand := none, run := 0 } := if_pos same
  rw [verdictRec, counted]
  exact concludedRec_waits (.inl rfl)

theorem concludedRec_congr (h : provingGround t = provingGround s) (p : ProvRec) : concludedRec t c p = concludedRec s c p := by
  unfold concludedRec
  simp only [confirmCount_eq, lampFault_eq, provingGround_proving h, provingGround_circuit h]

theorem verdictRec_congr (h : provingGround t = provingGround s) (w : Option Verdict) (p : ProvRec) :
    verdictRec t c w p = verdictRec s c w p := by
  unfold verdictRec
  simp only [concludedRec_congr h]

theorem provenOf_setProv (s : State) (c : Fin 96) (g : ProvRec → ProvRec) :
    provenOf (setProv s c g) c = (g s.prov.circuits[c], s.prov.learn[c], s.tables.reference[c]) := by
  rw [provenOf, setProv_prov, setProv_tables, getElem_upd_self]

theorem provenOf_setLearn (s : State) (c : Fin 96) (g : LearnRec → LearnRec) :
    provenOf (setLearn s c g) c = (s.prov.circuits[c], g s.prov.learn[c], s.tables.reference[c]) := by
  rw [provenOf, setLearn_prov, setLearn_tables, getElem_upd_self]

theorem provenOf_takeConfirm (s : State) (c : Fin 96) :
    provenOf (takeConfirm s c) c = (concludedRec s c s.prov.circuits[c], s.prov.learn[c], s.tables.reference[c]) := by
  have concluded := kept_takeConfirm_concluded s c
  have prov : (takeConfirm s c).prov = s.prov.withCircuit c (concludedRec s c) := prov_eq_of_kept concluded
  have tables : (takeConfirm s c).tables = s.tables := tables_eq_of_kept concluded
  rw [provenOf, prov, tables, withCircuit_self, withCircuit_learn]

/-- What an eligible window makes of the circuit before learning. -/
theorem provenOf_judgeVerdict (s : State) (f : SenseFrame) (c : Fin 96) (x : Sample) {w : Option Verdict} {q : Option Nat}
    (h : (w, q) = judgeWindow s c f.tap x.isum f.vsup) :
    provenOf (judgeVerdict s f c x) c =
      (verdictRec s c w { s.prov.circuits[c] with last := some ⟨f.window, f.tap, x.isum, f.vsup, w, q⟩ }, s.prov.learn[c],
        s.tables.reference[c]) := by
  unfold judgeVerdict
  rw [← h]
  cases w with
  | none => exact provenOf_setProv s c _
  | some v =>
    dsimp only
    rw [provenOf_takeConfirm]
    simp only [setProv_prov, setProv_tables, getElem_upd_self]
    rfl

end Verdicts

/-! ## Learning from an eligible window (R138, R139) -/

section LearningWindow

variable {s : State} {c : Fin 96} {l : LearnRec} {p : ProvRec} {e : RefEntry}

/-- The end of learning, if a window has brought it: converged, or not by N_max (R139). -/
def endLearning (s : State) (c : Fin 96) : State := takeUnstable (takeConverge s c) c

theorem learnWindow_idle {tap : Tap} {isum vsup : Nat} (h : ¬ (s.prov.learn[c].state = .learning ∧ s.prov.learn[c].tap = tap)) :
    learnWindow s c tap isum vsup = s := if_neg h

theorem learnWindow_taken {tap : Tap} {isum vsup : Nat} (h : s.prov.learn[c].state = .learning ∧ s.prov.learn[c].tap = tap) :
    learnWindow s c tap isum vsup = endLearning (setLearn s c fun l => LearnRec.push l isum vsup) c := if_pos h

theorem provenOf_eq_iff : provenOf s c = (p, l, e) ↔
    s.prov.circuits[c] = p ∧ s.prov.learn[c] = l ∧ s.tables.reference[c] = e := by
  simp only [provenOf, Prod.mk.injEq]

theorem endLearning_unmade (h : provenOf s c = (p, l, e)) (unmade : ¬ testMade l = true) : provenOf (endLearning s c) c = (p, l, e) := by
  obtain ⟨-, learn, -⟩ := provenOf_eq_iff.1 h
  rw [← learn] at unmade
  rw [endLearning, takeConverge_idle fun due => unmade due.1, takeUnstable_idle (.inl unmade), h]

theorem endLearning_apart (h : provenOf s c = (p, l, e)) (made : testMade l = true) (apart : ¬ converged s l = true) :
    provenOf (endLearning s c) c = (p, if l.nMax ≤ l.count then LearnRec.failed l .unstable else l, e) := by
  obtain ⟨own, learn, ref⟩ := provenOf_eq_iff.1 h
  rw [endLearning, takeConverge_idle fun due => apart (learn ▸ due.2)]
  by_cases last : l.nMax ≤ l.count
  · rw [takeUnstable_due (by rw [learn]; exact made) (by rw [learn]; exact apart) (by rw [learn]; exact last), provenOf_setLearn, own,
      learn, ref, if_pos last]
  · rw [takeUnstable_idle (.inr (.inr (by rw [learn]; exact Nat.lt_of_not_le last))), if_neg last, h]

/-- A record that has ended makes no test. -/
theorem takeUnstable_ended (h : s.prov.learn[c].state ≠ .learning) : takeUnstable s c = s :=
  takeUnstable_idle (.inl fun made => h (testMade_iff.1 made).1)

theorem endLearning_fails (h : provenOf s c = (p, l, e)) (made : testMade l = true) (conv : converged s l = true)
    (weak : ringMean l < 32 ∨ ringVmean l < 50) :
    provenOf (endLearning s c) c = (p, LearnRec.failed l (if ringMean l < 32 then .noLoad else .noSupply), e) := by
  obtain ⟨own, learn, ref⟩ := provenOf_eq_iff.1 h
  have failed (why : LearnFail) :
      provenOf (takeUnstable (setLearn s c fun l => LearnRec.failed l why) c) c = (p, LearnRec.failed l why, e) := by
    rw [takeUnstable_ended (by rw [setLearn_prov, getElem_upd_self]; exact LearnState.noConfusion), provenOf_setLearn, own, learn, ref]
  rw [endLearning, takeConverge_due (by rw [learn]; exact made) (by rw [learn]; exact conv), learn]
  by_cases dark : ringMean l < 32
  · rw [if_pos dark, if_pos dark]
    exact failed .noLoad
  · rw [if_neg dark, if_pos (weak.resolve_left dark), if_neg dark]
    exact failed .noSupply

theorem provenOf_learnDone (h : provenOf s c = (p, l, e)) :
    provenOf (learnDone s c) c = ({ p with cand := none, run := 0 }, { l with state := .done, result := some (ringResult l) },
      RefEntry.withPart e l.tap ⟨1, ringMean l, ringVmean l⟩) := by
  obtain ⟨own, learn, ref⟩ := provenOf_eq_iff.1 h
  unfold learnDone
  dsimp only
  rw [provenOf_setLearn]
  simp only [setProv_prov, setProv_tables, setTables_prov, setTables_tables, getElem_upd_self, own, learn, ref]

theorem endLearning_done (h : provenOf s c = (p, l, e)) (made : testMade l = true) (conv : converged s l = true)
    (lit : 32 ≤ ringMean l) (supplied : 50 ≤ ringVmean l) :
    provenOf (endLearning s c) c = ({ p with cand := none, run := 0 }, { l with state := .done, result := some (ringResult l) },
      RefEntry.withPart e l.tap ⟨1, ringMean l, ringVmean l⟩) := by
  obtain ⟨-, learn, -⟩ := provenOf_eq_iff.1 h
  have done := provenOf_learnDone h
  have ended : (learnDone s c).prov.learn[c].state ≠ .learning := by
    rw [(provenOf_eq_iff.1 done).2.1]
    exact LearnState.noConfusion
  rw [endLearning, takeConverge_due (by rw [learn]; exact made) (by rw [learn]; exact conv), learn, if_neg (Nat.not_lt_of_le lit),
    if_neg (Nat.not_lt_of_le supplied), takeUnstable_ended ended, done]

end LearningWindow

end Sys2Proof.Machine

namespace Sys2Proof.Machine

open Sys2Proof

/-! ## Lamp proving of a frame, circuit by circuit (R126 to R139) -/

section FrameProved

variable {s t z : State} {u : Fin 12} {f : SenseFrame} {xs : Vector Sample 8} {k : Fin 8} {c : Fin 96} {n : Nat} {p : ProvRec}
  {l : LearnRec} {e : RefEntry}

theorem eligibleIn_iff (hn : nextOnRun s u f (follows s u f.window f.tap) (k, c) xs[k] = n) : eligibleIn s u f xs (k, c) = true ↔
    loggedOn s u f.window k = true ∧ f.window ≠ 255 ∧ loggedOn s u ((f.window + 254) % 255) k = true ∧
      (if s.tables.circuit[c].loadClass = 2 then 3 else 2) ≤ n ∧ s.cable.circuits[c].retry = .normal := by
  unfold eligibleIn
  rw [hn]
  exact eligible_setProv_iff

theorem proveCircuit_ineligible {cont : Bool} (hn : nextOnRun s u f cont (k, c) xs[k] = n)
    (out : ¬ eligible (setProv s c fun r => { r with onRun := n }) u f.window (k, c) = true) :
    proveCircuit u f xs cont s (k, c) = setProv s c fun r => { r with onRun := n } := by
  unfold proveCircuit
  dsimp only
  rw [hn]
  exact if_neg out

theorem proveCircuit_eligible {cont : Bool} (hn : nextOnRun s u f cont (k, c) xs[k] = n)
    (fit : eligible (setProv s c fun r => { r with onRun := n }) u f.window (k, c) = true) :
    proveCircuit u f xs cont s (k, c) =
      learnWindow (judgeVerdict (setProv s c fun r => { r with onRun := n }) f c xs[k]) c f.tap xs[k].isum f.vsup := by
  unfold proveCircuit
  dsimp only
  rw [hn]
  exact if_pos fit

/-- Ineligible, the on-run alone changes (R126, R127). -/
theorem provenOf_ineligible (hk : circuitAt s u k = some c) (once : ∀ k' : Fin 8, circuitAt s u k' = some c → k' = k)
    (hn : nextOnRun s u f (follows s u f.window f.tap) (k, c) xs[k] = n) (out : ¬ eligibleIn s u f xs (k, c) = true) :
    provenOf (proveCircuits s u f xs) c = ({ s.prov.circuits[c] with onRun := n }, s.prov.learn[c], s.tables.reference[c]) := by
  obtain ⟨t, ground, found, worked⟩ := provenOf_proveCircuits (f := f) (xs := xs) hk once
  obtain ⟨own, learn, ref⟩ := provenOf_eq_iff.1 found
  unfold eligibleIn at out
  rw [hn, ← eligible_congr ground] at out
  rw [worked, proveCircuit_ineligible ((nextOnRun_congr ground found _).trans hn) out, provenOf_setProv, own, learn, ref]

/-- Eligible, the window is judged for its verdict and offered to learning, on the ground of the start (R130 to R139). -/
theorem provenOf_eligible (hk : circuitAt s u k = some c) (once : ∀ k' : Fin 8, circuitAt s u k' = some c → k' = k)
    (hn : nextOnRun s u f (follows s u f.window f.tap) (k, c) xs[k] = n) (fit : eligibleIn s u f xs (k, c) = true)
    {w : Option Verdict} {q : Option Nat} (hw : (w, q) = judgeWindow s c f.tap xs[k].isum f.vsup) :
    ∃ t : State, provingGround t = provingGround s ∧
      provenOf t c = (verdictRec s c w { s.prov.circuits[c] with
        onRun := n, last := some ⟨f.window, f.tap, xs[k].isum, f.vsup, w, q⟩ }, s.prov.learn[c], s.tables.reference[c]) ∧
      provenOf (proveCircuits s u f xs) c = provenOf (learnWindow t c f.tap xs[k].isum f.vsup) c := by
  obtain ⟨t, ground, found, worked⟩ := provenOf_proveCircuits (f := f) (xs := xs) hk once
  obtain ⟨own, learn, ref⟩ := provenOf_eq_iff.1 found
  unfold eligibleIn at fit
  rw [hn, ← eligible_congr ground] at fit
  rw [proveCircuit_eligible ((nextOnRun_congr ground found _).trans hn) fit] at worked
  have counted := worksOn_setProv t c fun r => { r with onRun := n }
  have record := provenOf_setProv t c fun r => { r with onRun := n }
  rw [own, learn, ref] at record
  generalize (setProv t c fun r => { r with onRun := n }) = y at worked counted record
  obtain ⟨own', learn', ref'⟩ := provenOf_eq_iff.1 record
  have level : provingGround y = provingGround s := counted.ground.trans ground
  have window : (w, q) = judgeWindow y c f.tap xs[k].isum f.vsup := by rw [judgeWindow_congr level ref', ← hw]
  refine ⟨_, (worksOn_judgeVerdict y f c xs[k]).ground.trans level, ?_, worked⟩
  rw [provenOf_judgeVerdict y f c xs[k] window, own', learn', ref', verdictRec_congr level]

/-- The candidate of a verdict that does not agree, kept or confirmed (R134, R135). -/
theorem verdictRec_differs {v : Verdict} {m : Nat} (apart : ¬ agrees v p.verdict = true)
    (again : (∃ x : Verdict, p.cand = some x ∧ agrees v x = true) → m = min 200 (p.run + 1))
    (afresh : (∀ x : Verdict, p.cand = some x → ¬ agrees v x = true) → m = 1) :
    (m < confirmCount s v → verdictRec s c (some v) p = { p with cand := some v, run := m }) ∧
    (confirmCount s v ≤ m → verdictRec s c (some v) p =
      { p with verdict := v, cand := none, run := 0, fault := lampFault s c v }) := by
  rw [verdictRec, countVerdict_differs apart again afresh]
  exact ⟨fun short => concludedRec_waits (.inr ⟨v, rfl, short⟩), fun due => concludedRec_due rfl due⟩

/-- The learning window taken into the ring, before the test (R138). -/
theorem provenOf_learnWindow {tap : Tap} {isum vsup : Nat} (ground : provingGround t = provingGround s) (h : provenOf t c = (p, l, e))
    (learning : l.state = .learning ∧ l.tap = tap) : ∃ z : State, provingGround z = provingGround s ∧
      provenOf z c = (p, LearnRec.push l isum vsup, e) ∧
      provenOf (learnWindow t c tap isum vsup) c = provenOf (endLearning z c) c := by
  obtain ⟨own, learn, ref⟩ := provenOf_eq_iff.1 h
  refine ⟨setLearn t c fun l => LearnRec.push l isum vsup, ground, ?_, ?_⟩
  · rw [provenOf_setLearn, own, learn, ref]
  · rw [learnWindow_taken (by rw [learn]; exact learning)]

theorem converged_congr (h : provingGround t = provingGround s) : converged t l = converged s l := by
  rw [converged, converged, provingGround_proving h]

end FrameProved

/-- Settles O33: the pass over the unit's circuits rewrites the records of one circuit at a time and reads of the others nothing it writes, so each
circuit goes through the on-run, the verdict and learning alone; red status is formed after the pass. -/
theorem frameProved : Obligations.FrameProved := by
  intro s r u f xs on same hr hon hsame
  obtain rfl : on = fun v k => loggedOn s u v k = true := by funext v k; exact propext ((hon v k).trans loggedOn_iff.symm)
  obtain rfl : same = fun a b => agrees a b = true := by funext a b; exact propext ((hsame a b).trans agrees_iff.symm)
  clear hon hsame
  dsimp only
  obtain ⟨lastWin, bus, cable, map, clock, inputs, tables, red, records⟩ := proveFrame_frame s u f xs
  rw [← hr] at lastWin bus cable map clock inputs tables red records
  refine ⟨lastWin, bus, cable, map, clock, inputs, tables, red, fun d away => ?_, fun k c n e hk once runs stops he => ?_⟩
  · obtain ⟨own, learn, ref⟩ := provenOf_eq_iff.1 ((records d).trans (provenOf_proveCircuits_away away))
    exact ⟨own, learn, ref, not_mem_work away⟩
  have hn := nextOnRun_of runs stops
  obtain rfl : e = (eligibleIn s u f xs (k, c) = true) := propext (he.trans (eligibleIn_iff hn).symm)
  refine ⟨mem_judgedBy hk once, mem_learnedBy hk once, fun out => ?_, fun fit w q p hw hp => ?_⟩
  · exact provenOf_eq_iff.1 ((records c).trans (provenOf_ineligible hk once hn out))
  obtain ⟨t, ground, judged, offered⟩ := provenOf_eligible hk once hn fit hw
  rw [← hp] at judged
  rw [← records c] at offered
  refine ⟨verdictRec s c w p, fun none => ?_, fun v hv agree => ?_, fun v m j hv apart hj again afresh => ?_, fun idle => ?_,
    fun state tap l x hl hx => ?_⟩
  · rw [none]
    rfl
  · rw [hv]
    exact verdictRec_agrees agree
  · rw [hv, hj, ← confirmCount_eq]
    obtain ⟨short, due⟩ := verdictRec_differs (s := s) (c := c) apart again afresh
    exact ⟨short, fun reached => (due reached).trans
      (congrArg (fun x => { p with verdict := v, cand := none, run := 0, fault := x }) (lampFault_eq s c v))⟩
  · obtain ⟨-, learn, -⟩ := provenOf_eq_iff.1 judged
    rw [learnWindow_idle (by rw [learn]; exact idle), judged] at offered
    exact provenOf_eq_iff.1 offered
  · obtain ⟨z, level, pushed, ended⟩ := provenOf_learnWindow (isum := xs[k].isum) (vsup := f.vsup) ground judged ⟨state, tap⟩
    obtain rfl : LearnRec.push s.prov.learn[c] xs[k].isum f.vsup = l := hl.symm
    generalize LearnRec.push s.prov.learn[c] xs[k].isum f.vsup = l at pushed hl hx ⊢
    have learning : l.state = .learning := by rw [hl]; exact state
    obtain rfl : x = ringResult l := hx
    rw [ended] at offered
    refine ⟨fun early => ?_, fun count full => ⟨fun wide => ?_, fun within weak => ?_, fun within lit supplied => ?_⟩⟩
    · refine provenOf_eq_iff.1 (offered.trans (endLearning_unmade pushed fun made => ?_))
      obtain ⟨-, count, full⟩ := testMade_iff.1 made
      exact early.elim (Nat.not_lt_of_le count) fun short => short full
    · have apart : ¬ converged z l = true := by
        rw [converged_congr level, converged_iff]
        exact Nat.not_le_of_lt wide
      obtain ⟨own, learn, ref⟩ := provenOf_eq_iff.1
        (offered.trans (endLearning_apart pushed (testMade_iff.2 ⟨learning, count, full⟩) apart))
      exact ⟨own, ref, learn⟩
    · have conv : converged z l = true := by
        rw [converged_congr level, converged_iff]
        exact within
      obtain ⟨own, learn, ref⟩ := provenOf_eq_iff.1
        (offered.trans (endLearning_fails pushed (testMade_iff.2 ⟨learning, count, full⟩) conv weak))
      exact ⟨own, ref, learn⟩
    · have conv : converged z l = true := by
        rw [converged_congr level, converged_iff]
        exact within
      obtain ⟨own, learn, ref⟩ := provenOf_eq_iff.1
        (offered.trans (endLearning_done pushed (testMade_iff.2 ⟨learning, count, full⟩) conv lit supplied))
      exact ⟨own, ref, learn⟩

end Sys2Proof.Machine

namespace Sys2Proof.Machine

open Sys2Proof

/-! ## Counts at their limits, as due moments (R117, R149, R151, R153, R155, R156) -/

section Due

variable {s : State} {c : Fin 96} {u : Fin 12}

theorem cableFaultDue_of_cand {m : Mismatch} (cand : s.cable.circuits[c].cand = some m) :
    cableFaultDue s c = if s.tables.cable.testConfirm ≤ s.cable.circuits[c].mrun then some m else none := by
  simp only [cableFaultDue, cand]

theorem cableFaultDue_eq_none
    (h : s.cable.circuits[c].cand = none ∨ s.cable.circuits[c].mrun < s.tables.cable.testConfirm) : cableFaultDue s c = none := by
  cases cand : s.cable.circuits[c].cand with
  | none => simp only [cableFaultDue, cand]
  | some m =>
    have short := h.resolve_left (by rw [cand]; exact Option.some_ne_none m)
    exact (cableFaultDue_of_cand cand).trans (if_neg (Nat.not_le_of_lt short))

theorem crossRaiseDue_iff : crossRaiseDue s c = true ↔
    s.tables.cable.crossConfirm ≤ s.cable.circuits[c].litRun ∧ s.cable.circuits[c].crossRaised = false := by
  simp only [crossRaiseDue, Bool.and_eq_true, decide_eq_true_eq, Bool.not_eq_true']

theorem crossClearDue_iff : crossClearDue s c = true ↔
    s.cable.circuits[c].crossRaised = true ∧ 25 ≤ s.cable.circuits[c].quiet := by
  simp only [crossClearDue, Bool.and_eq_true, decide_eq_true_eq]

theorem releaseDue_iff : releaseDue s c = true ↔
    s.cable.circuits[c].retry = .retryWait ∧ s.tables.cable.retryDelay ≤ s.cable.circuits[c].retryTimer := by
  simp only [releaseDue, Bool.and_eq_true, decide_eq_true_eq]

theorem tripClearDue_iff : tripClearDue s c = true ↔
    s.cable.circuits[c].retry = .normal ∧ s.tables.cable.tripClear ≤ s.cable.circuits[c].cleanOn := by
  simp only [tripClearDue, Bool.and_eq_true, decide_eq_true_eq]

theorem leakRaiseDue_iff : leakRaiseDue s u = true ↔
    s.tables.cable.leakConfirm ≤ s.cable.leak[u].run ∧ s.cable.leak[u].raised = false := by
  simp only [leakRaiseDue, Bool.and_eq_true, decide_eq_true_eq, Bool.not_eq_true']

theorem leakClearDue_iff : leakClearDue s u = true ↔
    s.tables.cable.leakClear ≤ s.cable.leak[u].quiet ∧ s.cable.leak[u].raised = true := by
  simp only [leakClearDue, Bool.and_eq_true, decide_eq_true_eq, and_comm]

theorem hotRaiseDue_iff : hotRaiseDue s u = true ↔ 10 ≤ s.bus.units[u].hotRun ∧ s.bus.units[u].hotRaised = false := by
  simp only [hotRaiseDue, Bool.and_eq_true, decide_eq_true_eq, Bool.not_eq_true']

theorem hotClearDue_iff : hotClearDue s u = true ↔ 50 ≤ s.bus.units[u].hotQuiet ∧ s.bus.units[u].hotRaised = true := by
  simp only [hotClearDue, Bool.and_eq_true, decide_eq_true_eq, and_comm]

end Due

/-! ## A fault raised or cleared at its frame (R117, R151, R155, R156) -/

/-- A command of a frame whose work is done when it is due: it does it while the frame stands, and else nothing (log entry 2). -/
theorem next_atFrame_ite {s t : State} {stands due : Bool} {f : State → State} {P : Prop} [Decidable (stands = true ∧ P)]
    (work : f s = if due = true then t else s) (hdue : due = true ↔ P) :
    (.next (atFrame stands f s) : Host.Outcome State Fault Refusal) =
      .next (finish (if stands = true ∧ P then t else s)) := by
  cases stands with
  | false => rw [atFrame_idle s f rfl, if_neg fun h => Bool.noConfusion h.1]
  | true =>
    rw [atFrame_stands s f rfl, work]
    by_cases p : P
    · rw [if_pos (hdue.2 p), if_pos ⟨rfl, p⟩]
    · rw [if_neg (mt hdue.1 p), if_neg fun h => p h.2]

theorem exec_crossFeedRaise (s : State) (c : Fin 96) : exec (.crossFeedRaise c) s = .next (finish
    (if frameWorked s FrameWork.lit c = true ∧
        s.tables.cable.crossConfirm ≤ s.cable.circuits[c].litRun ∧ s.cable.circuits[c].crossRaised = false then
      raise (setCable s c fun r => { r with crossRaised := true }) .crossFeed (num c) .absent
    else s)) :=
  next_atFrame_ite rfl crossRaiseDue_iff

theorem exec_crossFeedClear (s : State) (c : Fin 96) : exec (.crossFeedClear c) s = .next (finish
    (if frameWorked s FrameWork.lit c = true ∧ s.cable.circuits[c].crossRaised = true ∧ 25 ≤ s.cable.circuits[c].quiet then
      clear (setCable s c fun r => { r with crossRaised := false, quiet := 0 }) .crossFeed (num c)
    else s)) :=
  next_atFrame_ite rfl crossClearDue_iff

/-- Settles O52: each command does its work just when its frame stands and its count has reached its limit. -/
theorem unitFaultsHeld : Obligations.UnitFaultsHeld := fun _ _ =>
  ⟨next_atFrame_ite rfl leakRaiseDue_iff, next_atFrame_ite rfl leakClearDue_iff,
    next_atFrame_ite rfl hotRaiseDue_iff, next_atFrame_ite rfl hotClearDue_iff⟩

/-! ## CABLE_FAULT_CONFIRM (R149) -/

section CableFault

variable {s : State} {c : Fin 96}

theorem takeCableFault_idle (h : cableFaultDue s c = none) : takeCableFault s c = s := by
  unfold takeCableFault
  rw [h]

theorem exec_cableFaultConfirm_idle (h : frameWorked s FrameWork.tested c = false) :
    exec (.cableFaultConfirm c) s = .next (finish s) :=
  congrArg Host.Outcome.next (atFrame_idle s _ h)

theorem exec_cableFaultConfirm_stands (h : frameWorked s FrameWork.tested c = true) :
    exec (.cableFaultConfirm c) s = .next (finish (recomputeRed (takeCableFault s c))) :=
  congrArg Host.Outcome.next (atFrame_stands s _ h)

theorem cable_finish_recomputeRed (x : State) : (finish (recomputeRed x)).cable = x.cable :=
  cable_eq_of_kept ((kept_finish _).trans (kept_recomputeRed x))

theorem circuits_finish_recomputeRed (x : State) : (finish (recomputeRed x)).prov.circuits = x.prov.circuits :=
  (congrArg Proving.circuits (prov_eq_of_kept ((kept_finish _).trans (kept_recomputeRed x)))).trans rfl

end CableFault

/-! ## RETRY_RELEASE and TRIP_COUNT_CLEAR (R153) -/

section Retry

variable {s : State} {c : Fin 96}

theorem exec_retryRelease_due (stands : pulseStands s = true) (due : releaseDue s c = true) : exec (.retryRelease c) s =
    .next { finish (takeRelease (pulsed s) c) with inPulse := s.inPulse } :=
  next_atPulse_due stands due rfl

theorem exec_retryRelease_idle (h : pulseStands s = false ∨ releaseDue s c = false) :
    exec (.retryRelease c) s = .next (finish s) := next_atPulse_idle h

theorem exec_tripCountClear_due (stands : pulseStands s = true) (due : tripClearDue s c = true) : exec (.tripCountClear c) s =
    .next { finish (setCable (pulsed s) c fun r => { r with trips := 0 }) with inPulse := s.inPulse } :=
  next_atPulse_due stands due (if_pos due)

theorem exec_tripCountClear_idle (h : pulseStands s = false ∨ tripClearDue s c = false) :
    exec (.tripCountClear c) s = .next (finish s) := next_atPulse_idle h

/-- A release that is due and the end of its command: the circuit's two records, and of the rest of both units red status alone. -/
theorem released_finish (due : releaseDue s c = true) :
    (finish (takeRelease s c)).cable =
        s.cable.withCircuit c (fun r => { r with retry := .normal, retryTimer := 0, retryFresh := false }) ∧
      (finish (takeRelease s c)).prov.circuits =
        (s.prov.withCircuit c fun r => { r with verdict := .unknown, cand := none, run := 0, fault := none }).circuits := by
  obtain ⟨-, released⟩ := kept_takeRelease s c
  obtain ⟨red, rewritten⟩ := released due
  have ended := (kept_finish (takeRelease s c)).trans rewritten
  exact ⟨cable_eq_of_kept ended, (congrArg Proving.circuits (prov_eq_of_kept ended)).trans rfl⟩

end Retry

/-- Settles O51: each command by whether its frame or pulse stands and its run, count or timer has reached its limit. -/
theorem cableFaultsHeld : Obligations.CableFaultsHeld := by
  refine fun s c => ⟨fun stands m cand due => ?confirmed, fun stands due unraised => ?crossRaised,
    fun stands raised due => ?crossCleared, fun stands waits due => ?released, fun stands normal due => ?forgotten,
    exec_cableFaultConfirm_idle, fun stands idle => ?unconfirmed, fun idle => ?crossNotRaised, fun idle => ?crossNotCleared,
    fun idle => ?notReleased, fun idle => ?notForgotten⟩
  case confirmed =>
    have marked := kept_takeCableFault s c
    rw [cableFaultDue_of_cand cand, if_pos due] at marked
    exact ⟨_, exec_cableFaultConfirm_stands stands, (cable_finish_recomputeRed _).trans (cable_eq_of_kept marked),
      (circuits_finish_recomputeRed _).trans (congrArg Proving.circuits (prov_eq_of_kept marked)), red_finish_recomputeRed _⟩
  case unconfirmed =>
    have taken := exec_cableFaultConfirm_stands stands
    rw [takeCableFault_idle (cableFaultDue_eq_none idle)] at taken
    exact ⟨_, taken, cable_finish_recomputeRed s, circuits_finish_recomputeRed s, red_finish_recomputeRed s⟩
  case crossRaised =>
    rw [exec_crossFeedRaise, if_pos ⟨stands, due, unraised⟩]
    rfl
  case crossNotRaised =>
    rw [exec_crossFeedRaise, if_neg (by grind)]
  case crossCleared =>
    rw [exec_crossFeedClear, if_pos ⟨stands, raised, due⟩]
    rfl
  case crossNotCleared =>
    rw [exec_crossFeedClear, if_neg (by grind)]
  case released =>
    have dueNow : releaseDue s c = true := releaseDue_iff.2 ⟨waits, due⟩
    obtain ⟨cable, circuits⟩ := released_finish (s := pulsed s) dueNow
    have taken := exec_retryRelease_due stands dueNow
    generalize finish (takeRelease (pulsed s) c) = t at cable circuits taken
    have own : t.prov.circuits[c] =
        { s.prov.circuits[c] with verdict := .unknown, cand := none, run := 0, fault := none } := by
      rw [circuits, withCircuit_self]
    refine ⟨_, taken, cable, congrArg ProvRec.verdict own, congrArg ProvRec.cand own, congrArg ProvRec.run own, fun d other => ?_⟩
    exact (congrArg (·[d]) circuits).trans (withCircuit_of_ne _ _ _ _ other.symm)
  case notReleased =>
    refine exec_retryRelease_idle (idle.imp_right fun idle => ?_)
    rw [← Bool.not_eq_true, releaseDue_iff]
    grind
  case forgotten => exact exec_tripCountClear_due stands (tripClearDue_iff.2 ⟨normal, due⟩)
  case notForgotten =>
    refine exec_tripCountClear_idle (idle.imp_right fun idle => ?_)
    rw [← Bool.not_eq_true, tripClearDue_iff]
    grind

end Sys2Proof.Machine

namespace Sys2Proof.Machine

open Sys2Proof

/-! ## A raise and a clear at the fault table (R161 to R163) -/

section Collected

variable {s : State} {k : Kind} {n : Nat} {d : Detail} {i : Fin 64} {r : FaultRec}

/-- A raise whose record is held renews it where it was CLEARED_UNACK, and else its stamp alone (R161). -/
theorem takeRaise_held (ho : OneRecordEach s) (hr : s.coll.slots[i] = some r) (hk : r.kind = k) (hn : r.subject = n) :
    takeRaise s k n d = setSlot s i (some
      (if r.state = .clearedUnack then
        { r with state := .activeUnack, count := min 255 (r.count + 1), last := stamp s, detail := d }
       else { r with last := stamp s })) := by
  simp only [takeRaise, findSlot_some s k n ho i r hr hk hn, hr]
  split <;> rfl

/-- A clear whose record is held (R163). -/
theorem takeClear_held (ho : OneRecordEach s) (hr : s.coll.slots[i] = some r) (hk : r.kind = k) (hn : r.subject = n) :
    takeClear s k n = { s with coll := { s.coll with
      slots := put s.coll.slots i
        (if r.state = .activeUnack then some { r with state := .clearedUnack, last := stamp s }
         else if r.state = .activeAck then none else some r)
      demandStands := s.coll.demandStands && decide (r.state = .clearedUnack) } } := by
  rw [takeClear_found (findSlot_some s k n ho i r hr hk hn) hr, clearedRec]
  cases hs : r.state with
  | activeUnack | activeAck => simp only [Bool.and_false, decide_false, reduceCtorEq, if_false, if_true]; rfl
  | clearedUnack => simp only [reduceCtorEq, if_false, if_true, decide_true, Bool.and_true, put_self _ i _ hr]

variable (new : ∀ (i : Fin 64) (r : FaultRec), s.coll.slots[i] = some r → ¬ (r.kind = k ∧ r.subject = n))
include new

/-- A raise with no record of its kind and subject takes the lowest-numbered empty slot (R161). -/
theorem takeRaise_empty (free : s.coll.slots[i] = none) (first : ∀ j : Fin 64, j < i → s.coll.slots[j] ≠ none) :
    takeRaise s k n d = setSlot s i (some (newRecord s k n d)) := by
  simp only [takeRaise, findSlot_none s k n new, emptySlot_some s i free first]

variable (full : ∀ i : Fin 64, s.coll.slots[i] ≠ none)
include full

/-- With no slot empty a raise takes the slot of the oldest record that may be evicted, the lower-numbered of two as old (R162). -/
theorem takeRaise_evicts (hi : Evictable s i r)
    (oldest : ∀ (j : Fin 64) (q : FaultRec), Evictable s j q → j ≠ i →
      Stamp.older q.last r.last = false ∧ (j < i → Stamp.older r.last q.last = true)) :
    takeRaise s k n d = setSlot s i (some (newRecord s k n d)) := by
  simp only [takeRaise, findSlot_none s k n new, emptySlot_none s full, evictSlot_some s i r hi oldest]

/-- With none that may be evicted the overflow latch takes the reaction (R162). -/
theorem takeRaise_overflows (held : ∀ (i : Fin 64) (r : FaultRec), ¬ Evictable s i r) :
    takeRaise s k n d = setColl s fun c => { c with overflow := raiseLatch c.overflow (reactionFor s k), demandStands := false } := by
  simp only [takeRaise, findSlot_none s k n new, emptySlot_none s full, evictSlot_none s held]

end Collected

/-- The latch becomes the more severe of itself and the reaction (R162). -/
theorem raiseLatch_eq (o : Option Reaction) (r : Reaction) :
    raiseLatch o r = some (match o with
      | some o => if o.severity < r.severity then r else o
      | none => r) := by
  unfold raiseLatch
  split
  · rfl
  · dsimp only; split <;> rfl

/-! ## The inhibit demand formed afresh (R165, R166) -/

section Inhibit

variable {s : State} {g : Fin 32}

theorem mem_ins_zero (a : Fin 32) : mem (ins (0 : GroupSet) a) g = true ↔ a = g := by
  rw [mem_ins _ _ _ a.isLt, mem_zero, Bool.false_or, decide_eq_true_eq, Fin.val_inj]

theorem circuitAt_eq_some {v : Fin 12} {x : Fin 8} {c : Fin 96} :
    circuitAt s v x = some c ↔ ∃ m : CircuitMap, s.map = some m ∧ m.terminal[v][x] = some c := by
  unfold circuitAt
  split
  next m hm => simp [hm]
  next hm => simp [hm]

/-- The groups gathered from a list of circuits are those that the circuits name. -/
theorem mem_foldl_groupOf (l : List (Fin 8 × Fin 96)) (m : GroupSet) :
    mem (l.foldl (fun acc tc => match groupOf s tc.2 with | some a => ins acc a | none => acc) m) g = true ↔
      mem m g = true ∨ ∃ tc ∈ l, groupOf s tc.2 = some g := by
  induction l generalizing m with
  | nil => simp
  | cons tc l ih =>
    have head : mem (match groupOf s tc.2 with | some a => ins m a | none => m) g = true ↔
        mem m g = true ∨ groupOf s tc.2 = some g := by
      cases groupOf s tc.2 with
      | none => simp
      | some a => rw [mem_ins _ _ _ a.isLt, Bool.or_eq_true, decide_eq_true_eq, Fin.val_inj, Option.some_inj]
    rw [List.foldl_cons, ih, head, List.exists_mem_cons_iff, or_assoc]

/-- The groups of a unit are those its circuits in the map name (R32). -/
theorem mem_groupsOnUnit {v : Fin 12} : mem (groupsOnUnit s v) g = true ↔
    ∃ (m : CircuitMap) (x : Fin 8) (c : Fin 96), s.map = some m ∧ m.terminal[v][x] = some c ∧ s.tables.circuit[c].group = num g := by
  refine (mem_foldl_groupOf _ _).trans ?_
  rw [mem_zero]
  simp only [Bool.false_eq_true, false_or, Prod.exists, mem_circuitsOf, circuitAt_eq_some, groupOf_eq_some]
  grind

/-- The groups to which a record's INHIBIT applies are gathered by its subject (R165). -/
theorem mem_inhibitedBy (r : FaultRec) : mem (inhibitedBy s r) g = true ↔ InhibitApplies s r g := by
  have none : mem (0 : GroupSet) g = true ↔ False := by rw [mem_zero]; decide
  unfold inhibitedBy InhibitApplies
  cases r.kind.subjectType with
  | circuit =>
    simp only [← groupOf_eq_some, ← ofNum_eq_some (k := r.subject)]
    cases ofNum 96 r.subject with
    | none => simpa using none
    | some c =>
      simp only [Option.some.injEq, exists_eq_left']
      cases inMap s c with
      | false => simpa using none
      | true =>
        cases groupOf s c with
        | none => simpa using none
        | some a => simpa using mem_ins_zero a
  | unit =>
    simp only [← ofNum_eq_some (k := r.subject)]
    cases ofNum 12 r.subject with
    | none => simpa using none
    | some v => simpa using mem_groupsOnUnit
  | group =>
    simp only [← ofNum_eq_some (k := r.subject)]
    cases ofNum 32 r.subject with
    | none => simpa using none
    | some a => simpa using mem_ins_zero a
  | input | plan | nothing => exact none

theorem mem_foldl_or {α : Type} (f : α → GroupSet) (l : List α) (m : GroupSet) :
    mem (l.foldl (fun acc a => acc ||| f a) m) g = true ↔ mem m g = true ∨ ∃ a ∈ l, mem (f a) g = true := by
  induction l generalizing m with
  | nil => simp
  | cons a l ih => rw [List.foldl_cons, ih, mem_or, Bool.or_eq_true, List.exists_mem_cons_iff, or_assoc]

/-- The inhibit demand holds the groups to which the INHIBIT reactions in force apply (R166). -/
theorem mem_inhibitDemandNow : mem (inhibitDemandNow s) g = true ↔ Inhibiting s s.coll.slots g := by
  unfold inhibitDemandNow Inhibiting
  rw [mem_foldl_or, mem_zero]
  simp only [Bool.false_eq_true, false_or, List.mem_filter, mem_records, FaultRec.inForce, FaultRec.isActive, Bool.and_eq_true,
    Bool.or_eq_true, decide_eq_true_eq, mem_inhibitedBy, ne_eq]
  grind

end Inhibit

/-- Settles O54: a raise by the slot it finds, takes, evicts or does not get, a clear by its record, and the demand formed after them. -/
theorem raisesTaken : Obligations.RaisesTaken := by
  intro s k n d ho
  obtain ⟨stands, formed⟩ := formInhibit_coll s
  refine ⟨fun i r hr hk hn => ⟨takeRaise_held ho hr hk hn, takeClear_held ho hr hk hn⟩,
    fun new => ⟨takeClear_unfound (findSlot_none s k n new), fun i free first => takeRaise_empty new free first,
      fun full => ⟨fun i r hr cleared recovers oldest => ?_, fun held => ?_⟩⟩,
    rfl, rfl, rfl, rfl, rfl, rfl, rfl, rfl, fun standing unmapped => ?_, fun moved => ⟨inhibitDemandNow s, ?_, fun g => mem_inhibitDemandNow⟩⟩
  · exact takeRaise_evicts new full ⟨hr, cleared, recovers⟩ fun j q hq other => oldest j q hq.1 hq.2.1 hq.2.2 other
  · rw [takeRaise_overflows new full fun i r hi => held i r hi.1 hi.2]
    exact congrArg (fun o => { s with coll := { s.coll with overflow := o, demandStands := false } }) (raiseLatch_eq _ _)
  · rw [formInhibit_frame, stands ⟨standing, unmapped⟩]
  · rw [formInhibit_frame, formed moved]

end Sys2Proof.Machine

namespace Sys2Proof.Machine

open Sys2Proof

/-! ## Acknowledgements (R164) -/

section Acknowledged

variable {s : State} {i : Fin 64}

/-- What an acknowledgement taken at a stamp makes of a record (R164). -/
def ackedRec (now : Stamp) (r : FaultRec) : Option FaultRec :=
  if r.state = .activeUnack then some { r with state := .activeAck, last := now }
  else if r.state = .clearedUnack then none else some r

/-- An acknowledgement changes every record that is not ACTIVE_ACK, and no other. -/
theorem ackedRec_eq_self {now : Stamp} {r : FaultRec} : ackedRec now r = some r ↔ r.state = .activeAck := by
  obtain ⟨_, _, state, _, _, _, _, _⟩ := r
  cases state <;> simp [ackedRec]

theorem ackSlot_held {r : FaultRec} (hr : s.coll.slots[i] = some r) :
    ackSlot s i = if r.state = .activeAck then s else setSlot s i (ackedRec (stamp s) r) := by
  simp only [ackSlot, hr, ackedRec]
  cases r.state <;> rfl

theorem ackSlot_empty (h : s.coll.slots[i] = none) : ackSlot s i = s := by simp only [ackSlot, h]

/-- From `s` to `t` the records of the slots listed have been acknowledged, and nothing else has changed but that the standing inhibit demand ends
with a change of the table (R164, R167). -/
structure Acked (l : List (Fin 64)) (s t : State) : Prop where
  frame : t = { s with coll := { s.coll with slots := t.coll.slots, demandStands := t.coll.demandStands } }
  slots : ∀ j : Fin 64, t.coll.slots[j] = if j ∈ l then s.coll.slots[j].bind (ackedRec (stamp s)) else s.coll.slots[j]
  stands : StandsOn s.coll t.coll

theorem Acked.refl (s : State) : Acked [] s s := ⟨rfl, fun _ => rfl, by simp [StandsOn]⟩

theorem acked_ackSlot (s : State) (i : Fin 64) : Acked [i] s (ackSlot s i) := by
  have same (h : s.coll.slots[i].bind (ackedRec (stamp s)) = s.coll.slots[i]) : Acked [i] s s := by
    refine ⟨rfl, fun j => ?_, (Acked.refl s).stands⟩
    split
    next hj => rw [List.mem_singleton.1 hj, h]
    next => rfl
  cases hr : s.coll.slots[i] with
  | none => rw [ackSlot_empty hr]; exact same (by rw [hr]; rfl)
  | some r =>
    rw [ackSlot_held hr]
    split
    next ack => exact same (by rw [hr]; exact ackedRec_eq_self.2 ack)
    next changed =>
      refine ⟨rfl, fun j => ?_, iff_of_false (by simp [setSlot]) fun h => ?_⟩
      · rw [setSlot_slots]
        by_cases e : i = j
        · subst e; rw [if_pos rfl, if_pos (List.mem_singleton_self i), hr]; rfl
        · rw [if_neg e, if_neg (by simpa using Ne.symm e)]
      · have held : (setSlot s i (ackedRec (stamp s) r)).coll.slots[i] = some r := by rw [h.2, hr]
        rw [setSlot_slots, if_pos rfl] at held
        exact changed (ackedRec_eq_self.1 held)

/-- Slots acknowledged one after another, none of them twice. -/
theorem acked_foldl (l : List (Fin 64)) (once : l.Nodup) (s : State) : Acked l s (l.foldl ackSlot s) := by
  induction l generalizing s with
  | nil => exact .refl s
  | cons a l ih =>
    obtain ⟨fresh, once⟩ := List.nodup_cons.1 once
    have first := acked_ackSlot s a
    have rest := ih once (ackSlot s a)
    rw [List.foldl_cons]
    have now : stamp (ackSlot s a) = stamp s := by rw [first.frame]; rfl
    refine ⟨?_, fun j => ?_, ?_⟩
    · rw [rest.frame, first.frame]
    · rw [rest.slots, first.slots, now]
      by_cases e : j = a
      · subst e; simp [fresh]
      · simp [e]
    · have stands := rest.stands
      have stands' := first.stands
      unfold StandsOn at stands stands' ⊢
      rw [stands, stands']
      refine ⟨fun ⟨⟨hd, hb⟩, hc⟩ => ⟨hd, hc.trans hb⟩, fun ⟨hd, hc⟩ => ?_⟩
      have hb : (ackSlot s a).coll.slots = s.coll.slots := Vector.ext fun j hj => by
        by_cases e : (⟨j, hj⟩ : Fin 64) = a
        · subst e
          have kept := rest.slots ⟨j, hj⟩
          rw [if_neg fresh] at kept
          exact kept.symm.trans (congrArg (·[(⟨j, hj⟩ : Fin 64)]) hc)
        · have kept := first.slots ⟨j, hj⟩
          rw [if_neg (by simpa using e)] at kept
          exact kept
      exact ⟨⟨hd, hb⟩, hc.trans hb.symm⟩

/-- The slot found for a kind and subject, if one is, is acknowledged (R164). -/
theorem acked_ackOne (s : State) (k : Kind) (n : Nat) : Acked (findSlot s k n).toList s (ackOne s k n) := by
  unfold ackOne
  cases findSlot s k n with
  | none => exact .refl s
  | some i => exact acked_ackSlot s i

end Acknowledged

/-! ## ACK_FAULT requested (R164) -/

section AckRequested

variable {k n : Nat} {kd : Kind} {s : State}

theorem ackFaultReq_unknown (hk : Kind.ofNumber k = none) : ackFaultReq (.one k n) s = refuse s .badValue := by
  simp only [ackFaultReq, hk]

theorem ackFaultReq_outside (hk : Kind.ofNumber k = some kd) (hn : subjectOk kd n = false) :
    ackFaultReq (.one k n) s = ⟨s, .badIndex, .none⟩ := by
  simp only [ackFaultReq, hk]
  exact checked_refuse (by rw [hn]; rfl)

theorem ackFaultReq_one (hk : Kind.ofNumber k = some kd) (hn : subjectOk kd n = true) :
    ackFaultReq (.one k n) s = done (ackOne s kd n) := by
  simp only [ackFaultReq, hk]
  exact checked_pass (by rw [hn]; rfl)

end AckRequested

/-! ## CLEAR_LATCH (R154) -/

section ClearLatch

variable {s : State} {n : Nat} {c : Fin 96}

theorem clearLatchReq_outside (hn : ofNum 96 n = none) : clearLatchReq n s = ⟨s, .badIndex, .none⟩ := by
  simp only [clearLatchReq, hn]; rfl

theorem map_isSome_of_inMap (h : inMap s c = true) : s.map.isNone = false := by
  cases hm : s.map with
  | some m => rfl
  | none => unfold inMap circuitAt at h; rw [hm] at h; split at h <;> cases h

/-- A circuit outside the map or not LATCHED has no latch to clear. -/
theorem clearLatchReq_unlatched (hn : ofNum 96 n = some c) (h : inMap s c = false ∨ s.cable.circuits[c].retry ≠ .latched) :
    clearLatchReq n s = ⟨s, .badState, .none⟩ := by
  simp only [clearLatchReq, hn]
  refine checked_refuse ?_
  rcases h with out | free
  · rw [out, Bool.not_false, Bool.or_true]; rfl
  · rw [decide_eq_true free]; cases s.map.isNone || !inMap s c <;> rfl

theorem clearLatchReq_latched (hn : ofNum 96 n = some c) (mapped : inMap s c = true) (latched : s.cable.circuits[c].retry = .latched) :
    clearLatchReq n s = done (takeClearLatch s c) := by
  simp only [clearLatchReq, hn]
  exact checked_pass (by rw [map_isSome_of_inMap mapped, mapped, latched]; rfl)

/-- A latch cleared: the circuit's cable record is released, its verdict UNKNOWN, and of the rest red status alone may change (R136, R154). -/
theorem kept_takeClearLatch (s : State) (c : Fin 96) : ∃ red : Vector RedStatus 32, kept (takeClearLatch s c) =
    { kept s with
      cable := { s.cable with
        circuits := put s.cable.circuits c { s.cable.circuits[c] with retry := .normal, trips := 0, cleanOn := 0, ovcRaised := false } }
      prov := { (s.prov.withCircuit c fun r => { r with verdict := .unknown, cand := none, run := 0, fault := none }) with
        red := red } } := by
  have cleared : kept (clear (setCable s c fun r => { r with retry := .normal, trips := 0, cleanOn := 0, ovcRaised := false })
      .overcurrent (num c)) = _ := (kept_clear _ _ _).trans (kept_setCable s c _)
  obtain ⟨red, released⟩ := kept_releaseVerdict (clear (setCable s c fun r =>
    { r with retry := .normal, trips := 0, cleanOn := 0, ovcRaised := false }) .overcurrent (num c)) c
  rw [cleared, prov_eq_of_kept cleared] at released
  exact ⟨red, released⟩

end ClearLatch

/-- Settles O24: the requests check by check; the slots acknowledged are the one found, or all. -/
theorem faultsAcknowledged : Obligations.FaultsAcknowledged := by
  refine ⟨fun s tag free => ⟨congrArg Host.Outcome.next (serve_of free rfl), fun k n hk => ?unknown, fun k n kd hk hn => ?outside,
    fun k n kd hk hn => ?one, ?all⟩, fun s tag n free => ⟨fun hn => ?index,
    fun c hn => ⟨fun unfit => ?unlatched, fun mapped latched => ?latched⟩⟩⟩
  case unknown => exact congrArg Host.Outcome.next (serve_of free (ackFaultReq_unknown hk))
  case outside => exact congrArg Host.Outcome.next (serve_of free (ackFaultReq_outside hk hn))
  case one =>
    obtain ⟨frame, slots, stands⟩ := acked_ackOne (taken 0x19 tag s) kd n
    refine ⟨_, congrArg Host.Outcome.next (serve_of free (ackFaultReq_one hk hn)), frame, stands, fun i => ?_⟩
    refine (slots i).trans ?_
    rw [taken_stamp]
    simp only [Option.mem_toList]
    refine if_congr Iff.rfl ?_ rfl
    cases (taken 0x19 tag s).coll.slots[i] <;> rfl
  case all =>
    obtain ⟨frame, slots, stands⟩ := acked_foldl (idx 64) (List.nodup_finRange 64) (taken 0x19 tag s)
    refine ⟨_, congrArg Host.Outcome.next (serve_of free rfl), frame, stands, fun i => ?_⟩
    refine (slots i).trans ?_
    rw [taken_stamp, if_pos (List.mem_finRange i)]
    cases (taken 0x19 tag s).coll.slots[i] <;> rfl
  case index => exact congrArg Host.Outcome.next (serve_of free (clearLatchReq_outside hn))
  case unlatched =>
    refine congrArg Host.Outcome.next (serve_of free (clearLatchReq_unlatched hn ?_))
    rwa [taken_inMap, taken_cable]
  case latched =>
    have served := serve_of (kind := 0x1A) (tag := tag) free (clearLatchReq_latched hn (by rwa [taken_inMap]) (by rwa [taken_cable]))
    obtain ⟨red, cleared⟩ := kept_takeClearLatch (taken 0x1A tag s) c
    have ended := (kept_answered 0x1A tag (takeClearLatch (taken 0x1A tag s) c) .done .none).trans cleared
    rw [kept_taken, taken_cable, taken_prov] at ended
    refine ⟨_, congrArg Host.Outcome.next served, replied_answered _ _ _ _ _, cable_eq_of_kept ended, ?_⟩
    generalize answered _ _ _ _ _ = t at ended
    have circuits : t.prov.circuits =
        (s.prov.withCircuit c fun r => { r with verdict := .unknown, cand := none, run := 0, fault := none }).circuits :=
      (congrArg Proving.circuits (prov_eq_of_kept ended)).trans rfl
    have own : t.prov.circuits[c] = { s.prov.circuits[c] with verdict := .unknown, cand := none, run := 0, fault := none } := by
      rw [circuits, withCircuit_self]
    exact ⟨congrArg ProvRec.verdict own, congrArg ProvRec.cand own, congrArg ProvRec.run own,
      fun d other => (congrArg (·[d]) circuits).trans (withCircuit_of_ne _ _ _ _ other.symm),
      tables_eq_of_kept ended, clock_eq_of_kept ended, bus_eq_of_kept_queue ended rfl, map_eq_of_kept ended⟩

end Sys2Proof.Machine

namespace Sys2Proof.Machine

open Sys2Proof

/-! ## What the work of a command keeps (R114, R121, R138, R159, R172) -/

section Records

variable {s : State} {k : Kind} {n : Nat} {d : Detail}

/-- A slot written keeps one record of each kind and subject, where no other slot holds a record of the kind and subject written (R159). -/
theorem OneRecordEach.setSlot (ho : OneRecordEach s) {i : Fin 64} {x : Option FaultRec}
    (hx : ∀ r, x = some r → ∀ (j : Fin 64) (q : FaultRec), s.coll.slots[j] = some q → q.kind = r.kind → q.subject = r.subject → j = i) :
    OneRecordEach (setSlot s i x) := by
  intro a b p q ha hb hk hn
  rw [setSlot_slots] at ha hb
  split at ha <;> split at hb
  next ea eb => exact ea.symm.trans eb
  next ea _ => exact ea.symm.trans (hx p ha b q hb hk.symm hn.symm).symm
  next _ eb => exact (hx q hb a p ha hk hn).trans eb
  next => exact ho a b p q ha hb hk hn

/-- Rewriting the record of a slot with its kind and subject kept, or removing it, keeps one of each. -/
theorem OneRecordEach.rewrite (ho : OneRecordEach s) {i : Fin 64} {r : FaultRec} (hr : s.coll.slots[i] = some r) {x : Option FaultRec}
    (hx : ∀ q, x = some q → q.kind = r.kind ∧ q.subject = r.subject) : OneRecordEach (Machine.setSlot s i x) :=
  ho.setSlot fun q hq j p hp hk hn => ho j i p r hp hr (hk.trans (hx q hq).1) (hn.trans (hx q hq).2)

/-- A kind and subject for which no slot is found is that of no record. -/
theorem not_held_of_findSlot (h : findSlot s k n = none) {j : Fin 64} {q : FaultRec} (hq : s.coll.slots[j] = some q) :
    ¬ (q.kind = k ∧ q.subject = n) := by
  have unfound := List.find?_eq_none.1 h j (List.mem_finRange j)
  simpa [hq] using unfound

/-- A new record is made where none of its kind and subject is held (R161). -/
theorem OneRecordEach.newRecord (ho : OneRecordEach s) (h : findSlot s k n = none) (i : Fin 64) :
    OneRecordEach (Machine.setSlot s i (some (newRecord s k n d))) :=
  ho.setSlot fun r hr j q hq hk hn => by
    cases hr
    exact absurd ⟨hk, hn⟩ (not_held_of_findSlot h hq)

theorem OneRecordEach.takeRaise (ho : OneRecordEach s) (k : Kind) (n : Nat) (d : Detail) : OneRecordEach (takeRaise s k n d) := by
  unfold Machine.takeRaise
  split
  next i hf =>
    split
    next r hr => split <;> exact ho.rewrite hr (by rintro q ⟨⟩; exact ⟨rfl, rfl⟩)
    next => exact ho
  next hf =>
    split
    next => exact ho.newRecord hf _
    next =>
      split
      next => exact ho.newRecord hf _
      next => exact ho

theorem OneRecordEach.ackSlot (ho : OneRecordEach s) (i : Fin 64) : OneRecordEach (ackSlot s i) := by
  unfold Machine.ackSlot
  split
  next r hr =>
    split
    · exact ho.rewrite hr (by rintro q ⟨⟩; exact ⟨rfl, rfl⟩)
    · exact ho.rewrite hr (by rintro q ⟨⟩)
    · exact ho
  next => exact ho

theorem OneRecordEach.reformReactions (ho : OneRecordEach s) (written : List (Fin 21)) : OneRecordEach (reformReactions s written) := by
  refine ho.of_slots fun i b hb => ?_
  rw [reformReactions_slots, Option.map_eq_some_iff] at hb
  obtain ⟨a, ha, rfl⟩ := hb
  exact ⟨a, ha, by split <;> rfl, by split <;> rfl⟩

end Records

/-- The books of a state: its fault records, what of the field bus and of learning has a capacity, and what of the port the ALERT slot goes by. -/
structure Books where
  slots : Vector (Option FaultRec) 64
  logs : Vector (List WinRec) 12
  queue : List Report
  dropped : Nat
  rings : Vector (List (Nat × Nat)) 96
  summary : Summary
  alert : Option Alert

def books (s : State) : Books :=
  { slots := s.coll.slots, logs := tab fun u => s.bus.units[u].log, queue := s.bus.queue, dropped := s.bus.dropped
    rings := tab fun c => s.prov.learn[c].ring, summary := s.port.summary, alert := s.port.alert }

/-- From `s` to `t` the fault table still holds one record of each kind and subject, the capacities are still kept, and a change of the mode, the
count or the ALARM line of the summary has made the ALERT slot READY, which no work empties (R172). -/
structure Upkeep (s t : State) : Prop where
  records : OneRecordEach s → OneRecordEach t
  capacity : WithinCapacity s → WithinCapacity t
  alert : alertChange s.port.summary t.port.summary = true ∨ s.port.alert ≠ none → t.port.alert ≠ none

theorem alertChange_self (a : Summary) : alertChange a a = false := by simp [alertChange]

theorem alertChange_or {a c : Summary} (b : Summary) (h : alertChange a c = true) : alertChange a b = true ∨ alertChange b c = true := by
  simp only [alertChange, Bool.or_eq_true, decide_eq_true_eq] at h ⊢
  grind

variable {s t u : State}

theorem Upkeep.refl : Upkeep s s := ⟨id, id, fun h => h.resolve_left (by simp [alertChange_self])⟩

theorem Upkeep.trans (h : Upkeep s t) (h' : Upkeep t u) : Upkeep s u where
  records := h'.records ∘ h.records
  capacity := h'.capacity ∘ h.capacity
  alert due := h'.alert <| due.elim
    (fun change => (alertChange_or t.port.summary change).elim (fun first => .inr (h.alert (.inl first))) .inl)
    fun ready => .inr (h.alert (.inr ready))

theorem oneRecordEach_of_slots (e : t.coll.slots = s.coll.slots) (ho : OneRecordEach s) : OneRecordEach t := by
  unfold OneRecordEach; rw [e]; exact ho

/-- Work that changes of the port neither the summary nor the ALERT slot. -/
theorem Upkeep.step (h : Upkeep s t) (records : OneRecordEach t → OneRecordEach u) (capacity : WithinCapacity t → WithinCapacity u)
    (port : u.port.summary = t.port.summary ∧ u.port.alert = t.port.alert) : Upkeep s u :=
  h.trans ⟨records, capacity, by rw [port.1, port.2]; exact Upkeep.refl.alert⟩

/-- Work that leaves the books. -/
theorem Upkeep.quiet (h : Upkeep s t) (e : books u = books t) : Upkeep s u := by
  have log (v : Fin 12) : u.bus.units[v].log = t.bus.units[v].log := by
    have := congrArg (fun b : Books => b.logs[v]) e
    simpa only [books, getElem_tab] using this
  have ring (c : Fin 96) : u.prov.learn[c].ring = t.prov.learn[c].ring := by
    have := congrArg (fun b : Books => b.rings[c]) e
    simpa only [books, getElem_tab] using this
  simp only [books, Books.mk.injEq] at e
  obtain ⟨slots, -, queue, dropped, -, summary, alert⟩ := e
  refine h.step (oneRecordEach_of_slots slots) (fun hc => ?_) ⟨summary, alert⟩
  simpa only [WithinCapacity, log, ring, queue, dropped] using hc

/-- Either of two works, by a test. -/
theorem Upkeep.ite {p : Prop} [Decidable p] (h : Upkeep s t) (h' : Upkeep s u) : Upkeep s (if p then t else u) := by
  split; exacts [h, h']

theorem upkeep_foldl {α : Type} (f : State → α → State) (hf : ∀ t a, Upkeep t (f t a)) (l : List α) (h : Upkeep s t) :
    Upkeep s (l.foldl f t) := by
  induction l generalizing t with
  | nil => exact h
  | cons a l ih => exact ih (h.trans (hf t a))

theorem upkeep_times (n : Nat) (f : State → State) (hf : ∀ t, Upkeep t (f t)) (h : Upkeep s t) : Upkeep s (times n f t) := by
  induction n generalizing t with
  | zero => exact h
  | succ n ih => exact ih (h.trans (hf t))

/-! ### Writes of one record -/

section Writes

variable (h : Upkeep s t)
include h

@[simp] theorem upkeep_setEng (f : Engine → Engine) : Upkeep s (setEng t f) := h.quiet rfl
@[simp] theorem upkeep_setMode (f : ModeRec → ModeRec) : Upkeep s (setMode t f) := h.quiet rfl
@[simp] theorem upkeep_setGroup (g : Fin 32) (f : GroupRec → GroupRec) : Upkeep s (setGroup t g f) := h.quiet rfl
@[simp] theorem upkeep_setInput (e : Fin 64) (f : InputRec → InputRec) : Upkeep s (setInput t e f) := h.quiet rfl
@[simp] theorem upkeep_setProv (c : Fin 96) (f : ProvRec → ProvRec) : Upkeep s (setProv t c f) := h.quiet rfl
@[simp] theorem upkeep_setCable (c : Fin 96) (f : CableRec → CableRec) : Upkeep s (setCable t c f) := h.quiet rfl
@[simp] theorem upkeep_setLeak (v : Fin 12) (f : LeakRec → LeakRec) : Upkeep s (setLeak t v f) := h.quiet rfl
@[simp] theorem upkeep_setMains (f : Mains → Mains) : Upkeep s (setMains t f) := h.quiet rfl
@[simp] theorem upkeep_setClock (f : Clock → Clock) : Upkeep s (setClock t f) := h.quiet rfl
@[simp] theorem upkeep_setTables (f : Tables → Tables) : Upkeep s (setTables t f) := h.quiet rfl
@[simp] theorem upkeep_between : Upkeep s (between t) := h.quiet rfl
@[simp] theorem upkeep_setRound (f : Round → Round) : Upkeep s (setRound t f) := h.quiet rfl
@[simp] theorem upkeep_sendBus (f : BusFrame) : Upkeep s (sendBus t f) := h.quiet rfl
@[simp] theorem upkeep_cable (c : Cable) : Upkeep s { t with cable := c } := h.quiet rfl
@[simp] theorem upkeep_latched (x : StageSet) : Upkeep s { t with latched := x } := h.quiet rfl
@[simp] theorem upkeep_sched (x : SchedRec) : Upkeep s { t with sched := x } := h.quiet rfl
@[simp] theorem upkeep_moment (x : Moment) : Upkeep s { t with moment := x } := h.quiet rfl
@[simp] theorem upkeep_inPulse (x : Bool) : Upkeep s { t with inPulse := x } := h.quiet rfl

/-- A write of lamp proving that leaves the learn records. -/
theorem Upkeep.prov {p : Proving} (hp : p.learn = t.prov.learn) : Upkeep s { t with prov := p } :=
  h.quiet (by simp only [books, hp])

/-- A write of the collector that leaves the fault table. -/
theorem Upkeep.setColl (f : Collector → Collector) (hf : (f t.coll).slots = t.coll.slots) : Upkeep s (setColl t f) :=
  h.quiet (by simp only [books, setColl_coll, hf]; rfl)

/-- A write of the port that leaves the summary and the ALERT slot. -/
theorem Upkeep.setPort (f : Port → Port) (hs : (f t.port).summary = t.port.summary) (ha : (f t.port).alert = t.port.alert) :
    Upkeep s (setPort t f) :=
  h.quiet (by simp only [books, setPort_port, hs, ha]; rfl)

/-- A write of the field bus controller that leaves the logs, the queue and the dropped count. -/
theorem Upkeep.setBus (f : Bus → Bus) (hu : (f t.bus).units = t.bus.units) (hq : (f t.bus).queue = t.bus.queue)
    (hd : (f t.bus).dropped = t.bus.dropped) : Upkeep s (setBus t f) :=
  h.quiet (by simp only [books, setBus_bus, hu, hq, hd]; rfl)

/-- A unit's record written with at most four records in its log (R114). -/
@[simp] theorem upkeep_setUnit (v : Fin 12) (f : UnitRec → UnitRec) (hf : ∀ x, x.log.length ≤ 4 → (f x).log.length ≤ 4) :
    Upkeep s (setUnit t v f) := by
  refine h.step id (fun ⟨logs, queue, dropped, rings⟩ => ⟨fun w => ?_, queue, dropped, rings⟩) ⟨rfl, rfl⟩
  rw [setUnit_bus]
  by_cases e : v = w
  · subst e; rw [getElem_upd_self]; exact hf _ (logs v)
  · rw [getElem_upd_of_ne _ _ _ _ e]; exact logs w

/-- A learn record written with at most eight pairs in its ring (R138). -/
@[simp] theorem upkeep_setLearn (c : Fin 96) (f : LearnRec → LearnRec) (hf : ∀ x, x.ring.length ≤ 8 → (f x).ring.length ≤ 8) :
    Upkeep s (setLearn t c f) := by
  refine h.step id (fun ⟨logs, queue, dropped, rings⟩ => ⟨logs, queue, dropped, fun d => ?_⟩) ⟨rfl, rfl⟩
  rw [setLearn_prov]
  by_cases e : c = d
  · subst e; rw [getElem_upd_self]; exact hf _ (rings c)
  · rw [getElem_upd_of_ne _ _ _ _ e]; exact rings d

@[simp] theorem upkeep_takeRaise (k : Kind) (n : Nat) (d : Detail) : Upkeep s (takeRaise t k n d) := by
  refine h.step (fun ho => ho.takeRaise k n d) ?_ ?_ <;> rw [takeRaise_frame]
  exacts [id, ⟨rfl, rfl⟩]

@[simp] theorem upkeep_takeClear (k : Kind) (n : Nat) : Upkeep s (takeClear t k n) := by
  refine h.step (fun ho => ho.takeClear k n) ?_ ?_ <;> rw [takeClear_frame]
  exacts [id, ⟨rfl, rfl⟩]

@[simp] theorem upkeep_ackSlot (i : Fin 64) : Upkeep s (ackSlot t i) := by
  refine h.step (fun ho => ho.ackSlot i) ?_ ?_ <;> rw [ackSlot_frame]
  exacts [id, ⟨rfl, rfl⟩]

@[simp] theorem upkeep_reformReactions (written : List (Fin 21)) : Upkeep s (reformReactions t written) :=
  h.step (fun ho => ho.reformReactions written) id ⟨rfl, rfl⟩

/-- The summary formed afresh makes the ALERT slot READY where the mode, the count or the ALARM line changes, and empties it never (R172). -/
@[simp] theorem upkeep_refreshSummary : Upkeep s (refreshSummary t) := by
  refine h.trans ⟨id, id, fun due => ?_⟩
  simp only [refreshSummary, setPort_port] at due ⊢
  split
  · exact Option.some_ne_none _
  next same => simpa using due.resolve_left same

end Writes

end Sys2Proof.Machine

namespace Sys2Proof.Machine

open Sys2Proof

variable {s t : State} (h : Upkeep s t)

/-! ### The monitor and the engine (R20 to R73) -/

section Engine

include h

@[simp] theorem upkeep_setAspect (g : Fin 32) (a : Aspect) : Upkeep s (setAspect t g a) := by
  unfold setAspect; dsimp only; split
  · exact h
  · exact h.quiet rfl

@[simp] theorem upkeep_handTarget (g : Fin 32) (x : Target) : Upkeep s (handTarget t g x) := by
  unfold handTarget
  repeat' split
  all_goals simp [h]

@[simp] theorem upkeep_handTargets (gs : List (Fin 32)) (x : Target) : Upkeep s (handTargets t gs x) :=
  upkeep_foldl _ (fun _ g => upkeep_handTarget .refl g x) gs h

@[simp] theorem upkeep_handAll (x : Target) : Upkeep s (handAll t x) := upkeep_handTargets h _ x

@[simp] theorem upkeep_restartJunctionRun : Upkeep s (restartJunctionRun t) := h.quiet rfl

@[simp] theorem upkeep_refreshInhibit : Upkeep s (refreshInhibit t) := h.quiet rfl

@[simp] theorem upkeep_raiseInvalid (p : Fin 8) : Upkeep s (raiseInvalid t p) := by simp [raiseInvalid, h]

@[simp] theorem upkeep_refreshInvalid : Upkeep s (refreshInvalid t) :=
  upkeep_foldl _ (fun _ p => by split <;> simp [Upkeep.refl]) _ h

@[simp] theorem upkeep_changeGroup (was : GroupSet) (now : List (Fin 32)) (g : Fin 32) : Upkeep s (changeGroup was now t g) := by
  rcases changeGroup_cases t was now g with ⟨_, _, e⟩ | ⟨_, _, _, e⟩ | ⟨_, _, e⟩ <;> rw [e] <;> simp [h]

@[simp] theorem upkeep_beginInterstage (p : Fin 8) (b : Fin 16) : Upkeep s (beginInterstage t p b) :=
  upkeep_foldl _ (fun _ g => upkeep_changeGroup .refl _ _ g) _ (upkeep_setEng h _)

@[simp] theorem upkeep_stopServed : Upkeep s (stopServed t) := by simp [stopServed, h]

@[simp] theorem upkeep_takeover (q : Fin 8) (req : Option StepReq) : Upkeep s (takeover t q req) := by
  unfold takeover; dsimp only; split
  · exact upkeep_beginInterstage (upkeep_setEng h _) q _
  · exact upkeep_setEng (upkeep_stopServed (upkeep_setEng h _)) _

@[simp] theorem upkeep_leaveStep (p : Fin 8) : Upkeep s (leaveStep t p) := by
  unfold leaveStep; split <;> simp [h]

@[simp] theorem upkeep_goOn (p : Fin 8) (found : Option (Fin 16) × Bool) (req : Option StepReq) : Upkeep s (goOn t p found req) := by
  unfold goOn
  dsimp only
  repeat' split
  all_goals simp [h]

@[simp] theorem upkeep_endStep (p : Fin 8) : Upkeep s (endStep t p) := by simp [endStep, h]

@[simp] theorem upkeep_endForStep (p : Fin 8) (req : StepReq) : Upkeep s (endForStep t p req) := by
  unfold endForStep; dsimp only; split <;> simp [h]

@[simp] theorem upkeep_stageStart (p : Fin 8) : Upkeep s (stageStart t p) := by
  unfold stageStart; dsimp only; split <;> simp [h]

@[simp] theorem upkeep_abandonStep (p : Fin 8) : Upkeep s (abandonStep t p) := by
  have rests := upkeep_setEng h fun e => { e with stepReq := none, sub := .rest, stageOn := false, gaining := 0, losing := 0 }
  unfold abandonStep
  dsimp only
  generalize setEng t _ = r at rests ⊢
  repeat' split
  all_goals simp [rests]

@[simp] theorem upkeep_gainGroup (g : Fin 32) : Upkeep s (gainGroup t g) := by
  unfold gainGroup
  repeat' split
  all_goals simp [h]

@[simp] theorem upkeep_interstageProgress : Upkeep s (interstageProgress t) := by
  have gained := upkeep_foldl gainGroup (fun _ g => upkeep_gainGroup .refl g) (idx 32) h
  unfold interstageProgress
  dsimp only
  repeat' split
  all_goals simp [h, gained]

@[simp] theorem upkeep_refreshSub : Upkeep s (refreshSub t) := by
  unfold refreshSub
  repeat' split
  all_goals simp [h]

@[simp] theorem upkeep_judgeStepEnd (p : Fin 8) : Upkeep s (judgeStepEnd t p) := by
  unfold judgeStepEnd
  repeat' split
  all_goals simp [h]

@[simp] theorem upkeep_readCounter : Upkeep s (readCounter t) := by
  unfold readCounter
  dsimp only
  repeat' split
  all_goals simp [h]

@[simp] theorem upkeep_restPulse (p : Fin 8) : Upkeep s (restPulse t p) := by
  unfold restPulse
  dsimp only
  repeat' split
  all_goals simp [h]

@[simp] theorem upkeep_enginePulse (ran : Bool) : Upkeep s (enginePulse t ran) := by
  have read := upkeep_readCounter h
  unfold enginePulse
  dsimp only
  generalize readCounter t = r at read ⊢
  repeat' split
  all_goals simp [h, read]

@[simp] theorem upkeep_engineIdle : Upkeep s (engineIdle t) := upkeep_setEng h _

@[simp] theorem upkeep_engineStart (p : Fin 8) : Upkeep s (engineStart t p) := by
  unfold engineStart; dsimp only; split <;> simp [h]

@[simp] theorem upkeep_orderlyStop : Upkeep s (orderlyStop t) := by
  unfold orderlyStop
  dsimp only
  split
  · exact upkeep_foldl _ (fun _ g => by split <;> simp [Upkeep.refl]) _ (upkeep_setEng h _)
  · simp [h]

@[simp] theorem upkeep_dealGoverning (p : Fin 8) : Upkeep s (dealGoverning t p) := by
  unfold dealGoverning
  dsimp only
  repeat' split
  all_goals simp [h]

@[simp] theorem upkeep_nameGoverning (p : Fin 8) : Upkeep s (nameGoverning t p) := by
  have named := upkeep_refreshInvalid (upkeep_setEng h fun e => { e with governing := p })
  unfold nameGoverning; dsimp only; split <;> simp [named]

end Engine

/-! ### The mode machine (R74 to R90) -/

section Modes

include h

@[simp] theorem upkeep_leaveStartRed (m : Mode) : Upkeep s (leaveStartRed t m) := by
  unfold leaveStartRed; split <;> simp [h]

@[simp] theorem upkeep_writeMode (m : Mode) (r : Reason) : Upkeep s (writeMode t m r) := upkeep_setMode (upkeep_leaveStartRed h m) _

@[simp] theorem upkeep_setReason (r : Reason) : Upkeep s (setReason t r) := upkeep_setMode h _

@[simp] theorem upkeep_takeMode (m : Mode) (r : Reason) : Upkeep s (takeMode t m r) := by
  have idle := upkeep_engineIdle (upkeep_writeMode h m r)
  have zeroed := upkeep_setMode idle fun j => { j with timer := 0, timerFresh := !(engineIdle (writeMode t m r)).inPulse }
  unfold takeMode zeroModeTimer; cases m <;> simp [idle, zeroed]

@[simp] theorem upkeep_enterDemanded : Upkeep s (enterDemanded t) := by
  unfold enterDemanded
  repeat' split
  all_goals simp [h]

@[simp] theorem upkeep_enterMode (m : Mode) (r : Reason) : Upkeep s (enterMode t m r) := by
  unfold enterMode
  repeat' split
  all_goals simp [h]

@[simp] theorem upkeep_enterOrKeep (m : Mode) (r : Reason) : Upkeep s (enterOrKeep t m r) := by
  unfold enterOrKeep; split <;> simp [h]

@[simp] theorem upkeep_enterPlan (p : Fin 8) (r : Reason) : Upkeep s (enterPlan t p r) := by
  unfold enterPlan; split
  · exact upkeep_enterDemanded h
  · exact upkeep_engineStart (upkeep_refreshInhibit (upkeep_writeMode h .plan r)) p

@[simp] theorem upkeep_raiseBothInvalid (p f : Fin 8) : Upkeep s (raiseBothInvalid t p f) := by
  unfold raiseBothInvalid; split <;> simp [h]

@[simp] theorem upkeep_planEntry (r : Reason) : Upkeep s (planEntry t r) := by
  unfold planEntry
  dsimp only
  repeat' split
  all_goals simp [h]

@[simp] theorem upkeep_takeExit (r : Reason) : Upkeep s (takeExit t r) := by
  unfold takeExit
  repeat' split
  all_goals simp [h]

@[simp] theorem upkeep_noPlanExit : Upkeep s (noPlanExit t) := by unfold noPlanExit; split <;> simp [h]

@[simp] theorem upkeep_setDeparture (d : Dest) (r : Reason) : Upkeep s (setDeparture t d r) := by
  unfold setDeparture; dsimp only; split <;> simp [h]

@[simp] theorem upkeep_completeDeparture (d : Departure) : Upkeep s (completeDeparture t d) := by
  unfold completeDeparture; dsimp only; split <;> simp [h]

@[simp] theorem upkeep_judgeDeparture : Upkeep s (judgeDeparture t) := by
  unfold judgeDeparture
  repeat' split
  all_goals simp [h]

@[simp] theorem upkeep_takeStartFlashEnd : Upkeep s (takeStartFlashEnd t) := by
  unfold takeStartFlashEnd; split <;> simp [h]

@[simp] theorem upkeep_takeStartRedEnd : Upkeep s (takeStartRedEnd t) := by
  unfold takeStartRedEnd; split <;> simp [h]

@[simp] theorem upkeep_takeProvingTimeout : Upkeep s (takeProvingTimeout t) := by
  unfold takeProvingTimeout; split <;> simp [h]

@[simp] theorem upkeep_takeSilent : Upkeep s (takeSilent t) := by
  have raised := upkeep_setMode (upkeep_takeRaise h .controllerSilent 0 .absent) fun j => { j with silent := true }
  unfold takeSilent
  dsimp only
  repeat' split
  all_goals simp [h, raised]

@[simp] theorem upkeep_heardRequest : Upkeep s (heardRequest t) := by
  unfold heardRequest; dsimp only; split <;> simp [h]

@[simp] theorem upkeep_advanceMode : Upkeep s (advanceMode t) := upkeep_setMode h _

@[simp] theorem upkeep_obeyDemand (old : Demanded) : Upkeep s (obeyDemand t old) := by
  unfold obeyDemand
  dsimp only
  repeat' split
  all_goals simp [h]

@[simp] theorem upkeep_mainsRestart : Upkeep s (mainsRestart t) := by
  unfold mainsRestart
  repeat' split
  all_goals simp [h]

@[simp] theorem upkeep_nameSchedule (m : SchedMode) : Upkeep s (nameSchedule t m) := by
  unfold nameSchedule
  dsimp only
  repeat' split
  all_goals simp [h]

end Modes

/-! ### The hand-overs (R167, R171) -/

section HandOvers

include h

@[simp] theorem upkeep_formInhibit : Upkeep s (formInhibit t) := h.setColl _ (by split <;> rfl)

@[simp] theorem upkeep_handDemand : Upkeep s (handDemand t) := by
  unfold handDemand
  dsimp only
  split
  · exact h
  · exact upkeep_obeyDemand (h.setColl _ rfl) _

@[simp] theorem upkeep_settleOnce : Upkeep s (settleOnce t) :=
  have formed := upkeep_handDemand (upkeep_refreshInhibit (upkeep_formInhibit h))
  upkeep_refreshSub (upkeep_takeStartRedEnd (upkeep_judgeDeparture (upkeep_interstageProgress (upkeep_refreshInhibit formed))))

theorem upkeep_settleN (n : Nat) : Upkeep s (settleN n t) := by
  induction n generalizing t with
  | zero => exact h
  | succ n ih => exact ih (upkeep_settleOnce h)

@[simp] theorem upkeep_handAlarm : Upkeep s (handAlarm t) := h.setColl _ rfl

@[simp] theorem upkeep_settle : Upkeep s (settle t) := by
  unfold settle
  exact upkeep_refreshSummary (upkeep_handAlarm (upkeep_settleN h 4))

@[simp] theorem upkeep_raise (k : Kind) (n : Nat) (d : Detail) : Upkeep s (raise t k n d) := by simp [raise, h]

@[simp] theorem upkeep_clear (k : Kind) (n : Nat) : Upkeep s (clear t k n) := by simp [clear, h]

end HandOvers

end Sys2Proof.Machine

namespace Sys2Proof.Machine

open Sys2Proof

variable {s t : State} (h : Upkeep s t)

/-! ### Lamp proving (R128 to R143) -/

section Proving

include h

@[simp] theorem upkeep_changeLampFault (c : Fin 96) (f : Option LampFault) (d : Detail) : Upkeep s (changeLampFault t c f d) := by
  have noted (f) : Upkeep s (setProv t c fun r => { r with fault := f }) := upkeep_setProv h c _
  unfold changeLampFault
  dsimp only
  repeat' split
  all_goals simp [h, noted]

@[simp] theorem upkeep_changeVerdict (c : Fin 96) (v : Verdict) : Upkeep s (changeVerdict t c v) :=
  upkeep_changeLampFault (upkeep_setProv h c _) c _ _

@[simp] theorem upkeep_takeConfirm (c : Fin 96) : Upkeep s (takeConfirm t c) := by
  unfold takeConfirm; split <;> simp [h]

theorem upkeep_handRed (before : Vector RedStatus 32) (g : Fin 32) : Upkeep s (handRed before t g) := by
  unfold handRed
  dsimp only
  repeat' split
  all_goals simp [h]

@[simp] theorem upkeep_recomputeRed : Upkeep s (recomputeRed t) :=
  upkeep_settle (upkeep_foldl _ (fun _ g => upkeep_handRed .refl _ g) _ (h.prov rfl))

@[simp] theorem upkeep_releaseVerdict (c : Fin 96) : Upkeep s (releaseVerdict t c) := by simp [releaseVerdict, h]

@[simp] theorem upkeep_gapProving : Upkeep s (gapProving t) := h.prov rfl

@[simp] theorem upkeep_unitLeavesProving (v : Fin 12) : Upkeep s (unitLeavesProving t v) :=
  upkeep_recomputeRed (upkeep_foldl _ (fun _ tc => by split <;> simp [Upkeep.refl]) _ (h.prov rfl))

@[simp] theorem upkeep_learnDone (c : Fin 96) : Upkeep s (learnDone t c) :=
  upkeep_setLearn (upkeep_setProv (upkeep_setTables h _) c _) c _ fun _ => id

@[simp] theorem upkeep_takeConverge (c : Fin 96) : Upkeep s (takeConverge t c) := by
  unfold takeConverge
  dsimp only
  repeat' split
  all_goals simp [h, LearnRec.failed]

@[simp] theorem upkeep_takeUnstable (c : Fin 96) : Upkeep s (takeUnstable t c) := by
  unfold takeUnstable; dsimp only; split <;> simp [h, LearnRec.failed]

end Proving

/-- A pair joins the ring, which holds the last eight (R138). -/
theorem ring_push (l : LearnRec) (isum vsup : Nat) (hl : l.ring.length ≤ 8) : (LearnRec.push l isum vsup).ring.length ≤ 8 := by
  simp only [LearnRec.push, List.length_append, List.length_singleton]
  split
  · rw [List.length_tail]; omega
  · omega

section Supervision

include h

@[simp] theorem upkeep_learnWindow (c : Fin 96) (tap : Tap) (isum vsup : Nat) : Upkeep s (learnWindow t c tap isum vsup) := by
  unfold learnWindow
  dsimp only
  split
  · exact upkeep_takeUnstable (upkeep_takeConverge (upkeep_setLearn h c _ fun l => ring_push l isum vsup) c) c
  · exact h

@[simp] theorem upkeep_judgeEligible (f : SenseFrame) (c : Fin 96) (x : Sample) : Upkeep s (judgeEligible t f c x) := by
  unfold judgeEligible
  dsimp only
  refine upkeep_learnWindow ?_ c f.tap x.isum f.vsup
  split
  · exact upkeep_takeConfirm (upkeep_setProv (upkeep_setProv h c _) c _) c
  · exact upkeep_setProv h c _

@[simp] theorem upkeep_proveCircuit (v : Fin 12) (f : SenseFrame) (xs : Vector Sample 8) (cont : Bool) (tc : Fin 8 × Fin 96) :
    Upkeep s (proveCircuit v f xs cont t tc) := by
  unfold proveCircuit; dsimp only; split <;> simp [h]

@[simp] theorem upkeep_proveFrame (v : Fin 12) (f : SenseFrame) (xs : Vector Sample 8) : Upkeep s (proveFrame t v f xs) :=
  upkeep_recomputeRed ((upkeep_foldl _ (fun _ tc => upkeep_proveCircuit .refl v f xs _ tc) _ h).prov rfl)

/-! ### Cable supervision (R148 to R156) -/

@[simp] theorem upkeep_raiseOpen (c : Fin 96) (k : TestClass) : Upkeep s (raiseOpen t c k) :=
  .ite h (upkeep_raise (upkeep_setCable h c _) _ _ _)

@[simp] theorem upkeep_raiseShort (c : Fin 96) (k : TestClass) : Upkeep s (raiseShort t c k) :=
  .ite h (upkeep_raise (upkeep_setCable h c _) _ _ _)

@[simp] theorem upkeep_clearOpen (c : Fin 96) : Upkeep s (clearOpen t c) := .ite (upkeep_clear (upkeep_setCable h c _) _ _) h

@[simp] theorem upkeep_clearShort (c : Fin 96) : Upkeep s (clearShort t c) := .ite (upkeep_clear (upkeep_setCable h c _) _ _) h

@[simp] theorem upkeep_takeCableFault (c : Fin 96) : Upkeep s (takeCableFault t c) := by
  unfold takeCableFault
  split <;> simp [h]

@[simp] theorem upkeep_takeTestResult (c : Fin 96) (residual : Nat) : Upkeep s (takeTestResult t c residual) := by
  have noted := upkeep_setCable h c fun r => { r with sinceTest := 0, lastTest := some (residual, testClass t residual) }
  unfold takeTestResult
  dsimp only
  split
  · exact upkeep_clearShort (upkeep_clearOpen (upkeep_setCable noted c _) c) c
  · exact upkeep_setCable noted c _
  · exact upkeep_takeCableFault (upkeep_setCable noted c _) c

@[simp] theorem upkeep_resolveTest (v : Nat) (xs : Option (Vector Sample 8)) (tc : Fin 8 × Fin 96) : Upkeep s (resolveTest v xs t tc) := by
  unfold resolveTest
  dsimp only
  repeat' split
  all_goals simp [h]

@[simp] theorem upkeep_resolveTests (v : Fin 12) (w : Nat) (xs : Option (Vector Sample 8)) : Upkeep s (resolveTests t v w xs) :=
  upkeep_foldl _ (fun _ tc => upkeep_resolveTest .refl w xs tc) _ h

@[simp] theorem upkeep_unitLeavesCable (v : Fin 12) : Upkeep s (unitLeavesCable t v) := by
  have abandoned : Upkeep s (abandonTests t v) := upkeep_foldl _ (fun _ tc => by simp [Upkeep.refl]) _ h
  simp [unitLeavesCable, abandoned]

@[simp] theorem upkeep_ovcCircuit (xs : Vector Sample 8) (tc : Fin 8 × Fin 96) : Upkeep s (ovcCircuit xs t tc) := by
  have counted (f) : Upkeep s (setCable t tc.2 f) := upkeep_setCable h _ f
  exact .ite (.ite (.ite (upkeep_changeVerdict (upkeep_setCable (counted _) _ _) _ _)
    (upkeep_changeVerdict (upkeep_raise (upkeep_setCable (counted _) _ _) _ _ _) _ _)) h) h

@[simp] theorem upkeep_takeRelease (c : Fin 96) : Upkeep s (takeRelease t c) := by
  unfold takeRelease; split <;> simp [h]

@[simp] theorem upkeep_takeTripClear (c : Fin 96) : Upkeep s (takeTripClear t c) := by
  unfold takeTripClear; split <;> simp [h]

@[simp] theorem upkeep_takeCrossRaise (c : Fin 96) : Upkeep s (takeCrossRaise t c) := by
  unfold takeCrossRaise; split <;> simp [h]

@[simp] theorem upkeep_takeCrossClear (c : Fin 96) : Upkeep s (takeCrossClear t c) := by
  unfold takeCrossClear; split <;> simp [h]

@[simp] theorem upkeep_takeLeakRaise (v : Fin 12) : Upkeep s (takeLeakRaise t v) := by
  unfold takeLeakRaise; split <;> simp [h]

@[simp] theorem upkeep_takeLeakClear (v : Fin 12) : Upkeep s (takeLeakClear t v) := by
  unfold takeLeakClear; split <;> simp [h]

@[simp] theorem upkeep_judgeLeak (v : Fin 12) (f : SenseFrame) : Upkeep s (judgeLeak t v f) :=
  upkeep_takeLeakClear (upkeep_takeLeakRaise (upkeep_setLeak h v _) v) v

@[simp] theorem upkeep_passGreen (v : Fin 12) (w : Nat) (tc : Fin 8 × Fin 96) (lit : Bool) : Upkeep s (passGreen t v w tc lit) := by
  unfold passGreen markSeen
  repeat' split
  all_goals simp [h]

@[simp] theorem upkeep_litCircuit (v : Fin 12) (f : SenseFrame) (xs : Vector Sample 8) (tc : Fin 8 × Fin 96) :
    Upkeep s (litCircuit v f xs t tc) := by
  have counted := upkeep_setCable (upkeep_passGreen h v f.window tc (observedLit t f.vsup xs[tc.1])) tc.2
  exact .ite (upkeep_takeCrossClear (upkeep_takeCrossRaise (counted _) tc.2) tc.2) (.ite (upkeep_setCable h _ _) h)

@[simp] theorem upkeep_superviseFrame (v : Fin 12) (w : Nat) (f : SenseFrame) (xs : Vector Sample 8) :
    Upkeep s (superviseFrame t v w f xs) :=
  upkeep_recomputeRed (upkeep_judgeLeak (upkeep_foldl _ (fun _ tc => upkeep_litCircuit .refl v f xs tc) _
    (upkeep_foldl _ (fun _ tc => upkeep_ovcCircuit .refl xs tc) _ (upkeep_resolveTests h v w _))) v f)

@[simp] theorem upkeep_cablePulse : Upkeep s (cablePulse t) :=
  upkeep_foldl _ (fun _ c => upkeep_takeTripClear .refl c) _
    (upkeep_cable (upkeep_foldl _ (fun _ c => upkeep_takeRelease .refl c) _ h) _)

/-! ### Inputs and holds (R48 to R53, R65) -/

@[simp] theorem upkeep_resyncIfReleased (u : State) : Upkeep s (resyncIfReleased u t) := by
  unfold resyncIfReleased; split <;> simp [h]

@[simp] theorem upkeep_inputOff (e : Fin 64) : Upkeep s (inputOff t e) := by
  unfold inputOff
  dsimp only
  refine upkeep_resyncIfReleased ?_ t
  split <;> simp [h]

@[simp] theorem upkeep_inputOn (e : Fin 64) : Upkeep s (inputOn t e) := .ite (h.quiet rfl) (upkeep_setInput h e _)

@[simp] theorem upkeep_takeInputChange (e : Fin 64) : Upkeep s (takeInputChange t e) :=
  .ite (.ite (upkeep_inputOff h e) (upkeep_inputOn h e)) h

@[simp] theorem upkeep_readInput (e : Fin 64) (reading : Bool) : Upkeep s (readInput t e reading) := by
  unfold readInput; split <;> simp [h]

@[simp] theorem upkeep_takeStuck (e : Fin 64) : Upkeep s (takeStuck t e) := by unfold takeStuck; split <;> simp [h]

@[simp] theorem upkeep_stuckPulse : Upkeep s (stuckPulse t) := upkeep_foldl _ (fun _ e => upkeep_takeStuck .refl e) _ h

@[simp] theorem upkeep_dropInputs (v : Fin 12) : Upkeep s (dropInputs t v) :=
  upkeep_foldl _ (fun _ e => by split <;> simp [Upkeep.refl]) _ h

@[simp] theorem upkeep_takeInputs (v : Fin 12) (f : SenseFrame) : Upkeep s (takeInputs t v f) :=
  upkeep_settle (upkeep_foldl _ (fun _ e => by split <;> simp [Upkeep.refl]) _ h)

@[simp] theorem upkeep_setHold (x : Option HoldMode) : Upkeep s (setHold t x) := by simp [setHold, h]

end Supervision

/-! ### The field bus (R109 to R122) -/

/-- A record joins the log, which holds the last four (R114). -/
theorem joinLog_length (l : List WinRec) (r : WinRec) (hl : l.length ≤ 4) : (joinLog l r).length ≤ 4 := by
  unfold joinLog
  split
  · rw [List.length_append, List.length_singleton]; omega
  · rw [List.length_append, List.length_tail, List.length_singleton]; omega

section Bus

include h

@[simp] theorem upkeep_leaveAdmitted (v : Fin 12) : Upkeep s (leaveAdmitted t v) := by
  have emptied := upkeep_setUnit h v (fun x => { x with miss := 0, hotRun := 0, hotQuiet := 0, log := [] }) fun _ _ => Nat.zero_le 4
  exact upkeep_unitLeavesProving (upkeep_unitLeavesCable (upkeep_settle (upkeep_dropInputs emptied v)) v) v

@[simp] theorem upkeep_takeLost (v : Fin 12) : Upkeep s (takeLost t v) := by
  have lost := upkeep_setUnit h v (fun x => { x with state := .lost, lostRaised := true }) fun _ => id
  exact .ite (upkeep_leaveAdmitted (.ite lost (upkeep_raise lost _ _ _)) v) h

@[simp] theorem upkeep_takeMiss (v : Fin 12) : Upkeep s (takeMiss t v) := by
  have resolved := upkeep_resolveTests (upkeep_between h) v (lastWindowNo t) none
  have counted := upkeep_setUnit resolved v (fun x => { x with miss := bump 10 x.miss }) fun _ => id
  exact .ite (upkeep_takeLost counted v) resolved

@[simp] theorem upkeep_compose (v : Fin 12) : Upkeep s (compose t v) := by
  unfold compose
  dsimp only
  refine upkeep_sendBus (upkeep_setUnit ?_ v _ fun x => joinLog_length x.log _) _
  split <;> simp [h]

@[simp] theorem upkeep_passStep : Upkeep s (passStep t) := by
  unfold passStep
  repeat' split
  · exact upkeep_sendBus (h.setBus _ rfl rfl rfl) _
  · exact h.setBus _ rfl rfl rfl
  all_goals exact h

@[simp] theorem upkeep_rollStep : Upkeep s (rollStep t) := by
  unfold rollStep
  split <;> simp [h]

@[simp] theorem upkeep_goRound : Upkeep s (goRound t) := by
  unfold goRound
  dsimp only
  repeat' split
  all_goals simp [h]

@[simp] theorem upkeep_judgeDim (v : Fin 12) : Upkeep s (judgeDim t v) := by
  unfold judgeDim
  dsimp only
  repeat' split
  all_goals simp [h]

@[simp] theorem upkeep_takeRollRound : Upkeep s (takeRollRound t) := by
  unfold takeRollRound
  split
  · exact h.setBus _ rfl rfl rfl
  · exact h

@[simp] theorem upkeep_beginRound : Upkeep s (beginRound t) := by
  have judged : Upkeep s ((idx 12).foldl judgeDim t) := upkeep_foldl _ (fun _ v => upkeep_judgeDim .refl v) _ h
  unfold beginRound
  dsimp only
  generalize (idx 12).foldl judgeDim t = j at judged ⊢
  split
  · exact upkeep_goRound (upkeep_takeRollRound (judged.setBus _ rfl rfl rfl))
  · exact h

@[simp] theorem upkeep_exchangeOver : Upkeep s (exchangeOver t) := by simp [exchangeOver, h]

@[simp] theorem upkeep_senseMissed (v : Fin 12) : Upkeep s (senseMissed t v) := by
  unfold senseMissed; split <;> simp [h]

@[simp] theorem upkeep_callOver : Upkeep s (callOver t) := by simp [callOver, h]

@[simp] theorem upkeep_identTimedOut (v : Fin 12) : Upkeep s (identTimedOut t v) := by
  unfold identTimedOut; split <;> simp [h]

@[simp] theorem upkeep_closeRound : Upkeep s (closeRound t) := by
  have missed (t : State) : Upkeep t (missOutstanding t) := by unfold missOutstanding; split <;> simp [Upkeep.refl]
  have out (t : State) : Upkeep t (timeoutOutstanding t) := by unfold timeoutOutstanding; split <;> simp [Upkeep.refl]
  have done := upkeep_times 12 _ out (upkeep_times 12 _ missed h)
  unfold closeRound
  dsimp only
  generalize times 12 timeoutOutstanding _ = r at done ⊢
  exact done.setBus _ rfl rfl rfl

@[simp] theorem upkeep_takeHotRaise (v : Fin 12) : Upkeep s (takeHotRaise t v) := by
  unfold takeHotRaise; split <;> simp [h]

@[simp] theorem upkeep_takeHotClear (v : Fin 12) : Upkeep s (takeHotClear t v) := by
  unfold takeHotClear; split <;> simp [h]

@[simp] theorem upkeep_takeFlags (v : Fin 12) (f : SenseFrame) : Upkeep s (takeFlags t v f) := by
  refine upkeep_takeHotClear (upkeep_takeHotRaise (upkeep_setUnit h v _ fun x hx => ?_) v) v
  unfold countHot
  split <;> exact hx

/-- A report joins the queue where it holds fewer than sixteen, and is counted as dropped otherwise (R121). -/
@[simp] theorem upkeep_queueReport (r : Report) : Upkeep s (queueReport t r) := by
  unfold queueReport
  split
  next room =>
    refine h.step id (fun ⟨logs, _, _, rings⟩ => ⟨logs, ?_, Nat.zero_le _, rings⟩) ⟨rfl, rfl⟩
    rw [setBus_bus, List.length_append, List.length_singleton]
    omega
  next => exact h.step id (fun ⟨logs, queue, _, rings⟩ => ⟨logs, queue, Nat.min_le_left _ _, rings⟩) ⟨rfl, rfl⟩

@[simp] theorem upkeep_forward (v : Fin 12) (f : SenseFrame) : Upkeep s (forward t v f) := by
  unfold forward; split <;> simp [h]

@[simp] theorem upkeep_clearLost (v : Fin 12) (raised : Bool) : Upkeep s (clearLost t v raised) := by
  unfold clearLost; split <;> simp [h]

@[simp] theorem upkeep_clearMismatch (v : Fin 12) (raised : Bool) : Upkeep s (clearMismatch t v raised) := by
  unfold clearMismatch; split <;> simp [h]

@[simp] theorem upkeep_takeIdent (v : Fin 12) (f : IdentFrame) : Upkeep s (takeIdent t v f) := by
  have found (g) (hg : ∀ x : UnitRec, x.log.length ≤ 4 → (g x).log.length ≤ 4) : Upkeep s (setUnit (between t) v g) :=
    upkeep_setUnit (upkeep_between h) v g hg
  have mismatch := found (fun x => { x with state := .mismatch, typeCode := some f.typeCode, serial := some f.serial
                                            mismatchRaised := true, lostRaised := false }) fun _ => id
  refine .ite (upkeep_clearMismatch (upkeep_clearLost (found (admitRec · f) fun _ _ => Nat.zero_le 4) v _) v _)
    (.ite (found _ fun _ => id) (upkeep_clearLost (.ite mismatch (upkeep_raise mismatch _ _ _)) v _))

@[simp] theorem upkeep_identArrives (f : IdentFrame) : Upkeep s (identArrives t f) := by
  unfold identArrives
  split
  · exact upkeep_callOver (.ite (upkeep_takeIdent h _ f) h)
  · exact h

@[simp] theorem upkeep_passArrives (f : PassFrame) : Upkeep s (passArrives t f) := by
  unfold passArrives
  repeat' split
  · exact h.setBus _ rfl rfl rfl
  all_goals exact h

@[simp] theorem upkeep_intake (v : Fin 12) (f : SenseFrame) : Upkeep s (intake t v f) := by
  refine .ite (upkeep_resolveTests h v _ none) (upkeep_forward (upkeep_takeInputs (upkeep_takeFlags ?_ v f) v f) v f)
  exact upkeep_superviseFrame (upkeep_proveFrame h v f _) v _ f _

@[simp] theorem upkeep_takeValid (v : Fin 12) (f : SenseFrame) : Upkeep s (takeValid t v f) := by
  have marked := upkeep_moment h (frameMoment t v f)
  refine upkeep_intake ?_ v f
  exact .ite (upkeep_setUnit marked v _ fun _ => id) marked

@[simp] theorem upkeep_senseArrives (f : SenseFrame) : Upkeep s (senseArrives t f) := by
  unfold senseArrives
  split
  · exact upkeep_exchangeOver (.ite (upkeep_takeValid h _ f) (upkeep_takeMiss h _))
  · exact h

end Bus

/-! ### The clock, the pulse and the windows (R94 to R103) -/

section Clock

include h

@[simp] theorem upkeep_handPlan (always : Bool) : Upkeep s (handPlan always t) := by
  exact .ite (upkeep_noPlanExit (upkeep_nameGoverning (upkeep_sched h _) _)) h

@[simp] theorem upkeep_handDim : Upkeep s (handDim t) := h.quiet rfl

@[simp] theorem upkeep_formResults (always : Bool) : Upkeep s (formResults always t) := by
  refine upkeep_handDim (upkeep_handPlan (.ite ?_ (upkeep_sched h _)) always)
  exact upkeep_settle (upkeep_nameSchedule (upkeep_sched h _) _)

@[simp] theorem upkeep_evaluate : Upkeep s (evaluate t) := upkeep_formResults h false

@[simp] theorem upkeep_takeMidnight : Upkeep s (takeMidnight t) := by
  unfold takeMidnight reportRollover
  repeat' split
  all_goals simp [h]

@[simp] theorem upkeep_advanceClock (n : Nat) : Upkeep s (advanceClock t n) := by
  have moved := upkeep_takeMidnight (upkeep_setClock (upkeep_between h) fun c => { c with ms := c.ms + n })
  exact .ite (upkeep_evaluate moved) moved

@[simp] theorem upkeep_takeCrystalMs : Upkeep s (takeCrystalMs t) := by
  unfold takeCrystalMs; dsimp only; split <;> simp [h]

@[simp] theorem upkeep_windowClock : Upkeep s (windowClock t) := by
  exact .ite (upkeep_advanceClock (.ite (upkeep_setClock h _) h) _) h

@[simp] theorem upkeep_takeSetTime (weekday ms : Nat) : Upkeep s (takeSetTime t weekday ms) := by
  have set := upkeep_setClock h fun c => { c with weekday := weekday, ms := ms, unset := false }
  exact upkeep_evaluate (.ite set (.ite (upkeep_setEng set _) (.ite (upkeep_setEng set _) set)))

theorem upkeep_takeTimedEnd (g : Fin 32) : Upkeep s (takeTimedEnd t g) := by
  unfold takeTimedEnd takeClearanceStart takeAmberEnd takeClearanceEnd takeRedAmberEnd
  repeat' split
  all_goals simp [h]

theorem upkeep_judgeRelease (g : Fin 32) : Upkeep s (judgeRelease t g) := by
  unfold judgeRelease; split <;> simp [h]

@[simp] theorem upkeep_monitorPulse : Upkeep s (monitorPulse t) :=
  upkeep_settle (upkeep_foldl _ (fun _ g => upkeep_judgeRelease .refl g) _
    (upkeep_settle (upkeep_foldl _ (fun _ g => upkeep_takeTimedEnd .refl g) _ h)))

@[simp] theorem upkeep_modePulse : Upkeep s (modePulse t) := by
  have flashed := upkeep_settle (upkeep_takeStartFlashEnd h)
  exact upkeep_settle (upkeep_takeSilent (upkeep_settle (upkeep_takeProvingTimeout (upkeep_takeStartRedEnd flashed))))

@[simp] theorem upkeep_advanceTimers : Upkeep s (advanceTimers t) := by
  have groups : Upkeep s (advanceRuns (advanceGroups t)) := h.quiet rfl
  have mode := upkeep_advanceMode groups
  have engine : Upkeep s (advanceEngine (advanceMode (advanceRuns (advanceGroups t)))) := .ite (upkeep_setEng mode _) mode
  exact engine.quiet rfl

@[simp] theorem upkeep_pulse : Upkeep s (pulse t) := by
  have inputs := upkeep_stuckPulse (upkeep_cablePulse (upkeep_advanceTimers h))
  have run := upkeep_settle (upkeep_enginePulse (upkeep_monitorPulse (upkeep_modePulse inputs)) (stageRan t))
  unfold pulse
  dsimp only
  generalize settle _ = r at run ⊢
  exact run.quiet rfl

@[simp] theorem upkeep_countAfterGap : Upkeep s (countAfterGap t) := by
  have counted := upkeep_setMains h fun m => { m with sinceGap := m.sinceGap.map (bump 50) }
  exact .ite (upkeep_clear (upkeep_setMains counted _) _ _) counted

@[simp] theorem upkeep_takeGreenRaise (g : Fin 32) : Upkeep s (takeGreenRaise t g) := by
  unfold takeGreenRaise; split <;> simp [h]

@[simp] theorem upkeep_takeGreenClear (g : Fin 32) : Upkeep s (takeGreenClear t g) := by
  unfold takeGreenClear; split <;> simp [h]

theorem upkeep_greenGroup (g : Fin 32) : Upkeep s (greenGroup t g) := by
  exact .ite (upkeep_takeGreenClear (upkeep_takeGreenRaise (upkeep_setGroup h g _) g) g) h

@[simp] theorem upkeep_countWindow : Upkeep s (countWindow t) := by
  exact .ite (upkeep_moment (upkeep_pulse (upkeep_setMains h _)) _) (upkeep_moment (upkeep_setMains h _) _)

@[simp] theorem upkeep_windowStart (now : Nat) (gapBegin counted : Bool) : Upkeep s (windowStart t now gapBegin counted) := by
  have closed : Upkeep s (setMains (closeRound t) fun m => { m with lastWindow := some now }) := by simp [h]
  unfold windowStart
  dsimp only
  refine upkeep_beginRound (upkeep_countWindow (upkeep_foldl _ (fun _ g => upkeep_greenGroup .refl g) _ ?_))
  have clocked := upkeep_windowClock (closed.setBus (fun b : Bus =>
    { b with seq := nextWin b.seq, lastInGap := b.windowInGap || gapBegin
             windowInGap := (setMains (closeRound t) fun m => { m with lastWindow := some now }).mains.gap }) rfl rfl rfl)
  split
  · exact upkeep_countAfterGap clocked
  · exact clocked

@[simp] theorem upkeep_substituteStart : Upkeep s (substituteStart t) := by
  exact .ite (upkeep_windowStart (.ite (upkeep_setMains h _) h) _ _ _) h

@[simp] theorem upkeep_takeFreqRaise : Upkeep s (takeFreqRaise t) := by unfold takeFreqRaise; split <;> simp [h]

@[simp] theorem upkeep_takeFreqClear : Upkeep s (takeFreqClear t) := by unfold takeFreqClear; split <;> simp [h]

@[simp] theorem upkeep_plainEdge (period : Nat) : Upkeep s (plainEdge t period) := by
  have edged := upkeep_setMains h fun m => { m with lastEdge := t.mains.lastEdge + period }
  have counted : Upkeep s (countPeriod (setMains t fun m => { m with lastEdge := t.mains.lastEdge + period }) period) :=
    .ite (upkeep_setMains edged _) (upkeep_setMains edged _)
  unfold plainEdge
  dsimp only
  repeat' split
  all_goals simp [counted]

theorem upkeep_clearMisses : Upkeep s (clearMisses t) := by
  refine h.quiet ?_
  simp only [books, clearMisses, setBus_bus, getElem_tab]
  rfl

@[simp] theorem upkeep_handGapEnd (long : Bool) : Upkeep s (handGapEnd t long) := by
  refine upkeep_gapProving (upkeep_clearMisses (upkeep_settle ?_))
  split <;> simp [h]

@[simp] theorem upkeep_gapEndEdge (period : Nat) : Upkeep s (gapEndEdge t period) := by
  have ended := upkeep_handGapEnd (upkeep_setMains h fun m =>
    { m with gap := false, lastEdge := t.mains.lastEdge + period, sinceGap := some 0
             timebase := if m.freqRaised then .substitute else .locked }) (longGap t period)
  unfold gapEndEdge
  dsimp only
  generalize handGapEnd _ _ = r at ended ⊢
  exact .ite (upkeep_windowStart ended _ _ _) ended

@[simp] theorem upkeep_takeEdge (period : Nat) : Upkeep s (takeEdge t period) :=
  .ite (upkeep_gapEndEdge (upkeep_between h) period) (upkeep_plainEdge (upkeep_between h) period)

@[simp] theorem upkeep_gapBegins : Upkeep s (gapBegins t) := by
  have begun := upkeep_gapProving (upkeep_setMains h fun m => { m with gap := true, sinceGap := none })
  exact .ite h (.ite (upkeep_windowStart (upkeep_setMains begun _) _ _ _) begun)

@[simp] theorem upkeep_takeInterruption : Upkeep s (takeInterruption t) := by
  unfold takeInterruption; split <;> simp [h]

end Clock

end Sys2Proof.Machine

namespace Sys2Proof.Machine

open Sys2Proof

variable {s t : State} (h : Upkeep s t)

/-! ### The table requests (R174 to R176) -/

section TableRequests

include h

theorem upkeep_checked (checks : List (Bool × Result)) {a : Answer} (ha : Upkeep s a.state) : Upkeep s (checked checks t a).state := by
  unfold checked
  split
  · exact h
  · exact ha

/-- A request that passes its checks answers with its work's state. -/
theorem upkeep_passed (checks : List (Bool × Result)) {u : State} {r : Result} {d : ReplyData} (hu : Upkeep s u) :
    Upkeep s (checked checks t ⟨u, r, d⟩).state := upkeep_checked h checks hu

theorem upkeep_done : Upkeep s (done t).state := h

@[simp] theorem upkeep_setPlan (p : Fin 8) (f : Plan → Plan) : Upkeep s (setPlan t p f) := upkeep_setTables h _

theorem upkeep_takeStartUp (e : StartUp) : Upkeep s (takeStartUp t e) := by
  have written := upkeep_setTables h fun t => { t with startUp := e }
  exact upkeep_formResults (upkeep_refreshInvalid (upkeep_restartJunctionRun (.ite written (upkeep_setMains written _)))) false

theorem upkeep_writeStartUp (a : TableArgs) (es : List StartUp) : Upkeep s (writeStartUp a es t).state := by
  refine upkeep_checked h _ ?_
  dsimp only
  split
  · exact upkeep_takeStartUp h _
  · exact h

theorem upkeep_writePlan (p : Nat) (a : TableArgs) (es : List (List Byte)) : Upkeep s (writePlan p a es t).state := by
  unfold writePlan
  dsimp only
  split
  · exact upkeep_checked h _ (upkeep_setPlan h _ _)
  · exact h

theorem upkeep_writeProving (a : TableArgs) (es : List ProvingParams) : Upkeep s (writeProving a es t).state := by
  refine upkeep_checked h _ ?_
  dsimp only
  split <;> simp [h]

theorem upkeep_writeCable (a : TableArgs) (es : List CableParams) : Upkeep s (writeCable a es t).state := by
  refine upkeep_checked h _ ?_
  dsimp only
  split <;> simp [h]

@[simp] theorem upkeep_abortLearn (c : Fin 96) : Upkeep s (setLearn t c LearnRec.aborted) :=
  upkeep_setLearn h c _ fun _ _ => Nat.zero_le _

theorem upkeep_referenceWritten (c : Fin 96) : Upkeep s (referenceWritten t c) := by
  unfold referenceWritten; dsimp only; split <;> simp [h]

theorem upkeep_writeReference (a : TableArgs) (es : List RefEntry) : Upkeep s (writeReference a es t).state :=
  upkeep_checked h _ (upkeep_foldl _ (fun _ c => upkeep_referenceWritten .refl c) _ (upkeep_setTables h _))

theorem upkeep_writeLive (id : Nat) (a : TableArgs) (entries : Nat) : Upkeep s (writeLive id a entries t).state := by
  unfold writeLive; split <;> exact h

theorem upkeep_takeRead (id : Nat) (a : TableArgs) : Upkeep s (takeRead id a t).state := by
  unfold takeRead
  split
  · exact upkeep_checked h _ h
  · exact h

end TableRequests

/-! ### Configuration, restart and START (R77, R177, R179) -/

/-- A field bus of restarted units holds no log (R122), and learning aborted no ring (R140). -/
theorem withinCapacity_restarted (hc : WithinCapacity s) {f : Fin 12 → UnitRec} (units : t.bus.units = tab f)
    (logs : ∀ v, (f v).log = []) (queue : t.bus.queue.length ≤ s.bus.queue.length) (dropped : t.bus.dropped ≤ s.bus.dropped)
    (prov : t.prov = restartProving s.prov) : WithinCapacity t := by
  obtain ⟨-, queue', dropped', -⟩ := hc
  refine ⟨fun v => ?_, queue.trans queue', dropped.trans dropped', fun c => ?_⟩
  · rw [units, getElem_tab, logs]; exact Nat.zero_le _
  · simp only [prov, restartProving, abortLearning, getElem_tab]; exact Nat.zero_le _

section Configuring

include h

theorem upkeep_clearIf {b : Bool} {k : Kind} {n : Nat} : Upkeep s (if b = true then takeClear t k n else t) := by
  split <;> simp [h]

theorem upkeep_clearUnitFaults (v : Fin 12) : Upkeep s (clearUnitFaults t v) :=
  upkeep_clearIf (upkeep_clearIf (upkeep_clearIf (upkeep_clearIf h)))

theorem upkeep_clearCircuitFaults (c : Fin 96) : Upkeep s (clearCircuitFaults t c) := by
  refine upkeep_clearIf (upkeep_clearIf (upkeep_clearIf (upkeep_clearIf ?_)))
  split <;> simp [h]

theorem upkeep_clearRedFault (g : Fin 32) : Upkeep s (clearRedFault t g) := by
  unfold clearRedFault; split <;> simp [h]

theorem upkeep_clearConditions : Upkeep s (clearConditions t) :=
  upkeep_foldl _ (fun _ _ => upkeep_clearIf .refl) _ (upkeep_foldl _ (fun _ _ => upkeep_clearIf .refl) _
    (upkeep_foldl _ (fun _ g => upkeep_clearRedFault .refl g) _ (upkeep_foldl _ (fun _ c => upkeep_clearCircuitFaults .refl c) _
      (upkeep_foldl _ (fun _ v => upkeep_clearUnitFaults .refl v) _ h))))

theorem upkeep_clearInputs : Upkeep s (clearInputs t) := h.quiet rfl

theorem upkeep_takeConfigOpen : Upkeep s (takeConfigOpen t) := by
  have cleared : Upkeep s (formInhibit (clearInputs (clearConditions t))) :=
    upkeep_formInhibit (upkeep_clearInputs (upkeep_clearConditions h))
  unfold takeConfigOpen
  dsimp only
  generalize formInhibit (clearInputs (clearConditions t)) = u at cleared ⊢
  exact cleared.step id (fun hc => withinCapacity_restarted hc rfl (fun _ => rfl) le_rfl le_rfl rfl) ⟨rfl, rfl⟩

theorem upkeep_raiseMainsAgain : Upkeep s (raiseMainsAgain t) := by
  unfold raiseMainsAgain
  dsimp only
  repeat' split
  all_goals simp [h]

theorem upkeep_takeEngineRestart : Upkeep s (takeEngineRestart t) := by
  have dark : Upkeep s (handAll (engineIdle (setMode t (restartMode (!t.inPulse)))) .dark) :=
    upkeep_handAll (upkeep_engineIdle (upkeep_setMode h _)) _
  unfold takeEngineRestart
  dsimp only
  refine upkeep_raiseMainsAgain ?_
  generalize handAll _ .dark = u at dark ⊢
  refine dark.step (fun _ i _ a _ ha => ?_)
    (fun hc => withinCapacity_restarted hc rfl (fun _ => rfl) (Nat.zero_le _) (Nat.zero_le _) rfl) ⟨rfl, rfl⟩
  simp only [Fin.getElem_fin, Vector.getElem_replicate] at ha
  cases ha

theorem upkeep_dropGreen (g : Fin 32) : Upkeep s (dropGreen t g) := by
  unfold dropGreen; split <;> simp [h]

theorem upkeep_expectUnits : Upkeep s (expectUnits t) := by
  refine h.quiet ?_
  simp only [books, expectUnits, setBus_bus, getElem_tab]
  rfl

theorem upkeep_acceptStart : Upkeep s (acceptStart t) := by
  have dropped (u : State) (hu : Upkeep s u) : Upkeep s ((idx 32).foldl dropGreen u) :=
    upkeep_foldl _ (fun _ g => upkeep_dropGreen .refl g) _ hu
  unfold acceptStart
  refine upkeep_enterMode (upkeep_formResults (upkeep_cable (upkeep_expectUnits (upkeep_setMode (dropped _ ?_) _)) _) true) _ _
  exact h.quiet rfl

theorem upkeep_startReq : Upkeep s (startReq t).state := by
  have validated : Upkeep s (refreshInvalid (validateAll t)) := upkeep_refreshInvalid (upkeep_setTables h _)
  refine upkeep_checked h _ ?_
  unfold startValidated
  dsimp only
  split
  · exact upkeep_acceptStart validated
  · exact validated

end Configuring

/-! ### The other requests (R34 to R181) -/

section Requests

include h

theorem upkeep_planBecameValid (p : Fin 8) : Upkeep s (planBecameValid t p) := by
  have renewed := upkeep_refreshInvalid h
  have dealt : Upkeep s (if (refreshInvalid t).eng.running.isSome && decide ((refreshInvalid t).eng.governing = p)
      then dealGoverning (refreshInvalid t) p else refreshInvalid t) := .ite (upkeep_dealGoverning renewed p) renewed
  exact .ite (upkeep_noPlanExit dealt) dealt

theorem upkeep_validatePlanReq (p : Nat) : Upkeep s (validatePlanReq p t).state := by
  unfold validatePlanReq
  repeat' split
  · exact h
  · refine upkeep_checked h _ ?_
    unfold validateOne
    dsimp only
    repeat' split
    · exact h
    · exact upkeep_planBecameValid (upkeep_setPlan h _ _) _
    · exact upkeep_setPlan h _ _
  · exact h

theorem upkeep_selectPlanReq (p : Nat) : Upkeep s (selectPlanReq p t).state := by
  unfold selectPlanReq
  split
  · exact upkeep_handPlan (upkeep_sched h _) false
  · exact h

theorem upkeep_programIdentityReq (bytes : List Byte) : Upkeep s (programIdentityReq bytes t).state := by
  refine upkeep_checked h _ ?_
  split
  · exact Upkeep.setPort h (fun p => { p with identity := _ }) rfl rfl
  · exact h

theorem upkeep_holdReq (mode : Nat) : Upkeep s (holdReq mode t).state := by
  unfold holdReq
  split
  · exact upkeep_checked h _ (upkeep_setHold h _)
  · exact h

theorem upkeep_stepTo (r : StepReq) : Upkeep s (stepTo t r).state := by
  unfold stepTo
  split
  · split <;> exact upkeep_passed h _ ((upkeep_setEng h _))
  · exact h

theorem upkeep_stepRequest (x : StepTarget) : Upkeep s (stepRequest x t).state := by
  unfold stepRequest
  repeat' split
  · exact upkeep_stepTo h _
  · exact upkeep_stepTo h _
  · exact h

theorem upkeep_setDimReq (code : Nat) : Upkeep s (setDimReq code t).state := by
  unfold setDimReq
  split
  · exact upkeep_handDim (upkeep_sched h _)
  · exact h

theorem upkeep_trimReq (x : Int) (source : Nat) : Upkeep s (trimReq x source t).state := by
  unfold trimReq
  split
  · exact upkeep_setClock h fun c => { c with trim := clampTrim x, preferred := _ }
  · exact h

theorem upkeep_learnReq (cs : CircuitList) (tap nMin nMax : Nat) : Upkeep s (learnReq cs tap nMin nMax t).state := by
  refine upkeep_checked h _ ?_
  split
  · exact upkeep_foldl _ (fun _ c => upkeep_setLearn .refl c _ fun _ _ => Nat.zero_le _) _ h
  · exact h

theorem upkeep_learnCancelReq (cs : CircuitList) : Upkeep s (learnCancelReq cs t).state :=
  upkeep_checked h _ (upkeep_foldl _ (fun _ c => by unfold cancelLearning; split <;> simp [Upkeep.refl]) _ h)

theorem upkeep_ackFaultReq (a : AckArg) : Upkeep s (ackFaultReq a t).state := by
  unfold ackFaultReq
  repeat' split
  · exact h
  · exact upkeep_done (upkeep_foldl _ (fun _ i => upkeep_ackSlot .refl i) _ h)
  · refine upkeep_checked h _ (upkeep_done ?_)
    unfold ackOne
    split
    · exact upkeep_ackSlot h _
    · exact h
  · exact h

theorem upkeep_clearLatchReq (c : Nat) : Upkeep s (clearLatchReq c t).state := by
  unfold clearLatchReq
  split
  · exact upkeep_passed h _ ((upkeep_releaseVerdict (upkeep_clear (upkeep_setCable h _ _) _ _) _))
  · exact h

theorem upkeep_passReq (tag : Byte) (unit : Nat) (kind : Byte) (payload : List Byte) : Upkeep s (passReq tag unit kind payload t).state := by
  unfold passReq
  repeat' split
  · exact h
  · exact upkeep_passed h _ ((h.setBus (fun b => { b with slot := _ }) rfl rfl rfl))
  · exact h

theorem upkeep_takeStop (m : Mode) (d : Dest) (orderly : Bool) : Upkeep s (takeStop t m d orderly) := by
  unfold takeStop
  repeat' split
  all_goals simp [h]

theorem upkeep_directTargetReq (es : List (Nat × Nat)) : Upkeep s (directTargetReq es t).state := by
  refine upkeep_checked h _ ?_
  unfold takeTargets
  split
  · exact h
  · exact upkeep_foldl _ (fun (u : State) (e : Fin 32 × Target) => upkeep_handTarget .refl e.1 e.2) _ h

theorem upkeep_directExitReq : Upkeep s (directExitReq t).state := by
  refine upkeep_checked h _ ?_
  unfold done
  dsimp only
  split <;> simp [h]

@[simp] theorem upkeep_received : Upkeep s (received t) :=
  upkeep_settle (upkeep_heardRequest ((upkeep_between h).setPort _ rfl rfl))

@[simp] theorem upkeep_answerBusy (kind tag : Byte) : Upkeep s (answerBusy t kind tag) := by
  unfold answerBusy
  split
  · exact h
  · exact h.setPort _ rfl rfl

omit h in
theorem upkeep_answer (kind tag : Byte) {a : Answer} (ha : Upkeep s a.state) : Upkeep s (answer kind tag a) := by
  have settled := upkeep_settle ha
  unfold answer
  dsimp only
  generalize settle a.state = u at settled ⊢
  exact settled.setPort _ rfl rfl

@[simp] theorem upkeep_endFrame : Upkeep s (endFrame t) := by
  unfold endFrame frameDone
  repeat' split
  all_goals exact h.quiet rfl

theorem upkeep_takePatternStep (r : RunName) : Upkeep s (takePatternStep t r) := by
  unfold takePatternStep
  repeat' split
  all_goals exact h.quiet rfl

theorem upkeep_takeMinimumEnd : Upkeep s (takeMinimumEnd t) := by
  unfold takeMinimumEnd
  repeat' split
  all_goals simp [h]

@[simp] theorem upkeep_endRunning : Upkeep s (endRunning t) := by unfold endRunning; split <;> simp [h]

theorem upkeep_takeForceOff : Upkeep s (takeForceOff t) := by
  unfold takeForceOff
  dsimp only
  repeat' split
  all_goals simp [h]

end Requests

/-! ## The transmitter's choice (R173) -/

/-- What the transmitter takes leaves the fault table, the summary and all that it is formed from; what it takes of the report queue is its oldest;
and an ALERT it takes is being sent. -/
structure Chosen (s t : State) : Prop where
  coll : t.coll = s.coll
  prov : t.prov = s.prov
  units : t.bus.units = s.bus.units
  dropped : t.bus.dropped = s.bus.dropped
  queue : t.bus.queue.length ≤ s.bus.queue.length
  summary : t.port.summary = s.port.summary
  formed : summaryNow t = summaryNow s
  alert : s.port.alert ≠ none → t.port.alert ≠ none ∨ ∃ a : Alert, t.port.tx = some (.alert a)

theorem chosen_kick (s : State) : Chosen s (kick s) := by
  have same : Chosen s s := ⟨rfl, rfl, rfl, rfl, le_rfl, rfl, rfl, .inl⟩
  unfold kick
  split
  next =>
    unfold takeFrame
    split
    next => exact ⟨rfl, rfl, rfl, rfl, le_rfl, rfl, rfl, .inl⟩
    next =>
      split
      next a _ => exact ⟨rfl, rfl, rfl, rfl, le_rfl, rfl, rfl, fun _ => .inr ⟨a, rfl⟩⟩
      next =>
        split
        next => exact ⟨rfl, rfl, rfl, rfl, le_rfl, rfl, rfl, .inl⟩
        all_goals
          split
          next r rest hq => exact ⟨rfl, rfl, rfl, rfl, by simp [hq], rfl, rfl, .inl⟩
          next => exact same
  next => exact same

theorem Chosen.inPulse (h : Chosen s t) (b : Bool) : Chosen s { t with inPulse := b } :=
  ⟨h.coll, h.prov, h.units, h.dropped, h.queue, h.summary, h.formed, h.alert⟩

/-! ## What a command makes of a state -/

/-- What a command other than POWER_ON_RESET makes of a state: nothing, or work that is finished with its hand-overs and the transmitter's choice. -/
inductive Finished (s : State) : State → Prop where
  | idle : Finished s s
  | work {u t : State} (work : Upkeep s u) (choice : Chosen (settle u) t) : Finished s t

theorem Finished.finish (h : Upkeep s t) : Finished s (finish t) := .work h (chosen_kick _)

theorem Finished.pulsed (b : Bool) (h : Upkeep s t) : Finished s { Machine.finish t with inPulse := b } :=
  .work h ((chosen_kick _).inPulse b)

theorem finished_serve (kind tag : Byte) {body : State → Answer} (hb : ∀ u, Upkeep u (body u).state) :
    Finished s (serve kind tag body s) := by
  have heard : Upkeep s (received s) := upkeep_received .refl
  unfold serve
  dsimp only
  generalize received s = r at heard ⊢
  split
  · exact .finish (upkeep_answerBusy heard kind tag)
  · exact .finish (upkeep_answer kind tag ((heard.setPort (fun p => { p with inService := some (kind, tag) }) rfl rfl).trans (hb _)))

theorem finished_atPulse (due : Bool) {f : State → State} (hf : ∀ u, Upkeep u (f u)) : Finished s (atPulse due f s) := by
  unfold atPulse
  split
  · exact .pulsed _ ((upkeep_inPulse .refl true).trans (hf _))
  · exact .finish .refl

theorem finished_atWindow {f : State → State} (hf : Upkeep s (f s)) : Finished s (atWindow f s) :=
  .finish (by split; exacts [hf, .refl])

theorem finished_atFrame (stands : Bool) {f : State → State} (hf : Upkeep s (f s)) : Finished s (atFrame stands f s) :=
  .finish (by split; exacts [hf, .refl])

end Sys2Proof.Machine

namespace Sys2Proof.Machine

open Sys2Proof

variable {s t : State}

/-- Every command but POWER_ON_RESET leaves the state, or does work that it finishes. -/
theorem finished_exec (c : Instr) (hc : c ≠ .powerOnReset) : ∀ t, exec c s = .next t → Finished s t := by
  cases c with
  | powerOnReset => exact absurd rfl hc
  | configOpen => exact forall_next (finished_serve _ _ fun _ => upkeep_checked .refl _ (upkeep_takeConfigOpen .refl))
  | tableWriteFiu | tableWriteGroup | tableWriteCircuit | tableWriteConflictMatrix | tableWriteStage | tableWriteInputMap =>
    exact forall_next (finished_serve _ _ fun _ => upkeep_passed .refl _ (upkeep_setTables .refl _))
  | tableWritePattern => exact forall_next (finished_serve _ _ fun _ => upkeep_passed .refl _ (Upkeep.refl.quiet rfl))
  | tableWriteStartUpRecord => exact forall_next (finished_serve _ _ fun _ => upkeep_writeStartUp .refl _ _)
  | tableWritePlan => exact forall_next (finished_serve _ _ fun _ => upkeep_writePlan .refl _ _ _)
  | tableWriteSchedule =>
    exact forall_next (finished_serve _ _ fun _ => upkeep_checked .refl _ (upkeep_evaluate (Upkeep.refl.quiet rfl)))
  | tableWriteReaction =>
    exact forall_next (finished_serve _ _ fun _ => upkeep_checked .refl _ (upkeep_reformReactions (upkeep_setTables .refl _) _))
  | tableWriteProvingParameters => exact forall_next (finished_serve _ _ fun _ => upkeep_writeProving .refl _ _)
  | tableWriteCableParameters => exact forall_next (finished_serve _ _ fun _ => upkeep_writeCable .refl _ _)
  | tableWriteReference => exact forall_next (finished_serve _ _ fun _ => upkeep_writeReference .refl _ _)
  | tableWriteLive => exact forall_next (finished_serve _ _ fun _ => upkeep_writeLive .refl _ _ _)
  | tableRead => exact forall_next (finished_serve _ _ fun _ => upkeep_takeRead .refl _ _)
  | validatePlan => exact forall_next (finished_serve _ _ fun _ => upkeep_validatePlanReq .refl _)
  | start => exact forall_next (finished_serve _ _ fun _ => upkeep_startReq .refl)
  | programIdentity => exact forall_next (finished_serve _ _ fun _ => upkeep_programIdentityReq .refl _)
  | selectPlan => exact forall_next (finished_serve _ _ fun _ => upkeep_selectPlanReq .refl _)
  | releasePlan => exact forall_next (finished_serve _ _ fun _ => upkeep_handPlan (upkeep_sched .refl _) false)
  | hold => exact forall_next (finished_serve _ _ fun _ => upkeep_holdReq .refl _)
  | releaseHold => exact forall_next (finished_serve _ _ fun _ => upkeep_setHold .refl none)
  | step => exact forall_next (finished_serve _ _ fun _ => upkeep_stepRequest .refl _)
  | demand => exact forall_next (finished_serve _ _ fun _ => upkeep_checked .refl _ (upkeep_latched .refl _))
  | setDim => exact forall_next (finished_serve _ _ fun _ => upkeep_setDimReq .refl _)
  | releaseDim => exact forall_next (finished_serve _ _ fun _ => upkeep_handDim (upkeep_sched .refl _))
  | flash | dark => exact forall_next (finished_serve _ _ fun _ => upkeep_checked .refl _ (upkeep_takeStop .refl _ _ _))
  | resume => exact forall_next (finished_serve _ _ fun _ => upkeep_checked .refl _ (upkeep_takeExit .refl _))
  | directEnter => exact forall_next (finished_serve _ _ fun _ => upkeep_checked .refl _ (upkeep_enterMode .refl _ _))
  | directTarget => exact forall_next (finished_serve _ _ fun _ => upkeep_directTargetReq .refl _)
  | directExit => exact forall_next (finished_serve _ _ fun _ => upkeep_directExitReq .refl)
  | syncPatterns => exact forall_next (finished_serve _ _ fun _ => upkeep_restartJunctionRun .refl)
  | learn => exact forall_next (finished_serve _ _ fun _ => upkeep_learnReq .refl _ _ _ _)
  | learnCancel => exact forall_next (finished_serve _ _ fun _ => upkeep_learnCancelReq .refl _)
  | ackFault => exact forall_next (finished_serve _ _ fun _ => upkeep_ackFaultReq .refl _)
  | clearLatch => exact forall_next (finished_serve _ _ fun _ => upkeep_clearLatchReq .refl _)
  | forwardSet =>
    exact forall_next (finished_serve _ _ fun _ => upkeep_passed .refl _ (Upkeep.refl.setBus (fun b => { b with forward := unitSet _ }) rfl rfl rfl))
  | pass => exact forall_next (finished_serve _ _ fun _ => upkeep_passReq .refl _ _ _ _)
  | setTime => exact forall_next (finished_serve _ _ fun _ => upkeep_checked .refl _ (upkeep_takeSetTime .refl _ _))
  | trim => exact forall_next (finished_serve _ _ fun _ => upkeep_trimReq .refl _ _)
  | engineRestart => exact forall_next (finished_serve _ _ fun _ => upkeep_takeEngineRestart .refl)
  | readIdentity | readStatus | malformedRequest => exact forall_next (finished_serve _ _ fun _ => .refl)
  | busyRequest =>
    refine forall_next ?_
    split
    · exact .finish (upkeep_answerBusy (upkeep_received .refl) _ _)
    · exact .idle
  | corruptFrame | framePauseTimeout => exact forall_next (.finish (Upkeep.refl.setPort _ rfl rfl))
  | frameSent => exact forall_next (.finish (upkeep_endFrame .refl))
  | mainsEdge => exact forall_next (.finish (upkeep_takeEdge .refl _))
  | mainsFrequencyRaise => exact forall_next (.finish (upkeep_takeFreqRaise .refl))
  | mainsFrequencyClear => exact forall_next (.finish (upkeep_takeFreqClear .refl))
  | mainsGapBegin => exact forall_next (.finish (upkeep_gapBegins .refl))
  | mainsInterruptionRaise => exact forall_next (.finish (upkeep_takeInterruption .refl))
  | mainsInterruptionClear => exact forall_next (.finish (.ite (upkeep_clear (upkeep_setMains .refl _) _ _) .refl))
  | substituteWindowStart => exact forall_next (.finish (upkeep_substituteStart .refl))
  | senseReceived => exact forall_next (.finish (upkeep_senseArrives .refl _))
  | senseMiss => exact forall_next (.finish (upkeep_senseMissed .refl _))
  | fiuLost => exact forall_next (.finish (by split; exacts [upkeep_senseMissed .refl _, .refl]))
  | rollCallRound => exact forall_next (.finish (upkeep_goRound (upkeep_takeRollRound .refl)))
  | identReceived => exact forall_next (.finish (upkeep_identArrives .refl _))
  | identTimeout => exact forall_next (.finish (upkeep_identTimedOut .refl _))
  | passReplyReceived => exact forall_next (.finish (upkeep_passArrives .refl _))
  | unexpectedGreenRaise => exact forall_next (finished_atWindow (upkeep_takeGreenRaise .refl _))
  | unexpectedGreenClear => exact forall_next (finished_atWindow (upkeep_takeGreenClear .refl _))
  | decisecondPulse => exact forall_next (.finish (upkeep_pulse .refl))
  | clearanceStart => exact forall_next (finished_atPulse _ fun _ => by unfold takeClearanceStart; split <;> simp [Upkeep.refl])
  | amberEnd => exact forall_next (finished_atPulse _ fun _ => by unfold takeAmberEnd; split <;> simp [Upkeep.refl])
  | clearanceEnd => exact forall_next (finished_atPulse _ fun _ => by unfold takeClearanceEnd; split <;> simp [Upkeep.refl])
  | redAmberEnd => exact forall_next (finished_atPulse _ fun _ => by unfold takeRedAmberEnd; split <;> simp [Upkeep.refl])
  | patternStep => exact forall_next (finished_atPulse _ fun _ => upkeep_takePatternStep .refl _)
  | startFlashEnd => exact forall_next (finished_atPulse _ fun _ => upkeep_takeStartFlashEnd .refl)
  | startRedEnd => exact forall_next (.finish (upkeep_takeStartRedEnd .refl))
  | startProvingTimeout => exact forall_next (finished_atPulse _ fun _ => upkeep_takeProvingTimeout .refl)
  | controllerSilent => exact forall_next (finished_atPulse _ fun _ => upkeep_takeSilent .refl)
  | minimumGreenEnd => exact forall_next (finished_atPulse _ fun _ => upkeep_takeMinimumEnd .refl)
  | gapOut => exact forall_next (finished_atPulse _ fun _ => by unfold takeGapOut; split <;> simp [Upkeep.refl])
  | maxOut => exact forall_next (finished_atPulse _ fun _ => by unfold takeMaxOut; split <;> simp [Upkeep.refl])
  | forceOff => exact forall_next (finished_atPulse _ fun _ => upkeep_takeForceOff .refl)
  | minuteBoundary => exact forall_next (.finish (upkeep_evaluate (upkeep_between .refl)))
  | midnightRollover => exact forall_next (.finish (upkeep_takeMidnight .refl))
  | inputChange => exact forall_next (finished_atFrame _ (upkeep_takeInputChange .refl _))
  | detectorStuck => exact forall_next (finished_atPulse _ fun _ => upkeep_takeStuck .refl _)
  | verdictConfirm => exact forall_next (finished_atFrame _ (upkeep_recomputeRed (upkeep_takeConfirm .refl _)))
  | learnConverge => exact forall_next (finished_atFrame _ (upkeep_takeConverge .refl _))
  | learnUnstable => exact forall_next (finished_atFrame _ (upkeep_takeUnstable .refl _))
  | cableFaultConfirm => exact forall_next (finished_atFrame _ (upkeep_recomputeRed (upkeep_takeCableFault .refl _)))
  | crossFeedRaise => exact forall_next (finished_atFrame _ (upkeep_takeCrossRaise .refl _))
  | crossFeedClear => exact forall_next (finished_atFrame _ (upkeep_takeCrossClear .refl _))
  | retryRelease => exact forall_next (finished_atPulse _ fun _ => upkeep_takeRelease .refl _)
  | tripCountClear => exact forall_next (finished_atPulse _ fun _ => upkeep_takeTripClear .refl _)
  | earthLeakageRaise => exact forall_next (finished_atFrame _ (upkeep_takeLeakRaise .refl _))
  | earthLeakageClear => exact forall_next (finished_atFrame _ (upkeep_takeLeakClear .refl _))
  | fiuOvertempRaise => exact forall_next (finished_atFrame _ (upkeep_takeHotRaise .refl _))
  | fiuOvertempClear => exact forall_next (finished_atFrame _ (upkeep_takeHotClear .refl _))
  | frameBegins => exact forall_next (.finish (by unfold byteArrives; split; exacts [Upkeep.refl.setPort _ rfl rfl, .refl]))
  | crystalMillisecond => exact forall_next (.finish (upkeep_takeCrystalMs .refl))

theorem Chosen.records (h : Chosen s t) (ho : OneRecordEach s) : OneRecordEach t := oneRecordEach_of_slots (by rw [h.coll]) ho

theorem Chosen.capacity (h : Chosen s t) (hc : WithinCapacity s) : WithinCapacity t := by
  obtain ⟨logs, queue, dropped, rings⟩ := hc
  unfold WithinCapacity
  rw [h.units, h.dropped, h.prov]
  exact ⟨logs, h.queue.trans queue, dropped, rings⟩

theorem alarmNow_of_coll (h : t.coll = s.coll) : alarmNow t = alarmNow s := by unfold alarmNow records; rw [h]

theorem Chosen.fresh (h : Chosen s t) (hs : Fresh s) : Fresh t := by
  obtain ⟨alarm, summary⟩ := hs
  exact ⟨by rw [h.coll, alarmNow_of_coll h.coll]; exact alarm, by rw [h.summary, h.formed]; exact summary⟩

/-! ## The records and the capacities (R114, R121, R138, R159) -/

theorem Finished.records (h : Finished s t) (ho : OneRecordEach s) : OneRecordEach t := by
  cases h with
  | idle => exact ho
  | work hu ht => exact ht.records ((upkeep_settle hu).records ho)

theorem Finished.capacity (h : Finished s t) (hc : WithinCapacity s) : WithinCapacity t := by
  cases h with
  | idle => exact hc
  | work hu ht => exact ht.capacity ((upkeep_settle hu).capacity hc)

/-! ## What every step keeps -/

/-- POWER_ON_RESET leaves what the transmitter's choice makes of a state with the records, the capacities and the summary of reset (R168, R172). -/
theorem chosen_por (s : State) : ∃ r, Chosen r (por s) ∧ OneRecordEach r ∧ WithinCapacity r ∧ Fresh r :=
  ⟨_, chosen_kick _, oneRecordEach_reset, withinCapacity_reset, fresh_reset⟩

/-- What the finished commands keep and POWER_ON_RESET leaves, every step keeps. -/
theorem kept_step {P : State → Prop} (queue : ∀ (s : State) (l : List Instr), P s → P { s with pending := l })
    (work : ∀ s t : State, Finished s t → P s → P t) (por : ∀ s : State, P (por s)) (hs : P s) (h : Machine.step s = .next t) : P t := by
  unfold step at h
  split at h
  case h_1 c rest _ =>
    by_cases hc : c = .powerOnReset
    · subst hc
      exact Host.Outcome.next.inj h ▸ por _
    · exact work _ _ (finished_exec c hc t h) (queue s rest hs)
  case h_2 => exact Host.Outcome.next.inj h ▸ hs

/-- Settles O59: the collector makes no second record, each queue, log and ring gives up what it has no room for, and every command ends with
a choice that takes from the queue alone. -/
theorem capacityKept : Obligations.CapacityKept := by
  refine ⟨fun s t ho h => kept_step (fun _ _ ho => ho) (fun _ _ => Finished.records) (fun s => ?_) ho h,
    fun s t hc h => kept_step (fun _ _ hc => hc) (fun _ _ => Finished.capacity) (fun s => ?_) hc h⟩
  · obtain ⟨r, chosen, records, -, -⟩ := chosen_por s
    exact chosen.records records
  · obtain ⟨r, chosen, -, capacity, -⟩ := chosen_por s
    exact chosen.capacity capacity

end Sys2Proof.Machine

namespace Sys2Proof.Machine

open Sys2Proof

variable {s t : State}

/-! ## The ALARM line and the summary (R167, R171, R172) -/

/-- The hand-overs end with the ALARM line and the summary formed afresh. -/
theorem fresh_settle (s : State) : Fresh (settle s) := by
  unfold settle
  generalize settleN 4 s = u
  exact ⟨rfl, rfl⟩

theorem Finished.fresh (h : Finished s t) (hs : Fresh s) : Fresh t := by
  cases h with
  | idle => exact hs
  | work _ ht => exact ht.fresh (fresh_settle _)

theorem Finished.alert (h : Finished s t) (change : alertChange s.port.summary t.port.summary = true) :
    t.port.alert ≠ none ∨ ∃ a : Alert, t.port.tx = some (.alert a) := by
  cases h with
  | idle => rw [alertChange_self] at change; cases change
  | work hu ht =>
    have worked := upkeep_settle hu
    generalize settle _ = r at worked ht
    rw [ht.summary] at change
    exact ht.alert (worked.alert (.inl change))

/-- A slot's record counts for the unacknowledged where it is held and unacknowledged (R167). -/
theorem unackCount_eq (s : State) : unackCount s = (List.finRange 64).countP fun i =>
    s.coll.slots[i].any fun r => decide (r.state ≠ .activeAck) := by
  have slots : s.coll.slots.toList = (List.finRange 64).map fun i => s.coll.slots[i] :=
    List.ext_getElem (by simp) fun i _ _ => by simp
  rw [unackCount, records, slots, List.filterMap_map, List.countP_filterMap]
  refine List.countP_congr fun i _ => ?_
  simp only [Function.comp_apply, id_eq]
  cases s.coll.slots[i] <;> simp [FaultRec.isUnack]

theorem reaction_severity_pos (r : Reaction) : 1 ≤ r.severity ↔ r ≠ .record := by cases r <;> decide

/-- The ALARM line is active just when a record held or the latch has a reaction above RECORD (R167). -/
theorem alarmNow_iff : alarmNow s = true ↔ (∃ r : Reaction, s.coll.overflow = some r ∧ r ≠ .record) ∨
    ∃ (i : Fin 64) (r : FaultRec), s.coll.slots[i] = some r ∧ r.reaction ≠ .record := by
  have held : ((records s).any fun r => decide (1 ≤ r.reaction.severity)) = true ↔
      ∃ (i : Fin 64) (r : FaultRec), s.coll.slots[i] = some r ∧ r.reaction ≠ .record := by
    simp only [List.any_eq_true, mem_records, decide_eq_true_eq, reaction_severity_pos, ← exists_and_right]
    exact exists_comm
  rw [alarmNow, Bool.or_eq_true, held, or_comm]
  refine or_congr_left ?_
  cases s.coll.overflow <;> simp [reaction_severity_pos]

/-- What holds of every ADMITTED unit, read from the list of them. -/
theorem all_admitted_iff (p : UnitRec → Bool) : (s.bus.units.toList.filter fun x => decide (x.state = .admitted)).all p = true ↔
    ∀ v : Fin 12, s.bus.units[v].state = .admitted → p s.bus.units[v] = true := by
  simp only [List.all_eq_true, List.mem_filter, Vector.mem_toList_iff, Vector.mem_iff_getElem, decide_eq_true_eq]
  exact ⟨fun h v => fun a => h _ ⟨⟨v.val, v.isLt, rfl⟩, a⟩, fun h x ⟨⟨i, hi, e⟩, a⟩ => e ▸ h ⟨i, hi⟩ (e ▸ a)⟩

theorem dimSummary_allBright_iff : dimSummary s = .allBright ↔
    ∀ v : Fin 12, s.bus.units[v].state = .admitted → s.bus.units[v].dim = .bright := by
  have bright := all_admitted_iff (s := s) fun x => decide (x.dim = .bright)
  simp only [decide_eq_true_eq] at bright
  rw [← bright]
  unfold dimSummary
  dsimp only
  repeat' split
  all_goals simp_all

theorem dimSummary_allDim_iff : dimSummary s = .allDim ↔ (∃ v : Fin 12, s.bus.units[v].state = .admitted) ∧
    ∀ v : Fin 12, s.bus.units[v].state = .admitted → s.bus.units[v].dim = .dim := by
  have bright := all_admitted_iff (s := s) fun x => decide (x.dim = .bright)
  have dim := all_admitted_iff (s := s) fun x => decide (x.dim = .dim)
  simp only [decide_eq_true_eq] at bright dim
  unfold dimSummary
  dsimp only
  split
  next all =>
    refine iff_of_false (by simp) fun ⟨⟨v, a⟩, all'⟩ => ?_
    exact absurd ((bright.1 all v a).symm.trans (all' v a)) (by decide)
  next some =>
    have one : ∃ v : Fin 12, s.bus.units[v].state = .admitted := by
      by_contra none
      exact some (bright.2 fun v a => absurd ⟨v, a⟩ none)
    split
    next all => exact iff_of_true rfl ⟨one, dim.1 all⟩
    next some => exact iff_of_false (by simp) fun h => some (dim.2 h.2)

theorem learningNow_iff : learningNow s = true ↔ ∃ c : Fin 96, s.prov.learn[c].state = .learning := by
  simp only [learningNow, List.any_eq_true, Vector.mem_toList_iff, Vector.mem_iff_getElem, decide_eq_true_eq]
  exact ⟨fun ⟨x, ⟨i, hi, e⟩, h⟩ => ⟨⟨i, hi⟩, e ▸ h⟩, fun ⟨c, h⟩ => ⟨_, ⟨c.val, c.isLt, rfl⟩, h⟩⟩

theorem effSource_mains_iff : effSource s = .mains ↔ s.clock.preferred = .mains ∧ s.mains.timebase ≠ .substitute := by
  unfold effSource
  cases s.clock.preferred <;> cases s.mains.timebase <;> simp

/-- Settles O60: the hand-overs form the outputs, every command ends with them, and the ALERT slot is made READY by them. -/
theorem summaryKept : Obligations.SummaryKept := by
  refine ⟨fun s t hs h => ?_, fun s t c _ h hc change => ?_, fun s => ⟨alarmNow_iff, rfl, rfl, rfl, fun idle => ?_, fun p run => ?_,
    decide_eq_true_iff, (unackCount_eq s).trans (congrArg (List.countP · _) (funext fun i => ?_)), rfl, ?_,
    decide_eq_true_iff, dimSummary_allBright_iff, dimSummary_allDim_iff, learningNow_iff,
    effSource_mains_iff, rfl⟩⟩
  · refine kept_step (fun _ _ hs => hs) (fun _ _ => Finished.fresh) (fun s => ?_) hs h
    obtain ⟨r, chosen, -, -, fresh⟩ := chosen_por s
    exact chosen.fresh fresh
  · refine (finished_exec c hc t h).alert ?_
    simpa only [alertChange, Bool.or_eq_true, decide_eq_true_eq, ne_comm, or_assoc] using change
  · simp only [summaryNow, idle, Option.map_none]
  · simp only [summaryNow, run, Option.map_some]; rfl
  · cases s.coll.slots[i] <;> rfl
  · exact Option.isSome_iff_ne_none

end Sys2Proof.Machine
